-- ==== Sys2Proof/Word.lean ====
section
/-!
DEFINITION. The word types of the IZH-1152 and their plainest arithmetic: bytes, little-endian numbers (R4),
saturating counters (R146, R356), and the sparse table that holds numbered objects.
-/
namespace Sys2Proof

/-- One byte (R4). -/
abbrev Byte := BitVec 8

/-- Switch ports 0–176 (R14). -/
abbrev Port := Fin 177
/-- External ports 0–143 (R14). -/
abbrev ExtPort := Fin 144
/-- Pool ports 144–159, counted from 0 (R14): pool port `i` is switch port `144 + i`. -/
abbrev PoolPort := Fin 16
/-- Tile ports 160–175, counted from 0 (R14): tile port `i` is switch port `160 + i`. -/
abbrev TilePort := Fin 16
/-- Kamro dies 0 and 1 (R14). -/
abbrev Kamro := Fin 2
/-- Pool dies 0–3 (R246). -/
abbrev PoolDie := Fin 4
/-- Tile positions 0–199 (R188). -/
abbrev Position := Fin 200
/-- Pipeline numbers 1–192 (R231); 0 names no pipeline. -/
abbrev Pipe := Fin 193
/-- Group slots 0–4,095 (R167). -/
abbrev GroupSlot := Fin 4096
/-- Directions (R149): 0 is +x, 1 is −x, 2 is +y, 3 is −y, 4 is +z, 5 is −z. -/
abbrev Dir := Fin 6
/-- Host rings and BAR2 windows 0–63 (R300). -/
abbrev RingNo := Fin 64

/-- A sparse table: numbered entries, the numbers strictly rising (`Tbl.wf`). -/
abbrev Tbl (α : Type) := List (Nat × α)

/-- Saturating count of width `w` bits. -/
def satAdd (w n k : Nat) : Nat := min (n + k) (2 ^ w - 1)

end Sys2Proof
end

