-- ==== Sys2Proof/Word/Types.lean ====
section
/-!
DEFINITION. The types a command of the model carries: frames (R103), control blocks (R118), command packets
(R306), envelopes (R307), tile instructions (R205), samples of the sensors (R396). Types only: what is done
with them stands in Sys2Proof/Machine/.
-/
namespace Sys2Proof

/-- Traffic class (R105), in the order of its encoding 0b00–0b11. -/
inductive TClass where
  | g | o | b | m
deriving DecidableEq, Repr

/-- ORD field (R90), in the order of its encoding. -/
inductive Ord where
  | relaxed | acquire | release | acqRel
deriving DecidableEq, Repr

/-- SCOPE field (R90), in the order of its encoding. -/
inductive Scp where
  | tile | modul | node | fabric
deriving DecidableEq, Repr

/-- A frame (R101, R103): the header's fields, the payload area (with the envelope of R113 when `conf`), and the
frame check carried after it (R110). -/
structure Frame where
  dst       : BitVec 16 := 0
  src       : BitVec 16 := 0
  offset    : BitVec 48 := 0
  dtype     : BitVec 4 := 0
  length    : BitVec 12 := 0
  tag       : BitVec 32 := 0
  key       : BitVec 64 := 0
  op        : BitVec 8 := 0
  cls       : TClass := .o
  ord       : Ord := .relaxed
  scope     : Scp := .tile
  phase     : Bool := false
  dline     : Bool := false
  hops      : BitVec 6 := 0
  slice     : BitVec 10 := 0
  hchk      : BitVec 12 := 0
  rsv       : BitVec 3 := 0
  conf      : Bool := false
  log       : Bool := false
  cm        : Bool := false
  noCombine : Bool := false
  resend    : Bool := false
  retry     : Bool := false
  inter     : BitVec 11 := 0
  payload   : List Byte := []
  fcheck    : BitVec 32 := 0
deriving DecidableEq, Repr

/-- A control block of the line (R118): its 32 bytes, byte 0 in bits [7:0]. -/
abbrev CtrlBlock := BitVec 256

/-- An alignment block (R273). -/
abbrev AlignBlock := BitVec 260

/-- What the memory's own checks find when a line is read (R257). -/
inductive Ecc where
  /-- one bit wrong in a CHECK field's or MCHK's codeword -/
  | corrected
  /-- a CHECK codeword that cannot be corrected -/
  | uncorrectable
  /-- MCHK that cannot be corrected -/
  | mchkBad
deriving DecidableEq, Repr

/-- What the environment decides about one arrival at a home: whether the home carries the operation through at
once when nothing is queued ahead of it (log 9), and what the checks of R257 find on the lines it reads (log 10). -/
structure HomeEnv where
  atOnce : Bool := true
  ecc    : List (Nat × Ecc) := []
deriving DecidableEq, Repr

/-- Where a command came from (R308). -/
inductive Via where
  /-- host ring 0–63, taken at CMD_HEAD -/
  | ring (r : RingNo)
  /-- a MGMT_COMMAND frame accepted earlier, named by its source node and tag -/
  | fabric (src : BitVec 16) (tag : BitVec 32)
deriving DecidableEq, Repr

/-- The part of a signed envelope after its command packet (R307), bytes 64–255. -/
structure Envelope where
  role    : BitVec 8
  rsv65   : BitVec 24
  cred    : BitVec 32
  counter : BitVec 64
  serial  : BitVec 64
  rsv88   : BitVec 576
  sigR    : BitVec 384
  sigS    : BitVec 384
deriving DecidableEq, Repr

/-- The answer of the host's translation agent for one page (R52). -/
structure AtsAnswer where
  page   : BitVec 52
  transl : Option (BitVec 52)
  read   : Bool
  write  : Bool
deriving DecidableEq, Repr

/-- A host reference as PCIe answers it (R306, R52): whether its accesses succeed there, and the bytes host memory holds there (empty for a
result buffer). -/
structure HostRef where
  translates : Bool := true
  bytes      : List Byte := []
deriving DecidableEq, Repr

/-- A command packet (R306) with what the environment adds to it: its source, the rest of its envelope when SIGNED,
the referenced host bytes when REF, what host memory holds at an address the parameters give (`host`), whether the ring entry can be read (`fetchOk`) and the reply written (`replyOk`, R301),
and how the host's translation agent answers the Translation Requests that the command gives rise to (`ats`, R52). The
opcode is the command's constructor. `params` are bytes 16–63, byte 16 in bits [7:0]. -/
structure Cmd where
  via      : Via
  rsvFlags : BitVec 13 := 0
  noIrq    : Bool := false
  seq      : BitVec 32 := 0
  cls      : BitVec 8
  inst     : BitVec 24 := 0
  rsv12    : BitVec 32 := 0
  params   : BitVec 384 := 0
  ref      : Option HostRef := none
  env      : Option Envelope := none
  host     : HostRef := {}
  fetchOk  : Bool := true
  replyOk  : Bool := true
  ats      : List AtsAnswer := []
deriving DecidableEq, Repr

/-- Operand formats of the tiles (R193). -/
inductive Fmt where
  | fp32 | bf16 | fp16 | e4m3 | e5m2 | e3m2 | e2m3 | e2m1 | int8 | uint8 | int32 | uint32
deriving DecidableEq, Repr

/-- Rounding modes (R198). -/
inductive RMode where
  | rne | rtz | sr
deriving DecidableEq, Repr

/-- Vector arithmetic of R205. -/
inductive VOp where
  | add | mul | fma | min | max | cmpEq | cmpLt | cmpLe | select | and | or | xor | not | shl | shrLogical | shrArith
deriving DecidableEq, Repr

/-- Cross-lane reductions of R205. -/
inductive ROp where
  | sum | min | max
deriving DecidableEq, Repr

/-- Functions of the function unit (R203). -/
inductive FnOp where
  | exp | log | recip | rsqrt
deriving DecidableEq, Repr

/-- Where an instruction of a tile takes or leaves its elements: vector register `r` from element `base` on, or the
accumulators (R196). -/
inductive VReg where
  | vec (r : Fin 32) (base : Nat)
  | acc
deriving DecidableEq, Repr

/-- An MX scale array of an instruction (R193): the vector register that holds one byte per block of 32. -/
abbrev MxScale := Option (Fin 32)

/-- What an instruction of a tile carries beside its operands: its predicate (R191), the tile cycle in which it issues, whose mesh slot is that
number mod 64 (R209), and what the code of R206 finds in the SRAM words it reads, by byte offset (log 10). -/
structure Issue where
  pred  : Option Nat := none
  cycle : Nat := 0
  ecc   : List (Nat × Ecc) := []
deriving DecidableEq, Repr

/-- Where a 32-byte word of a stream port or of the mesh goes or comes from (R205, R207, R212): word `word` of a vector register, or SRAM. -/
inductive WordAt where
  | reg (r : Fin 32) (word : Fin 64)
  | sram (off : Nat)
deriving DecidableEq, Repr

/-- Where the function unit takes its elements (R207): a register operand, or SRAM. -/
inductive FnSrc where
  | reg (v : VReg)
  | sram (off : Nat)
deriving DecidableEq, Repr

/-- SRAM accesses of R207. -/
inductive SramOp where
  /-- vector or partial load of `len` bytes at `off` into register `r` -/
  | load (r : Fin 32) (off len : Nat)
  /-- vector or partial store -/
  | store (r : Fin 32) (off len : Nat)
  /-- gather of 64-byte granules at the 32-bit offsets held in register `idx` -/
  | gather (r idx : Fin 32) (n : Nat)
  /-- scatter of 64-byte granules -/
  | scatter (r idx : Fin 32) (n : Nat)
deriving DecidableEq, Repr

/-- Scalar arithmetic of the sequencer (R205). -/
inductive SOp where
  | add | sub | mul | and | or | xor | shl | shr | mov
deriving DecidableEq, Repr

/-- Kinds of a fence (R96). -/
inductive FenceKind where
  | acquire | release | acqRel | seqCst
deriving DecidableEq, Repr

/-- Sequencer instructions of R205 (R191). -/
inductive SeqOp where
  /-- counted loop of `count` runs of the next `len` instructions -/
  | loop (count len : Nat)
  /-- predicate `p` set from a scalar register being non-zero -/
  | predSet (p : Nat) (r : Fin 32)
  /-- scalar arithmetic, `b` a register -/
  | scalar (op : SOp) (d a b : Fin 32)
  /-- scalar register loaded with a constant -/
  | scalarImm (d : Fin 32) (v : BitVec 64)
  /-- fence of a kind at a scope (R96); the tile-scope fence of R205 is that of scope tile -/
  | fence (k : FenceKind) (s : Scp)
deriving DecidableEq, Repr

/-- The strap pins (R439). -/
structure StrapPins where
  x : BitVec 4
  y : BitVec 4
  z : BitVec 3
  plane : BitVec 3
  parity : Bool
  bootSrc : Bool
deriving DecidableEq, Repr

/-- An SPDM request over DOE (R341): its version, parameters and what follows them; the row names the request code. -/
structure SpdmReq where
  version : BitVec 8 := 0x13#8
  param1  : BitVec 8 := 0
  param2  : BitVec 8 := 0
  body    : List Byte := []
deriving DecidableEq, Repr

end Sys2Proof
end

