-- ==== Sys2Proof/Syntax.lean ====
section
/-!
DEFINITION. The commands of the block: one constructor per row of spec/opcode_table.json, in the table's order. The
table gives the rows no fields; the operands below are what the row's rules say the step acts on (log 1). A wire
object (a frame, a control block, an alignment block, a codeword, a command packet) is carried as it travels; an event
names the object it happens to, and carries what only the world outside the module knows (a sensor's sample, what a
check of the memory found, what host memory holds).
-/
namespace Sys2Proof

/-- The commands (opcode_table.json). -/
inductive Instr where
  /-- FRAME_ARRIVAL (R154): the frame whose header arrives on switch input `p`. -/
  | frameArrival (p : Port) (f : Frame)
  /-- FRAME_CHECK (R110): the last flit of the oldest unfinished frame of input `p` arrives. -/
  | frameCheck (p : Port)
  /-- BRIDGE_GRANT (R122): the bridge out of die `d` can take a frame. -/
  | bridgeGrant (d : Kamro)
  /-- OUTPUT_ARBITRATION (R133): output `p` can start a frame in this core cycle. -/
  | outputArbitration (p : Port)
  /-- SPILL_BLOCK_WRITE (R128): the open spill block of a queue of output `p` is written. -/
  | spillBlockWrite (p : Port) (c : TClass) (vc : Fin 9)
  /-- SPILL_READBACK (R128): the oldest spilled frame of a queue is read back; `bad` when it comes back uncorrectable or poisoned. -/
  | spillReadback (p : Port) (c : TClass) (vc : Fin 9) (bad : Bool)
  /-- ROUND_BOUNDARY (R137). -/
  | roundBoundary
  /-- PACER_ANSWER_REPEAT (R120): the repeat on port `p` is due in a block of its own. -/
  | pacerAnswerRepeat (p : ExtPort)
  /-- LINK_STATE (R119): the control block received on port `p`. -/
  | linkState (p : ExtPort) (b : CtrlBlock)
  /-- LINK_STATE_SEND (R119). -/
  | linkStateSend (p : ExtPort)
  /-- SYNC (R119). -/
  | sync (p : ExtPort) (b : CtrlBlock)
  /-- WIDTH_REQUEST (R287). -/
  | widthRequest (p : ExtPort) (b : CtrlBlock)
  /-- WIDTH_REQUEST_REPEAT (R287). -/
  | widthRequestRepeat (p : ExtPort)
  /-- WIDTH_REQUEST_UNANSWERED (R289). -/
  | widthRequestUnanswered (p : ExtPort)
  /-- POWER (R291). -/
  | power (p : ExtPort) (b : CtrlBlock)
  /-- WAKE (R292). -/
  | wake (p : ExtPort) (b : CtrlBlock)
  /-- QUIET_ENTRY (R290). -/
  | quietEntry (p : ExtPort)
  /-- SLEEP_ENTRY (R290). -/
  | sleepEntry (p : ExtPort)
  /-- POWER_RESUME (R291). -/
  | powerResume (p : ExtPort)
  /-- ALIGNMENT_BLOCK (R273): received on the physical lane `lane` at its expected position. -/
  | alignmentBlock (p : ExtPort) (lane : Fin 8) (b : AlignBlock)
  /-- CODEWORD_DECODE (R277): the PAM4 levels of a codeword as received, by lane of LANE_SET in ascending order (R268, R276). -/
  | codewordDecode (p : ExtPort) (levels : List (List (BitVec 2)))
  /-- CLOCK_DETECT (R280). -/
  | clockDetect (p : ExtPort)
  /-- CLOCK_DETECT_RETRY (R280). -/
  | clockDetectRetry (p : ExtPort)
  /-- PHASE_ALIGNMENT (R280): every data lane not mapped out is phase-aligned. -/
  | phaseAlignment (p : ExtPort) (inverted : Bool := false)
  /-- EQUALIZATION_CHECK (R280): the lanes whose BER over the 1 ms was at most 1 × 10^−6. -/
  | equalizationCheck (p : ExtPort) (pass : BitVec 8)
  /-- BRING_UP_STAGE_TIMEOUT (R280): the lanes that have completed the stage when its bound passes. -/
  | bringUpStageTimeout (p : ExtPort) (doneLanes : BitVec 8)
  /-- LANE_LOSS_OF_SIGNAL (R278). -/
  | laneLossOfSignal (p : ExtPort) (lane : Fin 8)
  /-- LANE_LOSS_OF_LOCK (R278). -/
  | laneLossOfLock (p : ExtPort) (lane : Fin 8)
  /-- SYMBOL_ERRORS (R278). -/
  | symbolErrors (p : ExtPort) (lane : Fin 8)
  /-- CLOCK_LOSS_OF_SIGNAL (R288). -/
  | clockLossOfSignal (p : ExtPort)
  /-- CLOCK_FALLBACK_TIMEOUT (R289). -/
  | clockFallbackTimeout (p : ExtPort)
  /-- CREDIT_STALL (R289). -/
  | creditStall (p : ExtPort) (vc : Fin 9)
  /-- DETOUR_PROBE_TIMEOUT (R161). -/
  | detourProbeTimeout (d : Dir)
  /-- BUNDLE_STARTUP_TIMEOUT (R159). -/
  | bundleStartupTimeout (d : Dir)
  /-- IN_SERVICE_CHECK_START (R293). -/
  | inServiceCheckStart (p : ExtPort)
  /-- IN_SERVICE_CHECK_END (R293): per lane 0–7 the bits changed by FEC correction, and the bits each lane carried. -/
  | inServiceCheckEnd (p : ExtPort) (errs : List Nat) (bits : Nat)
  /-- LINK_HELLO (R283). -/
  | linkHello (p : ExtPort) (f : Frame)
  /-- PROFILE_IDENT (R86). -/
  | profileIdent (p : ExtPort) (f : Frame)
  /-- CREDIT_INIT (R282). -/
  | creditInit (p : ExtPort) (f : Frame)
  /-- RTT_PROBE (R282). -/
  | rttProbe (p : ExtPort) (f : Frame)
  /-- RTT_ECHO (R282). -/
  | rttEcho (p : ExtPort) (f : Frame)
  /-- LINK_READY (R282). -/
  | linkReady (p : ExtPort) (f : Frame)
  /-- LINK_DOWN (R289). -/
  | linkDown (p : ExtPort) (f : Frame)
  /-- LOAD (R55): delivered on pool port `pp`. -/
  | load (pp : PoolPort) (f : Frame) (e : HomeEnv)
  /-- STORE (R55). -/
  | store (pp : PoolPort) (f : Frame) (e : HomeEnv)
  /-- STORE_POSTED (R63). -/
  | storePosted (pp : PoolPort) (f : Frame) (e : HomeEnv)
  /-- STORE_MASKED (R59). -/
  | storeMasked (pp : PoolPort) (f : Frame) (e : HomeEnv)
  /-- STORE_MASKED_POSTED (R59). -/
  | storeMaskedPosted (pp : PoolPort) (f : Frame) (e : HomeEnv)
  /-- FLUSH (R61). -/
  | flush (pp : PoolPort) (f : Frame) (e : HomeEnv)
  /-- ATOMIC_ADD (R58). -/
  | atomicAdd (pp : PoolPort) (f : Frame) (e : HomeEnv)
  /-- ATOMIC_MIN (R58). -/
  | atomicMin (pp : PoolPort) (f : Frame) (e : HomeEnv)
  /-- ATOMIC_MAX (R58). -/
  | atomicMax (pp : PoolPort) (f : Frame) (e : HomeEnv)
  /-- FETCH_ADD (R58). -/
  | fetchAdd (pp : PoolPort) (f : Frame) (e : HomeEnv)
  /-- FETCH_MIN (R58). -/
  | fetchMin (pp : PoolPort) (f : Frame) (e : HomeEnv)
  /-- FETCH_MAX (R58). -/
  | fetchMax (pp : PoolPort) (f : Frame) (e : HomeEnv)
  /-- CAS (R58). -/
  | cas (pp : PoolPort) (f : Frame) (e : HomeEnv)
  /-- REDUCE_STORE (R58). -/
  | reduceStore (pp : PoolPort) (f : Frame) (e : HomeEnv)
  /-- LINE_STEP (R251): the receiving home `h` issues the next line step of its operation number `id`. -/
  | lineStep (h : PoolDie) (id : Nat)
  /-- LINE_PERFORM (R60): the step at the head of the queue of `line`. -/
  | linePerform (line : Nat) (ecc : Option Ecc)
  /-- MULTILINE_COMMIT (R252): home `h` commits, or releases, its operation number `id`. -/
  | multilineCommit (h : PoolDie) (id : Nat)
  /-- POSTED_BUFFER_RELEASE (R76): the oldest posted store of home `h` that may now proceed. -/
  | postedBufferRelease (h : PoolDie) (e : HomeEnv)
  /-- DEDUPE_ENTRY_EXPIRY (R72). -/
  | dedupeEntryExpiry (h : PoolDie) (src : BitVec 16) (tag : BitVec 32)
  /-- STREAM_TABLE_TIMEOUT (R74). -/
  | streamTableTimeout (src : BitVec 16) (stream : BitVec 14)
  /-- ROW_REPAIR_DONE (R260): the row under repair on channel `ch`; what the checks of R257 found on its lines. -/
  | rowRepairDone (ch : Fin 384) (ecc : List (Nat × Ecc) := [])
  /-- PATROL_READ (R259). -/
  | patrolRead (line : Nat) (ecc : Option Ecc) (passEnds : Bool)
  /-- SWEEP_LAP (R258): the pass has visited every line since the slices `done` joined it; what the checks of R257 found in the lap. -/
  | sweepLap (done : List (BitVec 10) := []) (ecc : List (Nat × Ecc) := [])
  /-- POOL_INIT_DONE (R266). -/
  | poolInitDone
  /-- POOL_DIE_RESET (R267). -/
  | poolDieReset (d : PoolDie)
  /-- POOL_DIE_RETURN (R370). -/
  | poolDieReturn (d : PoolDie)
  /-- POOL_AREAS_ZEROED (R254). -/
  | poolAreasZeroed
  /-- CHECK_JOB_DONE (R264): context `ctx` of pool die `d`; what the checks of R257 found on the lines read. -/
  | checkJobDone (d : PoolDie) (ctx : Fin 16) (ecc : List (Nat × Ecc) := [])
  /-- COMPLETION (R62): delivered to an internal requester on internal port `p`. -/
  | completion (p : Port) (f : Frame)
  /-- COMPLETION_DATA (R62). -/
  | completionData (p : Port) (f : Frame)
  /-- CONG_NOTICE (R83). -/
  | congNotice (p : Port) (f : Frame)
  /-- REQUESTER_TIMEOUT (R70): of the attempt outstanding under `tag`. -/
  | requesterTimeout (tag : BitVec 32)
  /-- BACKOFF_ELAPSED (R75). -/
  | backoffElapsed (stream : BitVec 14) (node : BitVec 16)
  /-- LIMITER_INCREASE (R83): the entry of internal endpoint `ep` for `node`. -/
  | limiterIncrease (ep : Fin 13) (node : BitVec 16)
  /-- LIMITER_ENTRY_FREE (R83). -/
  | limiterEntryFree (ep : Fin 13) (node : BitVec 16)
  /-- COMBINE_WATCH_EXPIRY (R78): entry `id` of die `d`. -/
  | combineWatchExpiry (d : Kamro) (id : Nat)
  /-- COMBINE_OPEN_TIMER (R78). -/
  | combineOpenTimer (d : Kamro) (id : Nat)
  /-- COMBINED_REQUEST_TIMEOUT (R79). -/
  | combinedRequestTimeout (d : Kamro) (id : Nat)
  /-- COMBINED_COMPLETION (R80). -/
  | combinedCompletion (d : Kamro) (f : Frame)
  /-- MEMBER_RECORD_EXPIRY (R82). -/
  | memberRecordExpiry (d : Kamro) (src : BitVec 16) (tag : BitVec 32)
  /-- LAUNCH_WORD (R176). -/
  | launchWord (pp : PoolPort) (f : Frame)
  /-- RELAY_DATA (R171). -/
  | relayData (pp : PoolPort) (f : Frame)
  /-- RELAY_FLUSH (R171). -/
  | relayFlush (pp : PoolPort) (f : Frame)
  /-- RING_DATA (R180). -/
  | ringData (pp : PoolPort) (f : Frame)
  /-- BATON (R180). -/
  | baton (pp : PoolPort) (f : Frame)
  /-- A2A_DATA (R175). -/
  | a2aData (pp : PoolPort) (f : Frame)
  /-- GROUP_ABORT_FRAME (R184). -/
  | groupAbortFrame (pp : PoolPort) (f : Frame)
  /-- RING_STEP_RESEND (R180): the step of group `g` that waits under number `id`. -/
  | ringStepResend (g : GroupSlot) (id : Nat)
  /-- RING_LOST (R180). -/
  | ringLost (g : GroupSlot) (id : Nat)
  /-- LAUNCH_STALL (R184). -/
  | launchStall (g : GroupSlot)
  /-- LAUNCH_RESOURCE_TIMEOUT (R176). -/
  | launchResourceTimeout (g : GroupSlot)
  /-- LAUNCH_COMPLETE (R183). -/
  | launchComplete (g : GroupSlot)
  /-- BATCH_DESCRIPTOR (R237): delivered on tile port `tp`. -/
  | batchDescriptor (tp : TilePort) (f : Frame)
  /-- ENTRY_DATA (R238). -/
  | entryData (tp : TilePort) (f : Frame)
  /-- ENTRY_FLUSH (R236). -/
  | entryFlush (tp : TilePort) (f : Frame)
  /-- FETCH_REQUEST (R240): from the FETCH_REQ queue of stream port `sp` of position `pos`. -/
  | fetchRequest (pos : Position) (sp : Fin 2)
  /-- WRITE_REQUEST (R240). -/
  | writeRequest (pos : Position) (sp : Fin 2)
  /-- BATCH_END (R240). -/
  | batchEnd (pipe : Pipe) (ch : Fin 16)
  /-- GATE_DECISION (R241). -/
  | gateDecision (pipe : Pipe)
  /-- MESH_CYCLE_BOUNDARY (R211). -/
  | meshCycleBoundary
  /-- MESH_WORD_ARRIVAL (R210): on router input `input` (as INPUT of R223) in slot `slot`. -/
  | meshWordArrival (pos : Position) (input : Fin 5) (slot : Fin 64) (pipe : Pipe) (data : BitVec 256)
  /-- VECTOR_ARITHMETIC (R205). -/
  | vectorArithmetic (pos : Position) (op : VOp) (fmt : Fmt) (mode : RMode) (d a b c : VReg) (sa sb sc : MxScale) (i : Issue)
  /-- DOT_ACCUMULATE (R196): `k` products per lane, `init` starts from zero. -/
  | dotAccumulate (pos : Position) (fa fb : Fmt) (mode : RMode) (a b : VReg) (sa sb : MxScale) (init : Bool) (i : Issue)
  /-- CONVERT (R198). -/
  | convert (pos : Position) (src dst : Fmt) (mode : RMode) (nanOnOverflow : Bool) (d a : VReg) (sd sa : MxScale) (i : Issue)
  /-- CROSS_LANE_REDUCE (R197): into scalar register `d`. -/
  | crossLaneReduce (pos : Position) (op : ROp) (fmt : Fmt) (a : VReg) (d : Fin 32) (i : Issue) (mode : RMode := .rne)
  /-- FUNCTION (R203). -/
  | function (pos : Position) (fn : FnOp) (d : VReg) (a : FnSrc) (n : Nat) (i : Issue) (mode : RMode := .rne)
  /-- TOP_K (R204): over `n` elements at SRAM offset `off`; values to `dv`, indices to `di`. -/
  | topK (pos : Position) (fmt : Fmt) (largest : Bool) (off n k dv di : Nat) (i : Issue)
  /-- SRAM_ACCESS (R207). -/
  | sramAccess (pos : Position) (op : SramOp) (cycle : Nat) (ecc : List (Nat × Ecc)) (pred : Option Nat)
  /-- MESH_SEND (R210): register `r`, 32-byte word `word`, in local slot `slot`. -/
  | meshSend (pos : Position) (slot : Fin 64) (r : Fin 32) (word : Fin 64) (i : Issue)
  /-- MESH_RECEIVE (R242). -/
  | meshReceive (pos : Position) (slot : Fin 64) (dst : WordAt) (cycle : Nat) (pred : Option Nat)
  /-- STREAM_READ (R242). -/
  | streamRead (pos : Position) (sp : Fin 2) (dst : WordAt) (cycle : Nat) (pred : Option Nat)
  /-- STREAM_WRITE (R242). -/
  | streamWrite (pos : Position) (sp : Fin 2) (src : WordAt) (cycle : Nat) (pred : Option Nat) (ecc : List (Nat × Ecc) := [])
  /-- SEQUENCER (R205). -/
  | sequencer (pos : Position) (op : SeqOp) (i : Issue)
  /-- TILE_HARDWARE_FAULT (R213). -/
  | tileHardwareFault (pos : Position) (slot : Fin 64)
  /-- PIPELINE_STALL (R241). -/
  | pipelineStall (pipe : Pipe)
  /-- DRAIN_COMPLETE (R234). -/
  | drainComplete (pipe : Pipe)
  /-- DRAIN_TIMEOUT (R234). -/
  | drainTimeout (pipe : Pipe)
  /-- PIPELINE_STOP_COMPLETE (R244). -/
  | pipelineStopComplete (pipe : Pipe)
  /-- LAST_LOAD_COMPLETE (R231). -/
  | lastLoadComplete
  /-- PIPE_START_COMPLETE (R233). -/
  | pipeStartComplete (pipe : Pipe)
  /-- TABLE_WALK_DONE (R46): the walk number `id`. -/
  | tableWalkDone (id : Nat)
  /-- COPY_CHUNK (R53): the next chunk of the running copy; `host` the bytes host memory holds there for a host source. -/
  | copyChunk (host : List Byte)
  /-- COPY_DONE (R330). -/
  | copyDone
  /-- ATS_TRANSLATION_COMPLETION (R52): the answer for the request number `id`. -/
  | atsTranslationCompletion (id : Nat) (a : AtsAnswer)
  /-- ATS_INVALIDATION_REQUEST (R53): pages [`page`, `page + n`), or all when `global`. -/
  | atsInvalidationRequest (itag : BitVec 5) (page : BitVec 52) (n : Nat) (global : Bool)
  /-- DOORBELL (R305). -/
  | doorbell (r : RingNo) (tail : BitVec 32)
  /-- RPL_HEAD (R305). -/
  | rplHead (r : RingNo) (head : BitVec 32)
  /-- RING_ENABLE (R301): the 32-bit word at offset 0x10 written with a changed ENABLE. -/
  | ringEnable (r : RingNo) (word : BitVec 32)
  /-- REGISTER_WRITE (R6): bytes written at a BAR0 offset. -/
  | registerWrite (off : BitVec 24) (data : List Byte)
  /-- BAR2_MEMORY_WRITE (R304): at window `w`, window offset `a`. -/
  | bar2MemoryWrite (w : RingNo) (a : BitVec 32) (data : List Byte)
  /-- BAR2_MEMORY_READ (R304): `n` bytes under PCIe tag `ptag`. -/
  | bar2MemoryRead (w : RingNo) (a : BitVec 32) (n : Nat) (ptag : BitVec 14)
  /-- HOST_PORT_RESET (R313). -/
  | hostPortReset
  /-- REPLY_COALESCE_TIMEOUT (R332). -/
  | replyCoalesceTimeout (r : RingNo)
  /-- MSIX_UNMASK (R332). -/
  | msixUnmask (v : Fin 2048)
  /-- MGMT_COMMAND (R308): delivered on port 176. -/
  | mgmtCommand (f : Frame)
  /-- MGMT_REPLY (R116). -/
  | mgmtReply (f : Frame)
  /-- MGMT_EVENT (R358). -/
  | mgmtEvent (f : Frame)
  /-- NOP (R307). -/
  | nop (c : Cmd)
  /-- IDENTITY_GET (R320). -/
  | identityGet (c : Cmd)
  /-- ATTEST (R342). -/
  | attest (c : Cmd)
  /-- KEY_RELEASE_OPEN (R345). -/
  | keyReleaseOpen (c : Cmd)
  /-- KEY_RELEASE_OPEN_EXPIRY (R345). -/
  | keyReleaseOpenExpiry (slice : BitVec 10)
  /-- KEY_RELEASE_ACCEPT (R348). -/
  | keyReleaseAccept (c : Cmd)
  /-- CRED_PROVISION (R334). -/
  | credProvision (c : Cmd)
  /-- CRED_REVOKE (R334). -/
  | credRevoke (c : Cmd)
  /-- DEBUG_UNLOCK (R354). -/
  | debugUnlock (c : Cmd)
  /-- FIELD_RETURN (R354). -/
  | fieldReturn (c : Cmd)
  /-- PORT_GET (R320). -/
  | portGet (c : Cmd)
  /-- PORT_SET (R323). -/
  | portSet (c : Cmd)
  /-- LINK_RETRAIN (R294). -/
  | linkRetrain (c : Cmd)
  /-- LINK_DOWN_COMMAND (R323). -/
  | linkDownCommand (c : Cmd)
  /-- LINK_UP (R323). -/
  | linkUp (c : Cmd)
  /-- ROUTING_GET (R320). -/
  | routingGet (c : Cmd)
  /-- ROUTING_SET (R148). -/
  | routingSet (c : Cmd)
  /-- DETOUR_RELEASE (R164). -/
  | detourRelease (c : Cmd)
  /-- DETOUR_RESTORE (R164). -/
  | detourRestore (c : Cmd)
  /-- REGION_GET (R38). -/
  | regionGet (c : Cmd)
  /-- REGION_SET (R33). -/
  | regionSet (c : Cmd)
  /-- REGION_REVOCATION_DONE (R37). -/
  | regionRevocationDone (region : Fin 65536)
  /-- KEY_INSTALL (R350). -/
  | keyInstall (c : Cmd)
  /-- KEY_REVOKE (R350). -/
  | keyRevoke (c : Cmd)
  /-- SLICE_GET (R319). -/
  | sliceGet (c : Cmd)
  /-- SLICE_CREATE (R326). -/
  | sliceCreate (c : Cmd)
  /-- SLICE_TEARDOWN (R366). -/
  | sliceTeardown (c : Cmd)
  /-- PORT_SLICE (R41). -/
  | portSlice (c : Cmd)
  /-- FUNCTION_DISABLE (R368). -/
  | functionDisable (c : Cmd)
  /-- FUNCTION_DISABLE_DRAIN_END (R368): function bit `fn` of `slice`. -/
  | functionDisableDrainEnd (slice : BitVec 10) (fn : Fin 4)
  /-- XLATE_INVALIDATE (R49). -/
  | xlateInvalidate (c : Cmd)
  /-- XLATE_WRITE (R326). -/
  | xlateWrite (c : Cmd) (ecc : List (Nat × Ecc) := [])
  /-- XLATE_READ (R326). -/
  | xlateRead (c : Cmd) (ecc : List (Nat × Ecc) := [])
  /-- GROUP_GET (R320). -/
  | groupGet (c : Cmd)
  /-- GROUP_SET (R327). -/
  | groupSet (c : Cmd)
  /-- GROUP_CREATE (R168). -/
  | groupCreate (c : Cmd)
  /-- GROUP_DELETE (R327). -/
  | groupDelete (c : Cmd)
  /-- GROUP_LAUNCH (R176). -/
  | groupLaunch (c : Cmd)
  /-- GROUP_ABORT (R184). -/
  | groupAbort (c : Cmd)
  /-- RESIDUAL_RESET (R182). -/
  | residualReset (c : Cmd)
  /-- TILE_GET (R320). -/
  | tileGet (c : Cmd)
  /-- TILE_SET (R328). -/
  | tileSet (c : Cmd)
  /-- LAST_LOAD (R229). -/
  | lastLoad (c : Cmd) (ecc : List (Nat × Ecc) := [])
  /-- PIPE_START (R233). -/
  | pipeStart (c : Cmd)
  /-- PIPE_DRAIN (R234). -/
  | pipeDrain (c : Cmd)
  /-- PIPE_STOP (R234). -/
  | pipeStop (c : Cmd)
  /-- PIPE_UNLOAD (R234). -/
  | pipeUnload (c : Cmd)
  /-- POSITION_READ (R216). -/
  | positionRead (c : Cmd)
  /-- POOL_GET (R320). -/
  | poolGet (c : Cmd)
  /-- POOL_SET (R254). -/
  | poolSet (c : Cmd)
  /-- CHECK_JOB (R264). -/
  | checkJob (c : Cmd)
  /-- COPY (R330). -/
  | copy (c : Cmd)
  /-- POWER_GET (R397). -/
  | powerGet (c : Cmd)
  /-- POWER_SET (R397). -/
  | powerSet (c : Cmd)
  /-- CAP_SET (R389). -/
  | capSet (c : Cmd)
  /-- HEARTBEAT (R393). -/
  | heartbeat (c : Cmd)
  /-- FIRMWARE_GET (R320). -/
  | firmwareGet (c : Cmd)
  /-- FIRMWARE_SET (R320). -/
  | firmwareSet (c : Cmd)
  /-- FW_STAGE (R404). -/
  | fwStage (c : Cmd)
  /-- FW_ACTIVATE (R405). -/
  | fwActivate (c : Cmd)
  /-- FW_REVERT (R410). -/
  | fwRevert (c : Cmd)
  /-- CONFIG_COMMIT (R414). -/
  | configCommit (c : Cmd)
  /-- PERTURBATION_GET (R320). -/
  | perturbationGet (c : Cmd)
  /-- PERTURBATION_SET (R419). -/
  | perturbationSet (c : Cmd)
  /-- PERTURBATION_ARM (R421). -/
  | perturbationArm (c : Cmd)
  /-- PERTURBATION_DISARM (R422). -/
  | perturbationDisarm (c : Cmd)
  /-- BER_TEST (R425). -/
  | berTest (c : Cmd)
  /-- DRILL_ARM (R378). -/
  | drillArm (c : Cmd)
  /-- DRILL_DISARM (R378). -/
  | drillDisarm (c : Cmd)
  /-- FAULT_GET (R320). -/
  | faultGet (c : Cmd)
  /-- FAULT_SET (R359). -/
  | faultSet (c : Cmd)
  /-- REPLAY_OWN_RING (R377). -/
  | replayOwnRing (c : Cmd)
  /-- REPLAY_MIRROR (R377). -/
  | replayMirror (c : Cmd)
  /-- FAULT_READ (R357). -/
  | faultRead (c : Cmd)
  /-- EVENT_ROUTE (R358). -/
  | eventRoute (c : Cmd)
  /-- AUDIT_READ (R338). -/
  | auditRead (c : Cmd)
  /-- REPLAY_END (R377). -/
  | replayEnd
  /-- MIRROR_TIMEOUT (R376). -/
  | mirrorTimeout
  /-- DRILL_DUE (R380): drill `i`. -/
  | drillDue (i : Fin 64)
  /-- LINK_DROP_RESTORE (R379). -/
  | linkDropRestore (p : ExtPort)
  /-- ENDPOINT_ACTIVITY_EXPIRY (R41). -/
  | endpointActivityExpiry (p : ExtPort)
  /-- AUDIT_SEAL (R337). -/
  | auditSeal
  /-- AUDIT_FLASH_WRITE (R338). -/
  | auditFlashWrite
  /-- GET_VERSION (R341). -/
  | getVersion (r : SpdmReq)
  /-- GET_CAPABILITIES (R341). -/
  | getCapabilities (r : SpdmReq)
  /-- NEGOTIATE_ALGORITHMS (R341). -/
  | negotiateAlgorithms (r : SpdmReq)
  /-- GET_DIGESTS (R341). -/
  | getDigests (r : SpdmReq)
  /-- GET_CERTIFICATE (R341). -/
  | getCertificate (r : SpdmReq)
  /-- CHALLENGE (R341). -/
  | challenge (r : SpdmReq)
  /-- GET_MEASUREMENTS (R341). -/
  | getMeasurements (r : SpdmReq)
  /-- POWER_SAMPLE (R390): input power in W, input voltage and auxiliary voltage in mV. -/
  | powerSample (watt mv auxMv : Nat)
  /-- LEVEL_UP_STEP (R390). -/
  | levelUpStep
  /-- LEVEL_DOWN_STEP (R390). -/
  | levelDownStep
  /-- CAP_DOWN_ASSERT (R391). -/
  | capDownAssert
  /-- CAP_DOWN_RELEASE (R391). -/
  | capDownRelease
  /-- INPUT_DROOP (R391). -/
  | inputDroop
  /-- DROOP_RECOVERY (R391). -/
  | droopRecovery
  /-- UNDERVOLTAGE (R395). -/
  | undervoltage
  /-- JUNCTION_SAMPLE (R392): 15 dies in 0.01 °C; `cool100` when every die has been at or below 100 °C for 100 ms. -/
  | junctionSample (tj : List Int) (cool100 : Bool)
  /-- TEMPERATURE_STEP (R392). -/
  | temperatureStep
  /-- DRAM_TEMPERATURE_SAMPLE (R392): 48 package cases in 0.01 °C. -/
  | dramTemperatureSample (tc : List Int)
  /-- COOLANT_SAMPLE (R391): flow in mL/min, inlet and outlet in 0.01 °C; `inRange10s` when both have been in range for 10 s. -/
  | coolantSample (flowMl : Nat) (inlet outlet : Int) (inRange10s : Bool)
  /-- HEARTBEAT_TIMEOUT (R393). -/
  | heartbeatTimeout
  /-- REFERENCE_LOST (R383). -/
  | referenceLost
  /-- REFERENCE_HOLDOVER_EXPIRY (R383). -/
  | referenceHoldoverExpiry
  /-- REFERENCE_RETURN (R383). -/
  | referenceReturn
  /-- POWER_ON_RESET (R385). -/
  | powerOnReset
  /-- STRAP_SAMPLE (R440): the pins as tied. -/
  | strapSample (pins : StrapPins)
  /-- MAIN_POWER_GOOD (R385). -/
  | mainPowerGood
  /-- DIE_RESET_RELEASE (R385). -/
  | dieResetRelease
  /-- KAMRO_DIE_RESET (R141). -/
  | kamroDieReset (d : Kamro)
  /-- CONTROL_DIE_RESET (R381). -/
  | controlDieReset
  /-- HANDOVER_COMPLETE (R408): `recordOk` when the state-transfer record passes its check. -/
  | handoverComplete (recordOk : Bool)
  /-- FW_CONFIRM (R409). -/
  | fwConfirm
  /-- TRIAL_TIMEOUT (R410). -/
  | trialTimeout
  /-- STAGING_ERASE_DONE (R404). -/
  | stagingEraseDone
  /-- BANK_COPY_DONE (R411). -/
  | bankCopyDone
  /-- CONFIG_WRITE_DONE (R414): whether the read-back matches. -/
  | configWriteDone (matches' : Bool)
  /-- MAPPED_OUT_COMMIT (R294). -/
  | mappedOutCommit
  /-- PERTURBATION_EXPIRY (R422): object `i`. -/
  | perturbationExpiry (i : Fin 256)
  /-- PERTURBATION_PERIOD (R420). -/
  | perturbationPeriod (i : Fin 256)
  /-- PATTERN_BER_UPDATE (R423): per lane 0–8 the errors and the bits since arming. -/
  | patternBerUpdate (p : ExtPort) (errs : List Nat) (bits : Nat)
  /-- BER_TEST_RUN_END (R425): per lane 0–8 the errors and the bits of the run; `locked` when the receiver had pattern lock. -/
  | berTestRunEnd (p : ExtPort) (errs : List Nat) (bits : Nat) (locked : Bool)
  /-- PERIOD_START (R273). -/
  | periodStart (p : ExtPort)
  /-- DOE_DISCOVERY (R299): the index asked for. -/
  | doeDiscovery (index : BitVec 8)
  /-- ATS_ENABLE_CHANGE (R51). -/
  | atsEnableChange (enable : Bool)
  /-- POWER_LOSS (R338): whether the write in progress is torn. -/
  | powerLoss (torn : Bool)
  /-- RESERVED_OPCODE (R8): the frame reaches internal port `p`; or, where there is one, a command packet with its OPCODE. -/
  | reservedOpcode (p : Port) (f : Frame) (packet : Option (BitVec 16 × Cmd) := none)
deriving DecidableEq, Repr

end Sys2Proof
end

