-- ==== Sys2Proof/Decode.lean ====
section
/-!
DEFINITION. Commands as words of spec/opcode_table.json. The table gives none of its rows any bits, so no word spells a command.
-/
namespace Sys2Proof

/-- The command that a word of `nbits` bits spells by the table's bits: none, as no row gives bits. -/
def decodeTableWord (_nbits _w : Nat) : Option Instr := none

end Sys2Proof
end

