-- ==== Sys2Proof/Config.lean ====
section
/-!
DEFINITION. What an implementation fixes and the spec leaves open. Every constant here is opaque: it has no body, so
no proof can see a value of it and a claim holds whatever it is (log 7, log 8). The cryptographic functions the spec names
by their standards (SHA-384, ECDSA P-384, AES-256-GCM, AES-256-XTS, AES key wrap, HKDF) stand here too: uninterpreted
functions of all their inputs (log 7).
-/
namespace Sys2Proof.Config

/-- Fresh values: the `n`-th value the machine draws where the spec gives a value and does not say which (log 8). -/
opaque freeValue : Nat → BitVec 64

/-- Public half of the maker key in the boot ROM (R333), x then y. -/
opaque makerPub : BitVec 768
/-- Module serial number (R317). -/
opaque serial : BitVec 64
/-- Measurement 1: the boot ROM (R340). -/
opaque bootRomDigest : BitVec 384
/-- DeviceID and alias certificates in DER for measurements 1 and 2 (R339). -/
opaque certChain : BitVec 384 → BitVec 384 → List Byte

/-- The certificate chain of SPDM slot 0, for measurements 1 and 2 (R339, R341). -/
opaque spdmChain : BitVec 384 → BitVec 384 → List Byte
/-- The largest DOE transfer and the largest SPDM message the module takes (R341 gives neither). -/
opaque spdmSizes : BitVec 32 × BitVec 32
/-- Whether a measurement block belongs to the trusted computing base (R341 does not say). -/
opaque tcbBlock : Nat → Bool

/-- SHA-384 of a byte string. -/
opaque sha384 : List Byte → BitVec 384
/-- ECDSA P-384 verification: public key, digest, r, s. -/
opaque ecdsaVerify : BitVec 768 → BitVec 384 → BitVec 384 → BitVec 384 → Bool
/-- Signature by the alias key of measurements 1 and 2 (R339) over a digest, under the `n`-th nonce: r then s. -/
opaque aliasSign : BitVec 384 → BitVec 384 → BitVec 384 → Nat → BitVec 768
/-- Ephemeral ECDH public key of the `n`-th key release open (R345). -/
opaque ecdhPublic : Nat → BitVec 768
/-- x coordinate of the ECDH shared point of the `n`-th open with the owner's public key (R347). -/
opaque ecdhShared : Nat → BitVec 768 → BitVec 384
/-- HKDF with salt, input and info (R347). -/
opaque hkdf : List Byte → List Byte → List Byte → Nat → List Byte
/-- HKDF-Extract of ROOT_KEY with 48 zero bytes of salt: PRK (R347). -/
opaque hkdfPrk : BitVec 256 → BitVec 384
/-- HKDF-Expand of PRK with info, to a length (R347). -/
opaque hkdfExpand : BitVec 384 → List Byte → Nat → List Byte
/-- AES-256-GCM encryption: key, IV, additional data, plaintext; ciphertext and tag. -/
opaque gcmEncrypt : List Byte → List Byte → List Byte → List Byte → List Byte × BitVec 128
/-- AES-256-GCM decryption: key, IV, additional data, ciphertext, tag; the plaintext when the tag verifies. -/
opaque gcmDecrypt : List Byte → List Byte → List Byte → List Byte → BitVec 128 → Option (List Byte)
/-- AES-256-XTS encryption: key, tweak, data. -/
opaque xtsEncrypt : List Byte → Nat → List Byte → List Byte
/-- AES-256-XTS decryption: key, tweak, data. -/
opaque xtsDecrypt : List Byte → Nat → List Byte → List Byte
/-- The 9-bit SEC-DED check field over 16 bytes (R256 names the code and gives no matrix). -/
opaque secDed9 : BitVec 128 → BitVec 9
/-- The 6-bit SEC-DED check over metadata bits [47:36] (R256). -/
opaque secDed6 : BitVec 12 → BitVec 6
/-- AES Key Wrap under the storage key of the `n`-th power-up (R350). -/
opaque keyWrap : Nat → BitVec 256 → BitVec 320
/-- AES Key Unwrap under the storage key of the `n`-th power-up (R350). -/
opaque keyUnwrap : Nat → BitVec 320 → Option (BitVec 256)

/-- Which of the values allowed by R203 the function unit gives for an input: function number, input bits. -/
opaque fnChoice : Nat → BitVec 32 → Nat
/-- Whether a result is tiny by its value after rounding (R202 says tiny and inexact, and not which). -/
opaque tinyAfterRounding : Bool
/-- How a comparison's outcome stands in a vector lane (R205 names compare and select and gives no encoding). -/
opaque cmpMask : Bool → BitVec 32
/-- A shift by the lane's width or more (R205 gives no result): 0 left, 1 logical right, 2 arithmetic right; width, value, amount. -/
opaque shiftPast : Nat → Nat → Nat → Nat → Nat
/-- A NaN converted, without a block scale, to a format that has no NaN (R193, R194): format width, value's sign not kept. -/
opaque nanWithout : Nat → Nat
/-- The bank of a channel's byte address (R249: the module's own mapping). -/
opaque bankOf : Nat → Nat
/-- The row of a channel's byte address (R249). -/
opaque rowOf : Nat → Nat
/-- Spare rows of a bank for post-package repair: channel, bank (R260). -/
opaque spareRows : Nat → Nat → Nat
/-- Flits per round that the copy engine reserves in each direction of a pair of ports for a class G copy (R137, R330: no rate is given). -/
opaque copyFlits : Nat
/-- Content of a state-transfer record: its format, and the firmware's private state (R408 names it and gives no layout). -/
opaque handoverState : Nat → List Nat → List Byte
/-- Bytes of a section of a configuration block: TYPE, and the numbers it holds (R413 names the values and gives no layout). -/
opaque cfgSection : Nat → List Nat → List Byte
end Sys2Proof.Config
end

