-- ==== Sys2Proof/Machine/State.lean ====
section
/-!
DEFINITION. The machine state of the IZH-1152: plain data, every piece of state the spec names, grouped by the unit that
holds it. Tables are sparse (`Tbl`): an unlisted number holds the group's default. `State.reset` is the machine right after
power-on reset (R385 step 2, before the straps are sampled).
-/
namespace Sys2Proof.Machine

open Sys2Proof

/-- Why the machine stops with a fault. No step of this model faults: the spec describes every outcome of a command as a
refusal, a discard or a state (R2). Raised by nobody; safe. -/
inductive Fault where
  /-- Raised by no meaning of this model; safe. -/
  | none
deriving DecidableEq, Repr

/-- Why a command has no meaning. -/
inductive Refusal where
  /-- Raised by an arm of `exec` whose command is not modelled yet; safe. -/
  | notModelled (mnemonic : String)
deriving DecidableEq, Repr

/-! ### What leaves the module -/

/-- What the module puts on its wires (log 4): the newest first in `State.wire`. -/
inductive Emission where
  /-- a frame's header leaves external port `p`, in cut-through or after it was stored whole -/
  | frame (p : Nat) (f : Frame) (cutThrough : Bool)
  /-- the check sent at the end of a frame forwarded cut-through (R110) -/
  | tail (p : Nat) (fcheck : BitVec 32)
  /-- a frame is delivered to an internal port (R154) -/
  | deliver (p : Nat) (f : Frame)
  /-- a control block (R118) -/
  | ctrl (p : Nat) (b : CtrlBlock)
  /-- a link-local frame (R117) -/
  | linkLocal (p : Nat) (f : Frame)
  /-- an alignment block on a lane (R273) -/
  | align (p : Nat) (lane : Nat) (b : AlignBlock)
  /-- the clock pattern on lane 7, or a test pattern, starts (R287, R293) -/
  | pattern (p : Nat) (kind : Nat)
  /-- symbols inverted on a transmit lane, in the codewords of the period at these places (R420 kind 8) -/
  | laneErrors (p : Nat) (lane : Nat) (codewords : List Nat) (symbols : Nat)
  /-- a block sent again in far-end loopback: its header, control or data, and its body (R423) -/
  | block (p : Nat) (control : Bool) (body : BitVec 256)
  /-- lanes of the port go off (R290) -/
  | lanesOff (p : Nat)
  /-- a write to host memory (R305, R330) -/
  | hostWrite (addr : BitVec 64) (data : List Byte)
  /-- an MSI-X message (R332) -/
  | msix (vector : Nat)
  /-- a PCIe read completion with data (R304) -/
  | pcieData (ptag : BitVec 14) (data : List Byte)
  /-- a PCIe completion without data: 1 Unsupported Request, 4 Completer Abort (R304) -/
  | pcieStatus (ptag : BitVec 14) (status : Nat)
  /-- an ATS Translation Request (R52) -/
  | atsRequest (id : Nat) (page : BitVec 52)
  /-- an ATS Invalidation Completion (R53) -/
  | atsInvalidated (itag : BitVec 5)
  /-- a DOE response: protocol number, bytes (R299, R341) -/
  | doe (protocol : Nat) (data : List Byte)
deriving DecidableEq, Repr

/-! ### Ports and links -/

/-- A lane of a port, receive side (R296), with its bring-up marks and transmit taps (R274, R432). `commas` counts the commas found in
consecutive periods, `lastPeriod` is the PERIOD of the last, `setSeen` and `clkSeen` its LANE_SET and CLK_SRC (R273, R280); `symErr` are
the corrected symbols on the lane's positions in the last 1 µs, with their times (R278); `inverted` says that the receiver corrects a P/N inversion of
the pair (R431). -/
structure Lane where
  state     : Nat := 1
  cause     : Nat := 0
  losEvents : Nat := 0
  lolEvents : Nat := 0
  lastBer   : BitVec 32 := 0
  phaseOk   : Bool := false
  commas    : Nat := 0
  peerReady : Bool := false
  rxReady   : Bool := false
  taps      : List Nat := [0, 4, 52, 8, 0]
  stored    : Option (List Nat) := none
  reqCoef   : BitVec 10 := 0
  reqPreset : BitVec 3 := 0
  status    : BitVec 10 := 0
  lastPeriod : Option (BitVec 16) := none
  setSeen   : BitVec 8 := 0
  clkSeen   : Bool := false
  symErr    : List (Nat × Nat) := []
  inverted  : Bool := false
deriving DecidableEq, Repr

/-- An entry of PACER_ANSWER waiting for its repeat (R120). -/
structure PacerEntry where
  tag    : BitVec 32
  accept : Bool
deriving DecidableEq, Repr

/-- A WIDTH_REQUEST as sent or applied (R287). -/
structure WidthReq where
  seq       : Nat
  laneSet   : BitVec 8
  clkSrc    : Bool
  failed    : BitVec 8
  failedClk : Bool
deriving DecidableEq, Repr

/-- A port: link record (R295), role record (R149), credit (R119, R131), counters (R146), and the object's other fields
(R318). `loop` is the bring-up stage of a port in loopback (R423), as LSTATE counts them: 2 to 5, 6 once the looped lanes are deskewed, 7 in
far-end loopback. -/
structure PortSt where
  lstate        : Nat := 0
  txLanes       : BitVec 8 := 0
  rxLanes       : BitVec 8 := 0
  txClkSrc      : Bool := false
  rxClkSrc      : Bool := false
  txPwr         : Nat := 3
  rxPwr         : Nat := 3
  pwrPolicy     : Nat := 0
  hold          : Nat := 0
  rtt           : Nat := 0
  txMapped      : BitVec 9 := 0
  rxMapped      : BitVec 9 := 0
  quietIdle     : Nat := 16
  checkInterval : Nat := 60
  sleepIdle     : Nat := 100
  narrowings    : Nat := 0
  fullTrainings : Nat := 0
  eqSource      : Nat := 2
  corrected     : Nat := 0
  uncorrectable : Nat := 0
  role          : BitVec 8 := 0
  heldGrant     : Bool := false
  markDepth     : Nat := 8192
  spillThresh   : Nat := 32768
  profile       : List Byte := []
  slice         : BitVec 10 := 0
  assignSent    : Bool := false
  recentFrame   : Bool := false
  lastFrameNs   : Nat := 0
  lanes         : Tbl Lane := []
  -- bring-up and exchange
  fecGood       : Nat := 0
  profileOk     : Bool := false
  hello         : List Byte := []
  creditSeen    : Bool := false
  rttSamples    : List Nat := []
  readySent     : Bool := false
  readySeen     : Bool := false
  downReason    : Option Nat := none
  refOff        : Bool := false
  trainedFull   : Bool := false
  trainStart    : Bool := false
  retrain       : Bool := false
  -- credit, per virtual channel 0–8 (R119)
  sent          : List Nat := List.replicate 9 0
  limit         : List Nat := List.replicate 9 0
  rcvd          : List Nat := List.replicate 9 0
  released      : List Nat := List.replicate 9 0
  allot         : List Nat := List.replicate 9 0
  limitSent     : List Nat := List.replicate 9 0
  owed          : List Nat := List.replicate 9 0
  starved       : BitVec 8 := 0
  withheld      : List Nat := List.replicate 9 0
  -- O and B flits released whose advance of LIMIT a throttle level delays, and the time up to which it has advanced (R388)
  slow          : List Nat := List.replicate 9 0
  slowAt        : Nat := 0
  -- resynchronization (R109, R119)
  discarding    : Bool := false
  resyncReq     : Bool := false
  syncDue       : Bool := false
  -- width changes (R287)
  widthSeq      : Nat := 0
  widthOut      : Option WidthReq := none
  widthApplied  : Option WidthReq := none
  fallbackHold  : Bool := false
  lane7Clock    : Bool := false
  relock        : Bool := false
  -- alignment (R273)
  period        : BitVec 16 := 0
  rxPeriod      : BitVec 16 := 0
  peerLstage    : Nat := 0
  -- codewords and blocks of the period being received (R271, R272, R276)
  rxCw          : Nat := 0
  rxBits        : List Bool := []
  rxScr         : BitVec 58 := BitVec.allOnes 58
  wakeSent      : Bool := false
  -- pacer answers (R120)
  repeats       : List PacerEntry := []
  streamHolds   : List (BitVec 14 × BitVec 32) := []
  -- checks and tests (R293, R425)
  checkRunning  : Bool := false
  prbs          : BitVec 31 := BitVec.allOnes 31
  testRuns      : List Nat := []
  testFailed    : BitVec 9 := 0
  testOpen      : BitVec 9 := 0
  loop          : Nat := 0
  dropDrill     : Bool := false
  corruptNext   : Bool := false
  leftAt        : Option Nat := none
  -- counters (R146), classes G, O, B, M in that order
  framesIn      : List Nat := [0, 0, 0, 0]
  flitsIn       : List Nat := [0, 0, 0, 0]
  framesOut     : List Nat := [0, 0, 0, 0]
  flitsOut      : List Nat := [0, 0, 0, 0]
  cutThrough    : Nat := 0
  marked        : Nat := 0
  spillWritten  : Nat := 0
  spillRead     : Nat := 0
  spillPeak     : Nat := 0
  creditWait    : List Nat := List.replicate 9 0
  pacerAccept   : Nat := 0
  pacerRefuse   : Nat := 0
  discards      : List Nat := List.replicate 11 0
  ctypeUnknown  : Nat := 0
deriving DecidableEq, Repr

/-! ### Switch -/

/-- A frame inside the module, as it leaves (`f`) and as it entered routing (`orig`), with the input it came in on, the time
its header arrived at this die, whether its last flit has arrived and passed its check, and, once it is in spill, the pool offset of its
block (R128). `pressed` marks one that a BACKPRESSURE perturbation has held (R419). -/
structure QFrame where
  fid     : Nat
  f       : Frame
  inp     : Nat
  out     : Nat
  arrived : Nat
  whole   : Bool
  inVc    : Nat
  eligibleAt : Nat := 0
  held    : Bool := false
  marked  : Bool := false
  blk     : Option Nat := none
  pressed : Bool := false
  orig    : Frame
deriving DecidableEq, Repr

/-- One of the 25 queues of an output (R123), with its part in spill (R128): the block being filled, and the blocks written; `capped` and
`behind` mark the first and the last case of R129. -/
structure OutQueue where
  sram      : List QFrame := []
  spillOpen : List QFrame := []
  spilled   : List QFrame := []
  spilling  : Bool := false
  capped    : Bool := false
  behind    : Bool := false
deriving DecidableEq, Repr

/-- A frame being forwarded cut-through whose last flit has not arrived (R126); `flip` says that bit 0 of its check leaves inverted (R420 kind 7). -/
structure CutFrame where
  fid : Nat
  inp : Nat
  out : Nat
  f   : Frame
  flip : Bool := false
deriving DecidableEq, Repr

/-- A member of a combining entry (R78): what its completion needs. -/
structure Member where
  f     : Frame
  inp   : Nat
  cm    : Bool
deriving DecidableEq, Repr

/-- States of a combining entry (R78). -/
inductive CombState where
  | watch | opened | sent
deriving DecidableEq, Repr

/-- An entry of a die's combining table (R78, R79). -/
structure CombEntry where
  id      : Nat
  st      : CombState
  node    : BitVec 16
  offset  : BitVec 48
  length  : BitVec 12
  dtype   : BitVec 4
  kind    : Nat
  key     : BitVec 64
  slice   : BitVec 10
  members : List Member := []
  tag     : BitVec 32 := 0
  retried : Bool := false
deriving DecidableEq, Repr

/-- A member-result record of a die (R82). -/
structure MemberRec where
  src  : BitVec 16
  tag  : BitVec 32
  done : Option Frame := none
deriving DecidableEq, Repr

/-- What one Kamro die holds (R121–R128, R77–R82, R154). -/
structure KamroSt where
  up         : Bool := false
  combine    : List CombEntry := []
  nextComb   : Nat := 0
  combSeq    : Nat := 0
  records    : List MemberRec := []
  reserved   : Nat := 0
  staging    : List QFrame := []
  spillBytes : Nat := 0
  spillFull  : Bool := false
  owners     : Tbl Nat := []
deriving DecidableEq, Repr

/-- A G frame of an internal endpoint that the pacer refused and that is presented again in a later round (R84, R97): its input
port and the frame. -/
structure GWait where
  inp : Nat
  f   : Frame
deriving DecidableEq, Repr

/-- The switch (R121–R146): queues by output and queue number, staging, the round and its counts; `roundWaits` are the replies that wait
for a reservation to come into force (R137, R310). -/
structure SwitchSt where
  kamro     : Tbl KamroSt := []
  queues    : Tbl OutQueue := []
  nextFid   : Nat := 0
  rxOpen    : List (Nat × Nat) := []
  cuts      : List CutFrame := []
  rr        : Tbl Nat := []
  gSent     : Tbl Nat := []
  round     : Nat := 0
  admitted  : List ((Nat × Nat × Nat) × Nat) := []
  gWait     : List GWait := []
  roundWaits : List Nat := []
  epDiscard : Tbl Nat := []
deriving DecidableEq, Repr

/-- A reservation record (R137). `cur` are the contents that govern admission until the next round boundary. -/
structure ResvFields where
  flits  : Nat := 0
  input  : Nat := 0
  output : Nat := 0
  slice  : BitVec 10 := 0
  valid  : Bool := false
deriving DecidableEq, Repr

/-- A reservation record (R137). -/
structure Resv where
  fields    : ResvFields := {}
  cur       : ResvFields := {}
  effective : Nat := 0
  owner     : Nat := 0
  ownerInst : Nat := 0
  admitted  : Nat := 0
  refused   : Nat := 0
deriving DecidableEq, Repr

/-- Detour record of a direction (R160). -/
structure Detour where
  side        : Nat
  released    : Bool := false
  state       : Nat := 0
  activations : Nat := 0
  started     : Bool := false
  probeTag    : Option (BitVec 32) := none
deriving DecidableEq, Repr

/-- Node-table entry (R151). -/
structure NodeEntry where
  valid    : Bool := false
  dead     : Bool := false
  rack     : BitVec 11 := 0
  edgePort : BitVec 8 := 0
  discards : Nat := 0
deriving DecidableEq, Repr

/-- Routing (R147, R151, R160). -/
structure RoutingSt where
  nx : Nat := 16
  ny : Nat := 16
  nz : Nat := 8
  x0 : Nat := 0
  xw : Nat := 1
  y0 : Nat := 0
  yw : Nat := 1
  z0 : Nat := 0
  zw : Nat := 1
  detours : List Detour := [⟨2, false, 0, 0, false, none⟩, ⟨2, false, 0, 0, false, none⟩, ⟨4, false, 0, 0, false, none⟩,
    ⟨4, false, 0, 0, false, none⟩, ⟨0, false, 0, 0, false, none⟩, ⟨0, false, 0, 0, false, none⟩]
  nodes : Tbl NodeEntry := []
deriving DecidableEq, Repr

/-! ### Protection -/

/-- Region entry (R33). -/
structure Region where
  key       : BitVec 64 := 0
  valid     : Bool := false
  a         : Bool := false
  w         : Bool := false
  r         : Bool := false
  slice     : BitVec 10 := 0
  enc       : BitVec 2 := 0
  length    : BitVec 13 := 0
  base      : BitVec 19 := 0
  refusals  : Nat := 0
deriving DecidableEq, Repr

/-- Slice object (R319). -/
structure SliceSt where
  state    : Nat := 0
  conf     : Bool := false
  disabled : BitVec 8 := 0
  l1Table  : BitVec 48 := 0
  discards : Nat := 0
  tornDown : Bool := false
  measure  : BitVec 384 := 0
deriving DecidableEq, Repr

/-- Key slot (R350); `rootKey` and the keys derived from it stay in the security engine (R347). -/
structure KeySlot where
  slice     : BitVec 10 := 0
  state     : Nat := 0
  releaseId : BitVec 32 := 0
  wrapped   : BitVec 320 := 0
  rootKey   : BitVec 256 := 0
deriving DecidableEq, Repr

/-- Release record of a confidential slice (R348, R352), with the place of its replay floor table in the pool's table area (R253). -/
structure Release where
  slice       : BitVec 10
  releaseId   : BitVec 32
  nodes       : List (BitVec 16)
  lasts       : List (BitVec 384)
  sendCounter : Nat := 0
  windows     : List (BitVec 16 × Nat × List Nat × Nat) := []
  place       : Nat := 0
deriving DecidableEq, Repr

/-- An open of a key release (R345): its number stands for the ephemeral key pair. -/
structure KeyOpen where
  slice     : BitVec 10
  releaseId : BitVec 32
  number    : Nat
deriving DecidableEq, Repr

/-- A reply that waits: of a region SET for the operations under the old entry, named by home and operation number (R37); of a teardown, or of a
function disabled, for those under the slice's entries and for the slice's copies (R366, R368), with the ACTION of the SLICE record that comes
with it. -/
structure Revoking where
  region : Nat
  reply  : Nat
  ops    : List (Nat × Nat)
  slice  : Option Nat := none
  action : Nat := 0
deriving DecidableEq, Repr

/-- Regions, slices and keys (R32, R40, R333–R350). -/
structure ProtSt where
  regions   : Tbl Region := []
  slices    : Tbl SliceSt := []
  keySlots  : Tbl KeySlot := []
  releases  : List Release := []
  opens     : List KeyOpen := []
  nextOpen  : Nat := 0
  releaseId : BitVec 32 := 0
  powerUps  : Nat := 0
  revoking  : List Revoking := []
  wraps     : List (BitVec 320 × BitVec 256) := []
deriving DecidableEq, Repr

/-! ### Pool homes and memory -/

/-- A byte memory in canonical form (`Memory.wf`): addresses strictly rising, no zero byte listed; an unlisted byte reads as
zero (R266, R217; log 6). -/
abbrev Memory := List Host.Cell

/-- An operation at its receiving home (R251, R252). `issued` line steps have been accepted; `held` lines are held by the
prepare phase; `got` the bytes read, by line. -/
structure HomeOp where
  id     : Nat
  pp     : Nat
  f      : Frame
  issued : Nat := 0
  region : Option Nat := none
  slice  : BitVec 10 := 0
  held   : List Nat := []
  got    : List (Nat × List Byte) := []
  fail   : Option Nat := none
  cipher : List Byte := []
deriving DecidableEq, Repr

/-- A dedupe entry (R72): the completion kept. -/
structure Dedupe where
  src  : BitVec 16
  tag  : BitVec 32
  data : List Byte := []
deriving DecidableEq, Repr

/-- A FLUSH that waits for earlier posted stores (R61), named by home and operation number. -/
structure WaitingFlush where
  f    : Frame
  pp   : Nat
  left : List (Nat × Nat) := []
deriving DecidableEq, Repr

/-- A pool home (R72, R73, R76). -/
structure Home where
  up       : Bool := false
  dedupe   : List Dedupe := []
  ops      : List HomeOp := []
  nextOp   : Nat := 0
  posted   : List HomeOp := []
  flushes  : List WaitingFlush := []
  heldIn   : List HomeOp := []
  withheld : Bool := false
  relayDedupe : List Dedupe := []
deriving DecidableEq, Repr

/-- Entry of the module's stream table (R74). `refused` are the tags refused that have not been re-sent: posted stores after them in their
stream's order wait for them (R97). -/
structure StreamEntry where
  src     : BitVec 16
  stream  : BitVec 14
  count   : Nat
  backoff : Nat
  blocked : Bool
  refused : List (BitVec 32) := []
deriving DecidableEq, Repr

/-- A line step in a line's queue (R73): the receiving home and its operation. -/
structure LineStep where
  home : Nat
  op   : Nat
deriving DecidableEq, Repr

/-- Metadata of a line (R256): OWNER and POISON; MCHK and CHECK follow from the line (`PoolSt.metaWord`). `cipher` is the XTS key under which
the line's data are stored, none for plaintext (R262). -/
structure LineMeta where
  owner  : BitVec 10 := 0
  poison : Bool := false
  cipher : List Byte := []
deriving DecidableEq, Repr

/-- A check-value context (R265) with the job it runs (R264). -/
structure CheckCtx where
  state   : Nat := 0
  status  : Nat := 0
  isMatch : Bool := false
  poly    : Nat := 0
  running : BitVec 64 := 0
  done    : Nat := 0
  mode    : Nat := 0
  cont    : Bool := false
  slice   : BitVec 10 := 0
  offset  : Nat := 0
  length  : Nat := 0
  key     : BitVec 64 := 0
deriving DecidableEq, Repr

/-- A row that waits for repair, the first of a channel being repaired (R260). -/
structure RowRepair where
  chan : Nat
  bank : Nat
  row  : Nat
deriving DecidableEq, Repr

/-- The pool (R246–R267). `mem` holds plaintext bytes in canonical form: addresses rising, no zero byte listed. `areaChange` is the reply
of a pool-area SET that waits for the zeroing (R254). -/
structure PoolSt where
  mem         : Memory := []
  lmeta       : Tbl LineMeta := []
  state       : Nat := 0
  diesLost    : List Nat := []
  tablePages  : Nat := 1
  logPages    : Nat := 16
  residPages  : Nat := 64
  mappedOut   : List Nat := []
  mappedExtra : List Nat := []
  corrected   : Nat := 0
  uncorrectable : Nat := 0
  repairs     : Nat := 0
  usedRows    : Tbl Nat := []
  softRepairs : List RowRepair := []
  repairing   : List RowRepair := []
  rowErrors   : List (Nat × Nat × List Nat) := []
  exhausted   : List (Nat × Nat) := []
  patrolDone  : Nat := 0
  sweeping    : List Nat := []
  lineQ       : Tbl (List LineStep) := []
  lineHeld    : List (Nat × LineStep) := []
  streams     : List StreamEntry := []
  contexts    : Tbl CheckCtx := []
  areaChange  : Option Nat := none
  spillDiscards : Nat := 0
  noticeAt    : List (Nat × BitVec 16 × Nat) := []
  postedEvAt  : List (Nat × BitVec 16 × Nat) := []
  stepsUs     : Nat := 0
  steps       : Tbl Nat := []
deriving DecidableEq, Repr

/-! ### Internal requesters -/

/-- What an internal requester asked for, so that its completion can be used (R62). -/
inductive Purpose where
  /-- a BAR2 access of window `w`; `piece` of `pieces` of the read under `ptag` -/
  | window (w : Nat) (read : Option (BitVec 14 × Nat))
  /-- a fetch of the stream unit: position, stream port, first byte of the request and place in it -/
  | fetch (pos : Nat) (sp : Nat) (seq : Nat)
  /-- exit write number `seq` of a pipeline -/
  | write (pipe : Nat) (seq : Nat)
  /-- a batch record -/
  | batchRecord (pipe : Nat) (ch : Nat)
  /-- a member record of a group's launch -/
  | memberRecord (g : Nat) (launch : Nat)
  /-- a FLUSH that drains the results of a group's launch (R177) -/
  | drain (g : Nat) (launch : Nat)
  /-- a result write of a group's chunk -/
  | result (g : Nat) (chunk : Nat)
  /-- a store of the mirror, up to record `seq` -/
  | mirror (seq : Nat)
  /-- a replayed operation -/
  | replay
  /-- a copy's access: chunk byte offset and direction -/
  | copyRead (at' : Nat)
  | copyWrite (at' : Nat)
  /-- a FLUSH sent for a release or a fence -/
  | flush
deriving DecidableEq, Repr

/-- Where an operation of an internal requester stands. -/
inductive OpPhase where
  /-- held in the endpoint by R67, R68, R69 or R75 -/
  | waiting
  /-- an attempt is outstanding, or waits for the pacer (R97) -/
  | flying
  /-- refused with RETRY_LATER, to be re-sent (R75) -/
  | refused
deriving DecidableEq, Repr

/-- An acknowledged operation of an internal requester that has not ended (R65, R70, R75). `behind`: a posted store has been sent on its
path after it, so that its completion drains nothing (R68). -/
structure OutOp where
  tag     : BitVec 32
  ep      : Nat
  inp     : Nat
  f       : Frame
  why     : Purpose
  phase   : OpPhase := .waiting
  retried : Bool := false
  resends : Nat := 0
  behind  : Bool := false
deriving DecidableEq, Repr

/-- A stream context of an internal endpoint (R64). `postedOn` are the paths (node, page) with posted stores since their last
completion (R68); `blocked` the nodes that answered RETRY_LATER, and whether the back-off has elapsed (R75). `plane` is the
module's own: its streams reach the fabric on no other. -/
structure StreamCtx where
  stream    : Nat
  ep        : Nat
  inp       : Nat
  cls       : TClass
  slice     : BitVec 10
  plane     : Nat := 0
  timeoutUs : Nat := 20
  postedOn  : List (BitVec 16 × Nat) := []
  blocked   : List (BitVec 16 × Bool) := []
deriving DecidableEq, Repr

/-- Entry of an endpoint's congestion limiter (R83): its rate, 2^40 being the link's, and the time of its last decrease. -/
structure Limiter where
  ep     : Nat
  node   : BitVec 16
  rate   : Nat
  lastDec : Option Nat := none
deriving DecidableEq, Repr

/-- A fence of an internal agent (R96): the agent's streams, the operations that came before it, those that every later operation waits
for, and those that its later stores, atomics, CAS and REDUCE_STORE wait for beside them. `drain` counts, by stream, the words that stood in
the agent's staging buffers before the fence and have not left them (R93). -/
structure FenceSt where
  kind        : FenceKind
  scope       : Scp
  streams     : List Nat
  before      : List (BitVec 32) := []
  waitsAll    : List (BitVec 32) := []
  waitsStores : List (BitVec 32) := []
  drain       : Tbl Nat := []
deriving DecidableEq, Repr

/-- The module's internal requesters (R29, R64–R83). `tagEnds` are the tags whose use has ended and when (R65), `quietUntil` the time before
which an endpoint that reset originates nothing (R87), `fences` those that still hold operations back (R96). -/
structure ReqSt where
  streams   : List StreamCtx := []
  ops       : List OutOp := []
  limiters  : List Limiter := []
  seqs      : Tbl Nat := []
  tagEnds   : List (BitVec 32 × Nat) := []
  quietUntil : Tbl Nat := []
  fences    : List FenceSt := []
deriving DecidableEq, Repr

/-! ### Relay -/

/-- Entry of a group's member table (R168). -/
structure MemberEntry where
  node   : BitVec 16
  result : BitVec 48
  key    : BitVec 64
  record : BitVec 48
deriving DecidableEq, Repr

/-- A ring step, or an all-to-all frame, sent and not yet acknowledged (R180). `block` is the FRAME number of an all-to-all frame. -/
structure RingStep where
  id     : Nat
  dst    : BitVec 16
  chunk  : Nat
  axis   : Nat
  gather : Bool
  step   : Nat
  frames : List Frame
  block  : Option Nat := none
  resent : Bool := false
deriving DecidableEq, Repr

/-- What of a ring step has been received (R180): its FRAMES, the FRAME bits, and the bits that came again once it was whole. -/
structure RingRecv where
  axis   : Nat
  gather : Bool
  step   : Nat
  total  : Nat
  bits   : Nat := 0
  again  : Nat := 0
deriving DecidableEq, Repr

/-- A chunk in flight (R172, R175): its accumulators (64-bit, fp32 in the low half; none before the first contribution), the
granules received by member, its bytes in the result format, its place in the ring passes, what came on the rings, and the
all-to-all frames received (source member, destination member, FRAME). -/
structure Chunk where
  acc      : List (Option (BitVec 64)) := []
  granules : List (Nat × Nat) := []
  bytes    : List Byte := []
  phase    : Nat := 0
  step     : Nat := 1
  sent     : Bool := false
  acked    : Bool := false
  conv     : Bool := false
  done     : Bool := false
  recv     : List RingRecv := []
  blocks   : List (Nat × Nat × Nat) := []
deriving DecidableEq, Repr

/-- The current launch of a group (R176): the ring axes whose READY baton has come, the steps that wait for batons, the chunks
complete (`lowest`), those whose results are drained (`drained`, with the FLUSHes of a drain in progress), the RATE last
written, and its turn among the waiting launches. -/
structure Launch where
  root     : Nat := 0
  chunks   : Tbl Chunk := []
  lowest   : Nat := 0
  ready    : List Nat := []
  steps    : List RingStep := []
  nextStep : Nat := 0
  drained  : Nat := 0
  draining : Option (Nat × Nat) := none
  rates    : List Nat := []
  turn     : Nat := 0
deriving DecidableEq, Repr

/-- Group object (R167) with its member table (R168) and launch state. -/
structure Group where
  key         : BitVec 64 := 0
  launchSeq   : BitVec 16 := 0
  state       : Nat := 0
  lastStatus  : Nat := 0
  lastCause   : Nat := 0
  slice       : BitVec 10 := 0
  coll        : Nat := 0
  reduce      : Nat := 0
  transport   : Nat := 0
  dtype       : Nat := 0
  axisOrder   : Nat := 0
  depth       : Nat := 0
  elements    : Nat := 0
  rate        : Nat := 0
  torusRate   : Nat := 0
  timeout     : Nat := 0
  xSet        : BitVec 16 := 0
  ySet        : BitVec 16 := 0
  zSet        : BitVec 8 := 0
  saturations : Nat := 0
  residual    : BitVec 48 := 0
  launches    : Nat := 0
  aborts      : Nat := 0
  discards    : Nat := 0
  members     : List MemberEntry := []
  launch      : Option Launch := none
  queued      : Option (BitVec 16 × Nat) := none
  early       : List (Nat × Nat × Nat) := []
  streams     : List (Nat × BitVec 16 × TClass × Nat) := []
deriving DecidableEq, Repr

/-- A write of a group that waits for a stream context: its engine, the member's node, its class, its frame and its purpose (R64, R177). -/
structure WaitWrite where
  group : Nat
  lane  : Nat
  node  : BitVec 16
  cls   : TClass
  f     : Frame
  why   : Purpose
deriving DecidableEq, Repr

/-- Relay engines (R167–R185): the groups, the accumulator slots taken at each engine (R172), and the writes that wait for a stream context. -/
structure RelaySt where
  groups   : Tbl Group := []
  slots    : Tbl Nat := []
  waitWrites : List WaitWrite := []
  waitTick : Nat := 0
deriving DecidableEq, Repr

/-! ### Tiles -/

/-- A router table entry (R209, R223). -/
structure Route where
  input  : Nat
  output : Nat
  slot   : Nat
  delay  : Nat
  pipe   : Nat
deriving DecidableEq, Repr

/-- A word in a router input's slot buffer (R209): where it goes, the slot in which it leaves, how many more mesh cycles it waits. -/
structure BufWord where
  output : Nat
  slot   : Nat
  left   : Nat
  pipe   : Nat
  data   : BitVec 256
deriving DecidableEq, Repr

/-- What an access overwrote or added: bytes of SRAM and of the vector registers, accumulators, the sticky flags it set, the words it found
corrected, and the word it put into the out-queue of a stream port. -/
structure Undo where
  sram : List (Nat × Byte) := []
  regs : List (Nat × Byte) := []
  acc  : List (Nat × BitVec 32) := []
  flags : BitVec 5 := 0
  fixed : Nat := 0
  sent  : Option (Nat × BitVec 256) := none
deriving DecidableEq, Repr

/-- An SRAM access still inside its cycles (R207): its cycles, its banks, and what it overwrote, so that a collision undoes it. -/
structure BankUse where
  first : Nat
  past  : Nat
  banks : List Nat
  undo  : Undo := {}
deriving DecidableEq, Repr

/-- A tile position (R214) with its stores (R191). SRAM, vector registers and instruction store are byte memories in
canonical form. -/
structure PosSt where
  state     : Nat := 0
  cause     : Nat := 0
  slice     : BitVec 10 := 0
  servedBy  : Nat := 0
  faultIdx  : Nat := 0
  faultSlot : Nat := 0
  faultBank : Nat := 0
  flags     : BitVec 5 := 0
  cycles    : Nat := 0
  heldCycles : Nat := 0
  corrected : Nat := 0
  srSeed    : BitVec 64 := 0
  stageId   : Nat := 0
  sramBase  : Nat := 0
  sramSize  : Nat := 0
  pipe      : Nat := 0
  sram      : Memory := []
  vregs     : Memory := []
  istore    : Memory := []
  acc       : Tbl (BitVec 32) := []
  scalars   : Tbl (BitVec 64) := []
  preds     : List Nat := []
  loops     : List (Nat × Nat × Nat) := []
  index     : Nat := 0
  bankUses  : List BankUse := []
  routes    : List Route := []
  words     : List BufWord := []
  random    : BitVec 64 := 0
deriving DecidableEq, Repr

/-- A write request whose data words the stream unit is taking (R240). -/
structure WriteReq where
  offset  : Nat
  left    : Nat
  window  : Nat
  fin     : Option Nat
  seq     : Nat
deriving DecidableEq, Repr

/-- A number that no stream has, for a queue whose pipeline holds no context: stream numbers are 14 bits (R64). -/
def noStream : Nat := 2 ^ 14

/-- A stream port direction of a pipeline (R224) with its queue, the words moved in this mesh cycle, the fetches outstanding in request order and
the write in progress. Of a WRITE queue, `due` counts the data words that the stage has still to put in behind its last request word, and
`orders` numbers the writes whose request words stand in the queue, as they came (R240). -/
structure StreamQ where
  pos      : Nat
  port     : Nat
  out      : Bool
  mode     : Nat
  channel  : Nat
  swport   : Bool
  budget   : Nat
  rspFlits : Nat
  words    : List (BitVec 256) := []
  used     : Nat := 0
  stream   : Nat := noStream
  fetchSeq : Nat := 0
  fetches  : List (Nat × Option (List Byte)) := []
  write    : Option WriteReq := none
  due      : Nat := 0
  orders   : List Nat := []
deriving DecidableEq, Repr

/-- A window of a pipeline (R225) with its translations (R233). -/
structure PipeWindow where
  base    : Nat
  length  : Nat
  window  : Nat
  rights  : BitVec 3
  reqFlits : Nat
  rspFlits : Nat
  pages   : Tbl (BitVec 16 × BitVec 48 × BitVec 64) := []
deriving DecidableEq, Repr

/-- The batch of an entry channel (R237–R239): its data words by position, how many words the queue has given up to the stage, counting
the header, and the number of the write that ends it. -/
structure Batch where
  channel : Nat
  seq     : BitVec 16
  words   : Nat
  record  : BitVec 48
  key     : BitVec 64
  src     : BitVec 16
  param   : BitVec 64
  running : Bool := true
  stopped : Bool := false
  recorded : Nat := 0
  data    : List (Nat × BitVec 256) := []
  entered : Nat := 0
  read    : Nat := 0
  ending  : Option Nat := none
deriving DecidableEq, Repr

/-- Pipeline object (R232). -/
structure PipeSt where
  state     : Nat := 0
  cause     : Nat := 0
  status    : Nat := 0
  slice     : BitVec 10 := 0
  faultPos  : Nat := 255
  faultCause : Nat := 0
  entryKey  : BitVec 64 := 0
  lastCrc   : BitVec 32 := 0
  stallUs   : Nat := 200
  meshCycles : Nat := 0
  heldCycles : Nat := 0
  batchesDone : Nat := 0
  build     : BitVec 64 := 0
  discards  : Nat := 0
  recordFails : Nat := 0
  positions : List Nat := []
  dropping  : Bool := false
  queues    : List StreamQ := []
  windows   : List PipeWindow := []
  batches   : List Batch := []
  recStreams : List (Nat × Nat) := []
  writeSeq  : Nat := 0
  gateHeld  : Bool := true
  heldBefore : Bool := true
  gateNext  : Bool := true
  powerNext : Bool := false
  starting  : Option Nat := none
  unloading : Option Nat := none
  stopping  : Bool := false
  halted    : Bool := false
deriving DecidableEq, Repr

/-- A last that passed its checks and waits for a mesh cycle boundary (R231). -/
structure LoadedLast where
  slice  : BitVec 10
  bytes  : List Byte
  reply  : Nat
  digest : BitVec 384
deriving DecidableEq, Repr

/-- Tile die object (R215). -/
structure TileDieSt where
  up        : Bool := false
  spare     : Nat := 0
  sparePos  : Nat := 255
  substituted : Nat := 0
deriving DecidableEq, Repr

/-- The tiles (R188–R245). -/
structure TileSt where
  positions : Tbl PosSt := []
  dies      : Tbl TileDieSt := []
  pipes     : Tbl PipeSt := []
  loading   : Option LoadedLast := none
  meshCycle : Nat := 0
deriving DecidableEq, Repr

/-! ### Translation, ATS, copy engine -/

/-- A translation-buffer entry (R46): slice, page number in 512 MiB units, whether 16 GiB, and the leaf. -/
structure XEntry where
  slice  : BitVec 10
  svaPage : Nat
  big    : Bool
  node   : BitVec 16
  frame  : BitVec 19
  key    : BitVec 64
  rights : BitVec 3
deriving DecidableEq, Repr

/-- A table walk in progress (R46): the engine buffer it fills and what waits for it. -/
structure Walk where
  id      : Nat
  engine  : Nat
  slice   : BitVec 10
  svaPage : Nat
deriving DecidableEq, Repr

/-- A cached host translation (R51). -/
structure AtcEntry where
  page  : BitVec 52
  transl : BitVec 52
  read  : Bool
  write : Bool
deriving DecidableEq, Repr

/-- An ATS translation request that is outstanding (R52). -/
structure AtsReq where
  id   : Nat
  page : BitVec 52
deriving DecidableEq, Repr

/-- A copy (R330), queued, running, or waiting for its translations; `bad` is the byte of a field of its command outside its range. -/
structure CopyJob where
  seq     : BitVec 32
  slice   : BitVec 10
  srcHost : Bool
  dstHost : Bool
  cls     : TClass
  src     : BitVec 64
  dst     : BitVec 64
  length  : Nat
  record  : BitVec 64
  vector  : BitVec 16
  srcPages : List XEntry := []
  dstPages : List XEntry := []
  hostPages : List AtcEntry := []
  moved   : Nat := 0
  written : Nat := 0
  status  : Option Nat := none
  stream  : Option Nat := none
  noRecord : Bool := false
  bad     : Option Nat := none
deriving DecidableEq, Repr

/-- Translation and copying (R44–R53, R329, R330). -/
structure XlateSt where
  engine    : List (Nat × XEntry) := []
  shared    : List XEntry := []
  walks     : List Walk := []
  nextWalk  : Nat := 0
  atsEnable : Bool := false
  atc       : List AtcEntry := []
  atsReqs   : List AtsReq := []
  nextAts   : Nat := 0
  pendingInv : List (BitVec 5 × BitVec 52 × Nat × Bool) := []
  translating : List (CopyJob × Nat) := []
  copies    : List CopyJob := []
  running   : Option CopyJob := none
  completed : Nat := 0
deriving DecidableEq, Repr

/-! ### Host port and commands -/

/-- A command ring (R301). -/
structure Ring where
  cmdBase   : BitVec 64 := 0
  rplBase   : BitVec 64 := 0
  enable    : Bool := false
  vector    : BitVec 11 := 0
  sizeLog2  : Nat := 6
  cmdHead   : BitVec 32 := 0
  rplTail   : BitVec 32 := 0
  rplHead   : BitVec 32 := 0
  coalTime  : BitVec 16 := 0
  coalCount : BitVec 8 := 0
  lastSeq   : BitVec 32 := 0
  status    : Nat := 0
  cmdTail   : BitVec 32 := 0
  unsignalled : Nat := 0
  busy      : Bool := false
deriving DecidableEq, Repr

/-- A BAR2 window (R303). -/
structure Window where
  key        : BitVec 64 := 0
  node       : BitVec 16 := 0
  base       : BitVec 48 := 0
  slice      : BitVec 10 := 0
  enable     : Bool := false
  release    : Bool := false
  acquire    : Bool := false
  timeout    : BitVec 32 := 20
  lastStatus : Nat := 0
  errors     : Nat := 0
  stream     : Option Nat := none
deriving DecidableEq, Repr

/-- A BAR2 read in progress: its pieces and the bytes that have come back (R304). -/
structure HostRead where
  ptag   : BitVec 14
  w      : Nat
  left   : Nat
  pieces : List (Nat × List Byte) := []
  failed : Bool := false
deriving DecidableEq, Repr

/-- One entry of the MSI-X table (R300, R332). -/
structure MsixEntry where
  addr    : BitVec 64 := 0
  data    : BitVec 32 := 0
  masked  : Bool := true
  pending : Bool := false
deriving DecidableEq, Repr

/-- A command that has been taken and has no reply yet: the reply waits for its effect, or for a counter floor to reach flash (R37,
R254, R311, R336). `get` marks NOP and GET, which leave no audit record; `mute` a reply that is not written (R313); `writes` whether
the write of the reply succeeds (R301), `ats` how translation requests for it are answered (R52). The entries are the command journal of R407, with
the command itself in `cmd` and the objects it changes in `objects` (R310): TAKEN while `effect` stands, COMMITTED after. -/
structure WaitReply where
  id      : Nat
  via     : Via
  opcode  : Nat
  seq     : BitVec 32
  noIrq   : Bool
  object  : BitVec 32
  status  : Nat := 0
  detail  : BitVec 32 := 0
  result  : List Byte := []
  started : Bool := false
  effect  : Bool := false
  floor   : Bool := false
  get     : Bool := false
  mute    : Bool := false
  writes  : Bool := true
  role    : Nat := 1
  isSigned : Bool := false
  cred    : BitVec 32 := 0xFFFFFFFF#32
  counter : BitVec 64 := 0
  params  : BitVec 384 := 0
  ats     : List AtsAnswer := []
  cmd     : Option Cmd := none
  objects : List (BitVec 32) := []
deriving DecidableEq, Repr

/-- A fabric command accepted from a MGMT_COMMAND frame and not yet replied to (R308). -/
structure FabricCmd where
  src    : BitVec 16
  tag    : BitVec 32
  packet : List Byte
  taken  : Bool := false
deriving DecidableEq, Repr

/-- A credential object (R334) with the floor in flash and the floor the next commit stores (R336). -/
structure Cred where
  role    : Nat := 0
  state   : Nat := 0
  last    : Nat := 0
  pub     : BitVec 768 := 0
  floor   : Nat := 0
  next    : Nat := 0
deriving DecidableEq, Repr

/-- An audit record (R337). -/
structure AuditRec where
  seq     : Nat
  time    : Nat
  kind    : Nat
  role    : Nat
  fabric  : Bool
  signed  : Bool
  status  : Nat
  opcode  : Nat
  source  : Nat
  object  : BitVec 32
  cred    : BitVec 32
  counter : BitVec 64
  a       : BitVec 384
  b       : BitVec 384
  chain   : BitVec 384
deriving DecidableEq, Repr

/-- The SPDM responder (R341): how far the requests of its start have come (1 version, 2 capabilities, 3 algorithms), and the messages
that its signatures cover. -/
structure SpdmSt where
  stage : Nat := 0
  vca   : List Byte := []
  auth  : List Byte := []
  meas  : List Byte := []
deriving DecidableEq, Repr

/-- The host port (R299–R332). `maxPayload` is the programmed Max Payload Size in bytes (R299). `lastSource` is the ring, 64 for the fabric, whose command
started last, `begun` those whose next command has started and waits for an object, with the
objects it will change (R310). -/
structure HostSt where
  rings     : Tbl Ring := []
  windows   : Tbl Window := []
  msix      : Tbl MsixEntry := []
  reads     : List HostRead := []
  waiting   : List WaitReply := []
  nextWait  : Nat := 0
  fabric    : List FabricCmd := []
  fwReady   : Bool := false
  handover  : Bool := false
  recovery  : Bool := false
  nextMgmtTag : Nat := 0
  spdm      : SpdmSt := {}
  linkNarrow : Bool := true
  maxPayload : Nat := 128
  lastSource : Nat := 64
  begun      : List (Nat × List (BitVec 32)) := []
deriving DecidableEq, Repr

/-- Credentials and the audit log in memory (R334–R338). -/
structure SecSt where
  creds      : Tbl Cred := []
  makerLast  : Nat := 0
  makerFloor : Nat := 0
  makerNext  : Nat := 0
  bootstrap  : Bool := true
  nextSeq    : Nat := 0
  head       : BitVec 384 := 0
  lastSeal   : Nat := 0
  unsealed   : Nat := 0
  unsealedAt : Nat := 0
  unwritten  : List AuditRec := []
  signs      : Nat := 0
  debugUnlocked : Bool := false
  returned   : Bool := false
  meas2      : BitVec 384 := 0
  meas3      : BitVec 384 := 0
  meas4      : BitVec 384 := 0
deriving DecidableEq, Repr

/-! ### Faults, log, drills -/

/-- A fault record (R356). -/
structure FaultRec where
  seq     : Nat
  time    : Nat
  cls     : Nat
  code    : Nat
  action  : Nat
  foreign : Bool := false
  ended   : Bool := false
  drill   : Bool := false
  object  : BitVec 32 := 0
  node    : BitVec 16 := 0xFFFF#16
  slice   : BitVec 10 := 0
  count   : Nat := 1
  detail  : List Byte := List.replicate 32 0
deriving DecidableEq, Repr

/-- A record of an input log ring (R373): its number, its place in the ring and its length, in bytes. Its bytes stand in the pool. -/
structure LogRec where
  seq : Nat
  at' : Nat
  len : Nat
deriving DecidableEq, Repr

/-- Fault queue, event routing and input log (R355–R377). `toSend`: records queued while an event was being sent, whose own event is still to be
sent (R358). `mirrorLost`: the mirror lost records and restarts when the buddy answers (R376). -/
structure FaultSt where
  queue      : List FaultRec := []
  nextSeq    : Nat := 0
  overflow   : Bool := false
  overflowed : List Nat := List.replicate 19 0
  eventMask  : BitVec 64 := 0
  vector     : BitVec 16 := 0
  eventNode  : BitVec 16 := 0xFFFF#16
  eventTimes : List Nat := []
  logEnable  : Bool := false
  mirrorOk   : Bool := false
  headSeq    : Nat := 0
  tailSeq    : Nat := 0
  mirroredSeq : Nat := 0
  mirrorHead : Nat := 0
  mirrorTail : Nat := 0
  ring       : List LogRec := []
  ringAt     : Nat := 0
  mirrorRing : List LogRec := []
  replayState : Nat := 0
  replayStream : Option Nat := none
  replayStatus : Nat := 0
  deadNode   : BitVec 16 := 0
  target     : BitVec 16 := 0
  newSlice   : BitVec 10 := 0
  fromSeq    : BitVec 64 := 0
  toSeq      : BitVec 64 := 0
  oldKey     : BitVec 64 := 0
  newKey     : BitVec 64 := 0
  replayed   : Nat := 0
  skipped    : Nat := 0
  massUntil  : Option Nat := none
  massSeq    : Nat := 0
  toSend     : List FaultRec := []
  mirrorLost : Bool := false
  lastNonDrill : Option Nat := none
  drillMarks : List (BitVec 32 × Nat) := []
deriving DecidableEq, Repr

/-- A drill object (R378). -/
structure Drill where
  kind     : Nat := 0
  state    : Nat := 0
  target   : BitVec 32 := 0
  interval : BitVec 32 := 0
  jitter   : BitVec 32 := 0
  injected : Nat := 0
  skipped  : Nat := 0
  last     : Nat := 0
deriving DecidableEq, Repr

/-- A perturbation object (R419). -/
structure Perturb where
  kind      : Nat := 0
  state     : Nat := 0
  cause     : Nat := 0
  target    : BitVec 32 := 0
  classMask : BitVec 4 := 0
  vcMask    : BitVec 8 := 0
  paramA    : BitVec 32 := 0
  paramB    : BitVec 32 := 0
  duration  : BitVec 32 := 0
  applied   : Nat := 0
  started   : Nat := 0
  ended     : Nat := 0
  on        : Bool := false
  cw        : Nat := 0
deriving DecidableEq, Repr

/-- Perturbations and drills (R378–R380, R419–R428). -/
structure TestSt where
  perturbs  : Tbl Perturb := []
  drills    : Tbl Drill := []
  lastDrill : Option Nat := none
deriving DecidableEq, Repr

/-! ### Power, clocks, firmware -/

/-- Power controller, supply and clocks (R382–R400). -/
structure PowerSt where
  auxOn      : Bool := true
  mainOn     : Bool := false
  pllLocked  : Bool := false
  releaseStep : Nat := 0
  level      : Nat := 0
  forcedPin  : Bool := false
  forcedDroop : Bool := false
  forcedPeak : Bool := false
  forcedTj   : Bool := false
  forcedCool : Bool := false
  tempHigh   : Bool := false
  dramHigh   : Bool := false
  refresh2x  : Bool := false
  hbState    : Nat := 0
  rmCap      : BitVec 32 := 0xFFFFFFFF#32
  opCap      : BitVec 32 := 0xFFFFFFFF#32
  fallback   : Nat := 2500
  thermal    : Nat := 4000
  samples    : List Nat := []
  peak       : Nat := 0
  goodSamples : Nat := 0
  inputMv    : Nat := 0
  auxMv      : Nat := 0
  inlet      : Int := 0
  outlet     : Int := 0
  flow       : Nat := 0
  coolBad    : Nat := 0
  tj         : List Int := List.replicate 15 0
  pkgMax     : Int := 0
  throttledNs : Nat := 0
  level4Ns   : Nat := 0
  pinEvents  : Nat := 0
  droopEvents : Nat := 0
  peakEvents : Nat := 0
  thermalEvents : Nat := 0
  shutdown   : Bool := false
  thermalTrip : Bool := false
  refLost    : Bool := false
  refHeld    : Bool := false
deriving DecidableEq, Repr

/-- An image in a bank or in staging (R402): its header's fields and body. -/
structure Image where
  header : List Byte
  body   : List Byte
deriving DecidableEq, Repr

/-- Boot-select record (R411). -/
structure BootSelect where
  seq       : Nat := 0
  bootBank  : Nat := 0
  stagedOk  : Bool := false
  digest    : BitVec 384 := 0
  valid     : Bool := true
deriving DecidableEq, Repr

/-- What the sections of a configuration block hold (R413), as numbers; each table by its object. -/
structure CfgValues where
  ports     : Tbl (List Nat) := []
  rings     : List Nat := []
  taps      : Tbl (Tbl (List Nat)) := []
  lanesOut  : Tbl (Nat × Nat) := []
  pagesOut  : List Nat := []
  areas     : List Nat := []
  creds     : Tbl Cred := []
  maker     : Nat := 0
  drills    : Tbl (List Nat) := []
  fallback  : Nat := 2500
deriving DecidableEq, Repr

/-- A configuration block as written into a slot (R413): what its header and sections hold, and its bytes as they stand in the slot, over
which R415 judges it. -/
structure CfgBlock where
  copy   : Nat
  slot   : Nat
  seq    : Nat
  role   : Nat
  time   : Nat
  values : CfgValues
  bytes  : List Byte
deriving DecidableEq, Repr

/-- What the flash holds (R401), and what else the control die keeps without power: `bootOver` says that the first installer credential has entered
service since the last field return (R335), `seqMark` is the next SEQ of the audit log (R337). -/
structure FlashSt where
  select    : List BootSelect := [{}]
  banks     : Tbl Image := []
  config    : List CfgBlock := []
  audit     : List AuditRec := []
  overwritten : Nat := 0
  erases    : Tbl Nat := []
  handovers : Nat := 0
  fallbacks : Nat := 0
  bootOver  : Bool := false
  seqMark   : Nat := 0
deriving DecidableEq, Repr

/-- State-transfer record (R408): its format, its CRC-32C and its content, whose length is its length. -/
structure StrRecord where
  format : Nat
  crc    : BitVec 32
  body   : List Byte
deriving DecidableEq, Repr

/-- Firmware (R402–R412) and configuration commits (R414). `served` are the rings served since the trial began (R409), `selectAt`
the time of the last write of a boot-select record (R411). -/
structure FwSt where
  fwState    : Nat := 0
  stageState : Nat := 0
  lastFallback : Nat := 0
  staging    : Option Image := none
  stagedBytes : Nat := 0
  written    : List (Nat × Nat) := []
  erasing    : Bool := false
  running    : Nat := 0
  fromStaging : Bool := false
  version    : BitVec 32 := 0
  trialStart : Nat := 0
  lastHandover : Nat := 0
  handoverTo : Nat := 0
  handoverCause : Nat := 0
  handoverStart : Nat := 0
  commit     : Option CfgBlock := none
  commitTries : Nat := 0
  commitNext : Option Nat := none
  commitWaits : List Nat := []
  commitNextWaits : List Nat := []
  mappedDirty : Bool := false
  lastMapCommit : Option Nat := none
  record     : Option StrRecord := none
  served     : List Nat := []
  selectAt   : Option Nat := none
deriving DecidableEq, Repr

/-- Identity (R317) and straps (R26, R440). -/
structure IdentSt where
  sampled  : Bool := false
  straps   : StrapPins := ⟨0, 0, 0, 0, false, false⟩
  bootBank : Nat := 0
deriving DecidableEq, Repr

/-- Everything the module holds but its fuses (R403). `wire` is what has left the module, newest first (log 4); `free` counts
the free values drawn (log 8); `now` is LOCAL_COUNTER in ns (R384). -/
structure Dev where
  wire    : List Emission := []
  now     : Nat := 0
  free    : Nat := 0
  ident   : IdentSt := {}
  power   : PowerSt := {}
  ports   : Tbl PortSt := []
  sw      : SwitchSt := {}
  resvs   : Tbl Resv := []
  rt      : RoutingSt := {}
  prot    : ProtSt := {}
  homes   : Tbl Home := []
  pool    : PoolSt := {}
  req     : ReqSt := {}
  relay   : RelaySt := {}
  tiles   : TileSt := {}
  xlate   : XlateSt := {}
  host    : HostSt := {}
  sec     : SecSt := {}
  faults  : FaultSt := {}
  test    : TestSt := {}
  fw      : FwSt := {}
  flash   : FlashSt := {}
deriving DecidableEq, Repr

/-- The fuses of the control die: SVN_FLOOR (R403), and whether a field return was performed since manufacture (R340
measurement 5). -/
structure Fuses where
  svnFloor      : Nat := 0
  fieldReturned : Bool := false
deriving DecidableEq, Repr

/-- The state of the block. `pending` is the queue of waiting commands, first in first out. -/
structure State where
  pending : List Instr := []
  fuses   : Fuses := {}
  dev     : Dev := {}
deriving DecidableEq, Repr

/-- The machine right after power-on reset (R385, R400, R381, R428, R87, R141, R217): every field at its start-up value,
the straps not yet sampled, 54 V not yet applied, the flash empty (log 5). -/
def State.reset : State := {}

end Sys2Proof.Machine
end

