-- ==== Sys2Proof/Machine/Ops.lean ====
section
/-!
DEFINITION. The operations everything else is written over: sparse tables, byte strings (R4), checks (R109, R110, R118),
the byte memories, and the accessors of the device.
-/
namespace Sys2Proof.Machine

open Sys2Proof

/-! ### Sparse tables -/

/-- Entry `k` of a table, `z` where none is listed. -/
def tget {α : Type} (t : Tbl α) (k : Nat) (z : α) : α :=
  match t with
  | [] => z
  | (i, v) :: r => if i = k then v else tget r k z

/-- Entry `k` of a table, if listed. -/
def tfind {α : Type} (t : Tbl α) (k : Nat) : Option α :=
  match t with
  | [] => none
  | (i, v) :: r => if i = k then some v else tfind r k

/-- Entry `k` of a table set to `v`; the numbers stay rising. -/
def tset {α : Type} (t : Tbl α) (k : Nat) (v : α) : Tbl α :=
  match t with
  | [] => [(k, v)]
  | (i, w) :: r => if k < i then (k, v) :: (i, w) :: r else if i = k then (k, v) :: r else (i, w) :: tset r k v

/-- Entry `k` of a table changed by `f`, from `z` where none is listed. -/
def tmod {α : Type} (t : Tbl α) (k : Nat) (z : α) (f : α → α) : Tbl α := tset t k (f (tget t k z))

/-- Entry `k` of a table removed. -/
def tdel {α : Type} (t : Tbl α) (k : Nat) : Tbl α := t.filter fun e => e.1 ≠ k

/-- The entries for which `p` holds, by number. -/
def tkeys {α : Type} (t : Tbl α) (p : Nat → α → Bool) : List Nat := (t.filter fun e => p e.1 e.2).map (·.1)

/-- Every entry changed by `f`. -/
def tmap {α : Type} (t : Tbl α) (f : Nat → α → α) : Tbl α := t.map fun e => (e.1, f e.1 e.2)

/-! ### Lists -/

/-- Element `i` changed by `f`. -/
def lmod {α : Type} (l : List α) (i : Nat) (f : α → α) : List α :=
  match l, i with
  | [], _ => []
  | a :: r, 0 => f a :: r
  | a :: r, i + 1 => a :: lmod r i f

/-- Count `k` added to element `i`, saturating at `w` bits (R146). -/
def bump (w : Nat) (l : List Nat) (i k : Nat) : List Nat := lmod l i fun n => satAdd w n k

/-- The first element for which `p` holds removed. -/
def removeFirst {α : Type} (p : α → Bool) (l : List α) : List α :=
  match l with
  | [] => []
  | a :: r => if p a then r else a :: removeFirst p r

/-- The numbers `0 … n − 1`. -/
def upTo (n : Nat) : List Nat := List.range n

/-- A fold over a list with the device first, for loops that change it. -/
def eachOf {α δ : Type} (l : List α) (d : δ) (f : δ → α → δ) : δ := l.foldl f d

/-- Set bits of the low `n` bits of `v`. -/
def bitsOf (n v : Nat) : List Nat := (upTo n).filter fun i => v.testBit i

/-- Number of set bits of the low `n` bits. -/
def popCount (n v : Nat) : Nat := (bitsOf n v).length

/-- Bit `i` as a number. -/
def b2n (b : Bool) : Nat := if b then 1 else 0

/-- Bits `[lo + n − 1 : lo]` of `v`. -/
def field (v lo n : Nat) : Nat := (v >>> lo) % 2 ^ n

/-- Ceiling of a quotient. -/
def ceilDiv (a b : Nat) : Nat := (a + b - 1) / b

/-! ### Bytes (R4) -/

/-- `n` bytes of `v`, least significant first. -/
def le (n v : Nat) : List Byte := (upTo n).map fun i => BitVec.ofNat 8 (v >>> (8 * i))

/-- The number a little-endian byte string spells. -/
def unle (bs : List Byte) : Nat :=
  match bs with
  | [] => 0
  | b :: r => b.toNat + 256 * unle r

/-- `n` zero bytes. -/
def zeros (n : Nat) : List Byte := List.replicate n 0

/-- `n` bytes from byte `off` on. -/
def cut (bs : List Byte) (off n : Nat) : List Byte := (bs.drop off).take n

/-- The number in `n` bytes from byte `off` on. -/
def num (bs : List Byte) (off n : Nat) : Nat := unle (cut bs off n)

/-- A byte string cut or zero-filled to `n` bytes. -/
def padTo (n : Nat) (bs : List Byte) : List Byte := (bs ++ zeros (n - bs.length)).take n

/-- `new` written over `old` from byte `off` on. -/
def overwrite (old : List Byte) (off : Nat) (new : List Byte) : List Byte :=
  old.take off ++ new ++ old.drop (off + new.length)

/-- Whether every byte is zero. -/
def allZero (bs : List Byte) : Bool := bs.all (· == 0)

/-- Pieces of `n` bytes. -/
def chunksOf (n : Nat) (bs : List Byte) : List (List Byte) :=
  (upTo (ceilDiv bs.length n)).map fun i => cut bs (n * i) n

/-! ### Checks -/

/-- One bit of a reflected CRC register. -/
def crcBit (poly c : Nat) : Nat := if c % 2 = 1 then (c / 2) ^^^ poly else c / 2

/-- One byte, least significant bit first. -/
def crcByte (poly c : Nat) (b : Byte) : Nat :=
  let x := c ^^^ b.toNat
  crcBit poly (crcBit poly (crcBit poly (crcBit poly (crcBit poly (crcBit poly (crcBit poly (crcBit poly x)))))))

/-- Reflected CRC with the reflected polynomial `poly` and initial value `init`, no final XOR. -/
def crcRefl (poly init : Nat) (bs : List Byte) : Nat := bs.foldl (crcByte poly) init

/-- The CRC-12 of HCHK (R109): 0x80F reflected is 0xF01. -/
def crc12 (bs : List Byte) : Nat := crcRefl 0xF01 0xFFF bs

/-- CRC-32C of a frame or image (R110). -/
def crc32c (bs : List Byte) : Nat := crcRefl 0x82F63B78 0xFFFFFFFF bs ^^^ 0xFFFFFFFF

/-- One bit of CRC-16/CCITT-FALSE. -/
def crc16Bit (c : Nat) : Nat := if c.testBit 15 then ((c * 2) ^^^ 0x1021) % 65536 else (c * 2) % 65536

/-- CRC-16/CCITT-FALSE (R118): most significant bit first, initial value 0xFFFF. -/
def crc16 (bs : List Byte) : Nat :=
  bs.foldl (fun c b =>
    crc16Bit (crc16Bit (crc16Bit (crc16Bit (crc16Bit (crc16Bit (crc16Bit (crc16Bit (c ^^^ (b.toNat * 256)))))))))) 0xFFFF

/-! ### Byte memories (log 6) -/

/-- Addresses strictly rising and no zero byte listed. -/
def Memory.wf (m : Memory) : Bool :=
  match m with
  | [] => true
  | (_, b) :: [] => b != 0
  | (a, b) :: (c, e) :: r => b != 0 && decide (a < c) && Memory.wf ((c, e) :: r)

/-- One byte; an unlisted byte reads as 0. -/
def memRead (m : Memory) (a : Nat) : Byte :=
  match m with
  | [] => 0
  | (k, b) :: r => if k = a then b else memRead r a

/-- One byte written; writing 0 removes the entry. -/
def memWrite (m : Memory) (a : Nat) (v : Byte) : Memory :=
  match m with
  | [] => if v = 0 then [] else [(a, v)]
  | (k, b) :: r =>
    if a < k then (if v = 0 then (k, b) :: r else (a, v) :: (k, b) :: r)
    else if a = k then (if v = 0 then r else (a, v) :: r)
    else (k, b) :: memWrite r a v

/-- `n` bytes from `a` on. -/
def memReads (m : Memory) (a n : Nat) : List Byte := (upTo n).map fun i => memRead m (a + i)

/-- Bytes written from `a` on. -/
def memWrites (m : Memory) (a : Nat) (bs : List Byte) : Memory :=
  match bs with
  | [] => m
  | b :: r => memWrites (memWrite m a b) (a + 1) r

/-- Bytes written from `a` on where the mask bit of the byte is 1 (R59). -/
def memWritesMasked (m : Memory) (a : Nat) (mask : Nat) (bs : List Byte) : Memory :=
  match bs with
  | [] => m
  | b :: r => memWritesMasked (if mask % 2 = 1 then memWrite m a b else m) (a + 1) (mask / 2) r

/-- `n` bytes from `a` on zeroed. -/
def memZero (m : Memory) (a n : Nat) : Memory := m.filter fun c => c.1 < a || a + n ≤ c.1

/-! ### The device's accessors -/

/-- Something leaves the module (log 4). -/
def Dev.emit (d : Dev) (e : Emission) : Dev := { d with wire := e :: d.wire }

/-- A free value (log 8). -/
def Dev.draw (d : Dev) : BitVec 64 × Dev := (Config.freeValue d.free, { d with free := d.free + 1 })

/-- Port `p` (R318). -/
def Dev.port (d : Dev) (p : Nat) : PortSt := tget d.ports p {}

/-- Port `p` changed by `f`. -/
def Dev.modPort (d : Dev) (p : Nat) (f : PortSt → PortSt) : Dev := { d with ports := tmod d.ports p {} f }

/-- Kamro die `k`. -/
def Dev.kamro (d : Dev) (k : Nat) : KamroSt := tget d.sw.kamro k {}

/-- Kamro die `k` changed by `f`. -/
def Dev.modKamro (d : Dev) (k : Nat) (f : KamroSt → KamroSt) : Dev :=
  { d with sw := { d.sw with kamro := tmod d.sw.kamro k {} f } }

/-- Queue `q` of output `p` (R123). -/
def Dev.queue (d : Dev) (p q : Nat) : OutQueue := tget d.sw.queues (25 * p + q) {}

/-- Queue `q` of output `p` changed by `f`. -/
def Dev.modQueue (d : Dev) (p q : Nat) (f : OutQueue → OutQueue) : Dev :=
  { d with sw := { d.sw with queues := tmod d.sw.queues (25 * p + q) {} f } }

/-- Pool home `h`. -/
def Dev.home (d : Dev) (h : Nat) : Home := tget d.homes h {}

/-- Pool home `h` changed by `f`. -/
def Dev.modHome (d : Dev) (h : Nat) (f : Home → Home) : Dev := { d with homes := tmod d.homes h {} f }

/-- Pool changed by `f`. -/
def Dev.modPool (d : Dev) (f : PoolSt → PoolSt) : Dev := { d with pool := f d.pool }

/-- Region `r` (R33). -/
def Dev.region (d : Dev) (r : Nat) : Region := tget d.prot.regions r {}

/-- Region `r` changed by `f`. -/
def Dev.modRegion (d : Dev) (r : Nat) (f : Region → Region) : Dev :=
  { d with prot := { d.prot with regions := tmod d.prot.regions r {} f } }

/-- Slice `i` (R319). -/
def Dev.slice (d : Dev) (i : Nat) : SliceSt := tget d.prot.slices i {}

/-- Slice `i` changed by `f`. -/
def Dev.modSlice (d : Dev) (i : Nat) (f : SliceSt → SliceSt) : Dev :=
  { d with prot := { d.prot with slices := tmod d.prot.slices i {} f } }

/-- Reservation record `r` (R137). -/
def Dev.resv (d : Dev) (r : Nat) : Resv := tget d.resvs r {}

/-- Reservation record `r` changed by `f`. -/
def Dev.modResv (d : Dev) (r : Nat) (f : Resv → Resv) : Dev := { d with resvs := tmod d.resvs r {} f }

/-- Group `g` (R167). -/
def Dev.group (d : Dev) (g : Nat) : Group := tget d.relay.groups g {}

/-- Group `g` changed by `f`. -/
def Dev.modGroup (d : Dev) (g : Nat) (f : Group → Group) : Dev :=
  { d with relay := { d.relay with groups := tmod d.relay.groups g {} f } }

/-- Position `i` (R214). -/
def Dev.pos (d : Dev) (i : Nat) : PosSt := tget d.tiles.positions i {}

/-- Position `i` changed by `f`. -/
def Dev.modPos (d : Dev) (i : Nat) (f : PosSt → PosSt) : Dev :=
  { d with tiles := { d.tiles with positions := tmod d.tiles.positions i {} f } }

/-- Pipeline `i` (R232). -/
def Dev.pipe (d : Dev) (i : Nat) : PipeSt := tget d.tiles.pipes i {}

/-- Pipeline `i` changed by `f`. -/
def Dev.modPipe (d : Dev) (i : Nat) (f : PipeSt → PipeSt) : Dev :=
  { d with tiles := { d.tiles with pipes := tmod d.tiles.pipes i {} f } }

/-- Tile die `t` (R215). -/
def Dev.tileDie (d : Dev) (t : Nat) : TileDieSt := tget d.tiles.dies t {}

/-- Command ring `r` (R301). -/
def Dev.ring (d : Dev) (r : Nat) : Ring := tget d.host.rings r {}

/-- Command ring `r` changed by `f`. -/
def Dev.modRing (d : Dev) (r : Nat) (f : Ring → Ring) : Dev :=
  { d with host := { d.host with rings := tmod d.host.rings r {} f } }

/-- BAR2 window `w` (R303). -/
def Dev.window (d : Dev) (w : Nat) : Window := tget d.host.windows w {}

/-- BAR2 window `w` changed by `f`. -/
def Dev.modWindow (d : Dev) (w : Nat) (f : Window → Window) : Dev :=
  { d with host := { d.host with windows := tmod d.host.windows w {} f } }

/-- Credential slot `c` (R334). -/
def Dev.cred (d : Dev) (c : Nat) : Cred := tget d.sec.creds c {}

/-- Lane `l` of port `p` (R296). -/
def PortSt.lane (p : PortSt) (l : Nat) : Lane := tget p.lanes l {}

/-- Lane `l` changed by `f`. -/
def PortSt.modLane (p : PortSt) (l : Nat) (f : Lane → Lane) : PortSt := { p with lanes := tmod p.lanes l {} f }

/-! ### What the module is -/

/-- The Kamro die of a switch port (R15); 200 and 201 stand for the combining units of die 0 and die 1. -/
def dieOf (p : Nat) : Nat :=
  if p ≤ 71 then 0 else if p ≤ 143 then 1 else if p ≤ 151 then 0 else if p ≤ 159 then 1 else if p ≤ 167 then 0
  else if p ≤ 175 then 1 else if p = 201 || p = 203 then 1 else 0

/-- Object name of R316: CLASS in bits 31–24, INSTANCE below. -/
def obj (cls inst : Nat) : BitVec 32 := BitVec.ofNat 32 (cls * 2 ^ 24 + inst)

/-- Own node number: R26, and 0xFFFF under R27 and R28. -/
def Dev.node (d : Dev) : Nat :=
  let p := d.ident.straps
  let ones := popCount 4 p.x.toNat + popCount 4 p.y.toNat + popCount 3 p.z.toNat + popCount 3 p.plane.toNat + b2n p.parity
  if d.ident.sampled && ones % 2 = 1 then
    0xC000 + p.plane.toNat * 2 ^ 11 + p.z.toNat * 2 ^ 8 + p.y.toNat * 2 ^ 4 + p.x.toNat
  else 0xFFFF

/-- Whether the straps were sampled with the right parity (R27). -/
def Dev.strapsOk (d : Dev) : Bool :=
  let p := d.ident.straps
  d.ident.sampled &&
    (popCount 4 p.x.toNat + popCount 4 p.y.toNat + popCount 3 p.z.toNat + popCount 3 p.plane.toNat + b2n p.parity) % 2 = 1

/-- Own rack in INTER layout (R147). -/
def Dev.rack (d : Dev) : Nat :=
  d.ident.straps.x.toNat * 128 + d.ident.straps.y.toNat * 8 + d.ident.straps.z.toNat

/-- An effect on the device alone: the queue and the fuses stay. -/
def State.onDev (s : State) (f : Dev → Dev) : State := { s with dev := f s.dev }

/-- An effect on the device that reads the fuses. -/
def State.onDevF (s : State) (f : Fuses → Dev → Dev) : State := { s with dev := f s.fuses s.dev }

/-! ### Address map (R249, R246) -/

/-- idx of R249. -/
def idxOf (off : Nat) : Nat := ((off >>> 9) % 2 ^ 31) >>> 7

/-- Channel of an offset (R249). -/
def chanOf (off : Nat) : Nat :=
  let g := off >>> 9
  let t := g >>> 31
  let l := g % 2 ^ 31
  let idx := l >>> 7
  let fold := field idx 0 7 ^^^ field idx 7 7 ^^^ field idx 14 7 ^^^ field idx 21 3
  let third := (t + idx % 3) % 3
  128 * third + (field l 0 7 ^^^ fold)

/-- Byte address inside the channel (R249). -/
def addrOf (off : Nat) : Nat := idxOf off * 512 + off % 512

/-- Pool die of a line: the owning home (R246, R251). -/
def homeOfLine (line : Nat) : Nat := chanOf (64 * line) / 96

/-- Bank of a line inside its channel (R249). -/
def bankOfLine (line : Nat) : Nat := Config.bankOf (addrOf (64 * line))
/-- Row of a line inside its bank. -/
def rowOfLine (line : Nat) : Nat := Config.rowOf (addrOf (64 * line))

/-- Page of a line. -/
def pageOfLine (line : Nat) : Nat := line >>> 23

/-- The granule of a channel that R249 puts at `idx` in the third `t` of the pool's granules, as the offset of its first byte: the inverse of `chanOf`
in the low bits. -/
def granuleAt (chan t idx : Nat) : Nat :=
  let fold := field idx 0 7 ^^^ field idx 7 7 ^^^ field idx 14 7 ^^^ field idx 21 3
  (t * 2 ^ 31 + idx * 128 + (chan % 128 ^^^ fold)) * 512

/-- Whether a page holds a granule of a row (R249, R261): a page has 8,192 values of idx. -/
def pageHoldsRow (chan bank row page : Nat) : Bool :=
  (upTo 8192).any fun k =>
    let off := granuleAt chan (page / 2048) (page % 2048 * 8192 + k)
    chanOf off = chan && bankOfLine (off / 64) = bank && rowOfLine (off / 64) = row

/-- The pages that hold a granule of the row of a line (R261): that of the line, and those at its place in the other thirds of the pool, since the
granules of neighbouring addresses of a channel lie in all three (R249). -/
def pagesOfRow (line : Nat) : List Nat :=
  let page := pageOfLine line
  page :: ((upTo 3).map fun t => 2048 * t + page % 2048).filter fun p =>
    p ≠ page && pageHoldsRow (chanOf (64 * line)) (bankOfLine line) (rowOfLine line) p

/-! ### Areas (R253) -/

/-- A page: 512 MiB. -/
def pageSize : Nat := 2 ^ 29
/-- U of R253, in pages. -/
def PoolSt.userPages (p : PoolSt) : Nat := 6016 - p.tablePages - p.logPages - p.residPages
/-- First byte of the residual area. -/
def PoolSt.residBase (p : PoolSt) : Nat := p.userPages * pageSize
/-- First byte past the residual area, where the log area starts. -/
def PoolSt.logBase (p : PoolSt) : Nat := (p.userPages + p.residPages) * pageSize
/-- Bytes of half the log area. -/
def PoolSt.logHalf (p : PoolSt) : Nat := p.logPages * 2 ^ 28
/-- First byte of the table area. -/
def PoolSt.tableBase (p : PoolSt) : Nat := (p.userPages + p.residPages + p.logPages) * pageSize
/-- First byte past the table area, where the spill region starts. -/
def spillBase : Nat := 6016 * pageSize

/-- Whether a page is mapped out (R261). -/
def PoolSt.isMappedOut (p : PoolSt) (page : Nat) : Bool := p.mappedOut.contains page || p.mappedExtra.contains page

/-- Whether a range of the pool touches a mapped-out page. -/
def PoolSt.touchesOut (p : PoolSt) (off n : Nat) : Bool := p.isMappedOut (off / pageSize) || p.isMappedOut ((off + max 1 n - 1) / pageSize)

/-! ### Slices -/

/-- Whether slice `i` is confidential and exists (R40). -/
def Dev.isConf (d : Dev) (i : Nat) : Bool := (d.slice i).conf && (d.slice i).state ≠ 0

/-- Whether frames of slice `i` are discarded: from its teardown until a SLICE_CREATE succeeds (R43). -/
def Dev.tornDown (d : Dev) (i : Nat) : Bool := (d.slice i).tornDown

/-- Whether function bit `fn` of slice `i` is disabled (R368). -/
def Dev.disabled (d : Dev) (i fn : Nat) : Bool := (d.slice i).disabled.getLsbD fn

end Sys2Proof.Machine
end

