-- ==== Sys2Proof/Machine/Flags.lean ====
section
/-!
DEFINITION. Floating-point and integer arithmetic of the homes (R58), the relay engines (R174, R181) and the tiles
(R193–R203), with the five exception flags of R202. A finite value is held exactly as ± m × 2^e; each operation computes
exactly and rounds once.
-/
namespace Sys2Proof.Machine

open Sys2Proof

/-! ### Exact values -/

/-- A floating value: NaN, infinity, or exactly ± m × 2^e. -/
inductive FVal where
  | nan (signalling : Bool)
  | inf (neg : Bool)
  | fin (neg : Bool) (m : Nat) (e : Int)
deriving DecidableEq, Repr

/-- Exception flags in the order of FLAGS (R214): [4] invalid, [3] divide-by-zero, [2] overflow, [1] underflow, [0] inexact. -/
abbrev Exc := BitVec 5
def excInvalid : Exc := 16
def excDivZero : Exc := 8
def excOverflow : Exc := 4
def excUnderflow : Exc := 2
def excInexact : Exc := 1

/-- A floating format: exponent bits, fraction bits, bias, and what its largest encodings hold (R193). -/
structure FFmt where
  eBits : Nat
  mBits : Nat
  bias  : Nat
  ieee  : Bool            -- infinity and NaN in the top exponent
  nanAll : Bool := false  -- E4M3: only S.1111.111 is NaN
deriving DecidableEq, Repr

def fmtFp32 : FFmt := ⟨8, 23, 127, true, false⟩
def fmtBf16 : FFmt := ⟨8, 7, 127, true, false⟩
def fmtFp16 : FFmt := ⟨5, 10, 15, true, false⟩
def fmtE4m3 : FFmt := ⟨4, 3, 7, false, true⟩
def fmtE5m2 : FFmt := ⟨5, 2, 15, true, false⟩
def fmtE3m2 : FFmt := ⟨3, 2, 3, false, false⟩
def fmtE2m3 : FFmt := ⟨2, 3, 1, false, false⟩
def fmtE2m1 : FFmt := ⟨2, 1, 1, false, false⟩

/-- The floating format of an operand format, if it is one. -/
def ffmtOf (f : Fmt) : Option FFmt :=
  match f with
  | .fp32 => some fmtFp32 | .bf16 => some fmtBf16 | .fp16 => some fmtFp16 | .e4m3 => some fmtE4m3 | .e5m2 => some fmtE5m2
  | .e3m2 => some fmtE3m2 | .e2m3 => some fmtE2m3 | .e2m1 => some fmtE2m1
  | .int8 => none | .uint8 => none | .int32 => none | .uint32 => none

/-- Bits of an element of a format (R193). -/
def fmtBits (f : Fmt) : Nat :=
  match f with
  | .fp32 => 32 | .int32 => 32 | .uint32 => 32 | .bf16 => 16 | .fp16 => 16 | .e4m3 => 8 | .e5m2 => 8 | .int8 => 8 | .uint8 => 8
  | .e3m2 => 6 | .e2m3 => 6 | .e2m1 => 4

/-- Width of a format in bits. -/
def FFmt.bits (f : FFmt) : Nat := 1 + f.eBits + f.mBits

/-- The value an encoding holds (R193, R194: subnormals at their value). -/
def fdecode (f : FFmt) (bits : Nat) : FVal :=
  let neg := bits.testBit (f.eBits + f.mBits)
  let ex := field bits f.mBits f.eBits
  let fr := field bits 0 f.mBits
  let top := 2 ^ f.eBits - 1
  if f.ieee && ex = top then
    if fr = 0 then .inf neg else .nan (!(bits.testBit (f.mBits - 1)))
  else if f.nanAll && ex = top && fr = 2 ^ f.mBits - 1 then .nan false
  else if ex = 0 then .fin neg fr (1 - (f.bias : Int) - f.mBits)
  else .fin neg (2 ^ f.mBits + fr) ((ex : Int) - f.bias - f.mBits)

/-- NaN of a format (R194). -/
def nanBits (f : FFmt) : Nat :=
  if f.ieee then (2 ^ f.eBits - 1) * 2 ^ f.mBits + 2 ^ (f.mBits - 1) else 2 ^ (f.eBits + f.mBits) - 1

/-- The largest finite magnitude (R193). -/
def maxFinite (f : FFmt) : Nat :=
  if f.ieee then (2 ^ f.eBits - 1) * 2 ^ f.mBits - 1
  else if f.nanAll then 2 ^ (f.eBits + f.mBits) - 2
  else 2 ^ (f.eBits + f.mBits) - 1

/-- Sign bit of a format. -/
def signBit (f : FFmt) (neg : Bool) : Nat := if neg then 2 ^ (f.eBits + f.mBits) else 0

/-- Bit length. -/
def bitLen (m : Nat) : Nat := if m = 0 then 0 else Nat.log2 m + 1

/-- The magnitude m × 2^e brought to the spacing of a format (R198, R199): the significand at spacing 2^q, q itself, and whether
bits were lost. `r` is the random integer of R199 step 3. -/
def roundMag (f : FFmt) (mode : RMode) (r : Nat) (m : Nat) (e : Int) : Nat × Int × Bool :=
  let minQ : Int := 1 - (f.bias : Int) - f.mBits
  let q := max ((bitLen m : Int) - 1 + e - f.mBits) minQ
  if q ≤ e then (m <<< (e - q).toNat, q, false)
  else
    let sh := (q - e).toNat
    let t := m >>> sh
    let rem := m % 2 ^ sh
    let up := match mode with
      | .rne => decide (2 ^ sh < 2 * rem) || (2 * rem = 2 ^ sh && t % 2 = 1)
      | .rtz => false
      | .sr => decide (65536 ≤ 65536 * rem / 2 ^ sh + r)
    (t + b2n up, q, rem ≠ 0)

/-- A magnitude encoded at spacing 2^q, without its sign; none when it exceeds the largest finite value. -/
def encodeMag (f : FFmt) (t : Nat) (q : Int) : Option Nat :=
  let minQ : Int := 1 - (f.bias : Int) - f.mBits
  let code :=
    if t < 2 ^ f.mBits then t                                             -- subnormal, q is the least spacing
    else if t < 2 ^ (f.mBits + 1) then ((q - minQ).toNat + 1) * 2 ^ f.mBits + (t - 2 ^ f.mBits)
    else ((q - minQ).toNat + 2) * 2 ^ f.mBits + (t / 2 - 2 ^ f.mBits)
  if code ≤ maxFinite f then some code else none

/-- A value rounded to a format (R194, R198, R199): its encoding and the exceptions. -/
def froundTo (f : FFmt) (mode : RMode) (r : Nat) (nanOnOverflow : Bool) (v : FVal) : Nat × Exc :=
  match v with
  | .nan s => (nanBits f, if s then excInvalid else 0)
  | .inf neg =>
    if f.ieee then (signBit f neg + (2 ^ f.eBits - 1) * 2 ^ f.mBits, 0)
    else if nanOnOverflow && f.nanAll then (nanBits f, excOverflow ||| excInexact)
    else (signBit f neg + maxFinite f, excOverflow ||| excInexact)
  | .fin neg m e =>
    if m = 0 then (signBit f neg, 0)
    else
      let (t, q, lost) := roundMag f mode r m e
      match encodeMag f t q with
      | some c =>
        let minNormal := 2 ^ f.mBits
        let tinyBefore := decide ((bitLen m : Int) - 1 + e < 1 - (f.bias : Int))
        let tiny := if Config.tinyAfterRounding then decide (c < minNormal) else tinyBefore
        (signBit f neg + c, (if lost then excInexact else 0) ||| (if lost && tiny then excUnderflow else 0))
      | none =>
        let x := excOverflow ||| excInexact
        if f.ieee then (signBit f neg + (2 ^ f.eBits - 1) * 2 ^ f.mBits, x)
        else if nanOnOverflow && f.nanAll then (nanBits f, x)
        else (signBit f neg + maxFinite f, x)

/-! ### Exact operations -/

/-- Product, with the exceptions of its special cases. -/
def fmulX (a b : FVal) : FVal × Exc :=
  match a, b with
  | .nan s, .nan t => (.nan false, if s || t then excInvalid else 0)
  | .nan s, _ => (.nan false, if s then excInvalid else 0)
  | _, .nan s => (.nan false, if s then excInvalid else 0)
  | .inf x, .inf y => (.inf (x != y), 0)
  | .inf x, .fin y m _ => if m = 0 then (.nan false, excInvalid) else (.inf (x != y), 0)
  | .fin x m _, .inf y => if m = 0 then (.nan false, excInvalid) else (.inf (x != y), 0)
  | .fin x m e, .fin y n g => (.fin (x != y) (m * n) (e + g), 0)

/-- Sum, exact; an exact zero sum of unlike signs is +0 (round to nearest or toward zero). -/
def faddX (a b : FVal) : FVal × Exc :=
  match a, b with
  | .nan s, .nan t => (.nan false, if s || t then excInvalid else 0)
  | .nan s, _ => (.nan false, if s then excInvalid else 0)
  | _, .nan s => (.nan false, if s then excInvalid else 0)
  | .inf x, .inf y => if x = y then (.inf x, 0) else (.nan false, excInvalid)
  | .inf x, .fin _ _ _ => (.inf x, 0)
  | .fin _ _ _, .inf y => (.inf y, 0)
  | .fin x m e, .fin y n g =>
    let lo := min e g
    let m' := m <<< (e - lo).toNat
    let n' := n <<< (g - lo).toNat
    if x = y then (.fin x (m' + n') lo, 0)
    else if n' < m' then (.fin x (m' - n') lo, 0)
    else if m' < n' then (.fin y (n' - m') lo, 0)
    else (.fin false 0 lo, 0)

/-- Order of two values that are not NaN, −0 below +0 when `zeros` (R58). -/
def fltX (zeros : Bool) (a b : FVal) : Bool :=
  match a, b with
  | .nan _, _ => false
  | _, .nan _ => false
  | .inf x, .inf y => x && !y
  | .inf x, .fin _ _ _ => x
  | .fin _ _ _, .inf y => !y
  | .fin x m e, .fin y n g =>
    let lo := min e g
    let m' : Int := (if x then -1 else 1) * ((m <<< (e - lo).toNat : Nat) : Int)
    let n' : Int := (if y then -1 else 1) * ((n <<< (g - lo).toNat : Nat) : Int)
    if m' = 0 && n' = 0 then zeros && x && !y else decide (m' < n')

/-- Whether a value is NaN. -/
def FVal.isNan (v : FVal) : Bool := match v with | .nan _ => true | _ => false

/-- Whether a value is a signalling NaN. -/
def FVal.isSNan (v : FVal) : Bool := match v with | .nan s => s | _ => false

/-- minimumNumber and maximumNumber of IEEE 754-2019, −0 below +0 (R58, R194). -/
def fminmaxX (isMax : Bool) (a b : FVal) : FVal × Exc :=
  let x : Exc := if a.isSNan || b.isSNan then excInvalid else 0
  if a.isNan then (if b.isNan then .nan false else b, x)
  else if b.isNan then (a, x)
  else if isMax then (if fltX true a b then b else a, x)
  else (if fltX true b a then b else a, x)

/-- A value's negation. -/
def FVal.neg (v : FVal) : FVal :=
  match v with | .nan s => .nan s | .inf x => .inf (!x) | .fin x m e => .fin (!x) m e

/-- A value times 2^k (a block scale, R193). -/
def FVal.scale (v : FVal) (k : Int) : FVal := match v with | .fin x m e => .fin x m (e + k) | v => v

/-! ### binary32 and its half-width companions (R58) -/

/-- Round to a format to nearest even, exceptions dropped. -/
def fround (f : FFmt) (v : FVal) : Nat := (froundTo f .rne 0 false v).1

/-- fp32 ADD (R58). -/
def addFp32 (a b : Nat) : Nat := fround fmtFp32 (faddX (fdecode fmtFp32 a) (fdecode fmtFp32 b)).1

/-- fp32 MIN or MAX (R58). -/
def minmaxFp32 (isMax : Bool) (a b : Nat) : Nat :=
  fround fmtFp32 (fminmaxX isMax (fdecode fmtFp32 a) (fdecode fmtFp32 b)).1

/-- An addition in a 16-bit format: widened to fp32, added, rounded back (R58). -/
def addHalf (f : FFmt) (a b : Nat) : Nat :=
  fround f (fdecode fmtFp32 (fround fmtFp32 (faddX (fdecode f a) (fdecode f b)).1))

/-- An encoding of one format converted to another, to nearest even. -/
def fconv (src dst : FFmt) (a : Nat) : Nat := fround dst (fdecode src a)

/-! ### Atomics (R58) -/

/-- Operand size of a DTYPE (R56); 0 for a reserved one. -/
def dtSize (dt : Nat) : Nat :=
  match dt with | 0 => 4 | 1 => 4 | 2 => 8 | 3 => 8 | 4 => 4 | 5 => 4 | 6 => 2 | 7 => 2 | _ => 0

/-- A number of `n` bytes as signed. -/
def toSigned (n v : Nat) : Int := if v < 2 ^ (8 * n - 1) then v else (v : Int) - 2 ^ (8 * n)

/-- The kind of an atomic: 0 ADD, 1 MIN, 2 MAX (R55). -/
def atomicKind (op : Nat) : Nat := op % 4

/-- Whether an atomic fetches (R55). -/
def atomicFetches (op : Nat) : Bool := op ≥ 0x14

/-- ADD, MIN or MAX of two operands of a DTYPE (R58). -/
def atomicOp (kind dt a b : Nat) : Nat :=
  let n := dtSize dt
  if dt = 4 then (if kind = 0 then addFp32 a b else minmaxFp32 (kind = 2) a b)
  else if dt = 5 then addHalf fmtBf16 (a % 65536) (b % 65536) + 65536 * addHalf fmtBf16 (a / 65536) (b / 65536)
  else if kind = 0 then (a + b) % 2 ^ (8 * n)
  else
    let less := if dt = 1 || dt = 3 then decide (toSigned n a < toSigned n b) else decide (a < b)
    if kind = 1 then (if less then a else b) else (if less then b else a)

/-- Whether DTYPE is valid for an operation (R56). -/
def dtypeOk (op dt : Nat) : Bool :=
  if op = 0x20 then dt = 4 || dt = 6 || dt = 7
  else if op = 0x18 then dt = 0
  else if atomicKind op = 0 then dt ≤ 5 else dt ≤ 4

/-- One element of a REDUCE_STORE added to memory's (R58). -/
def reduceElem (dt a b : Nat) : Nat :=
  if dt = 4 then addFp32 a b else if dt = 6 then addHalf fmtBf16 a b else addHalf fmtFp16 a b

/-! ### Microscaling blocks (R181) -/

/-- floor(log2 m × 2^e) of a non-zero magnitude. -/
def floorLog2 (m : Nat) (e : Int) : Int := (bitLen m : Int) - 1 + e

/-- emax of R181: exponent of the largest element. -/
def emaxOf (f : FFmt) : Int := if f.ieee then 2 ^ f.eBits - 2 - (f.bias : Int) else 2 ^ f.eBits - 1 - (f.bias : Int)

/-- The larger magnitude of the finite values of a block, as (m, e); (0, 0) when none is non-zero. -/
def maxMag (vs : List FVal) : Nat × Int :=
  vs.foldl (fun acc v => match v with
    | .fin _ m e => if fltX false (.fin false acc.1 acc.2) (.fin false m e) then (m, e) else acc
    | _ => acc) (0, 0)

/-- The exponent e that R181 chooses for a block without NaN. -/
def blockExp (f : FFmt) (vs : List FVal) : Int :=
  let m := maxMag vs
  if m.1 = 0 then -127 else max (-127) (min 127 (floorLog2 m.1 m.2 - emaxOf f))

/-- A block quantized (R181, R194): scale byte and element encodings, under a rounding mode with one random integer each. Where NaN on overflow is
selected, an element that overflows makes the block a NaN block (DEDUCED, log 188). -/
def quantBlock (f : FFmt) (mode : RMode) (rs : List Nat) (vs : List FVal) (nanOnOverflow : Bool := false) : Nat × List Nat × Exc :=
  if vs.any FVal.isNan then (0xFF, vs.map fun _ => 0, if vs.any FVal.isSNan then excInvalid else 0)
  else
    let e := blockExp f vs
    let qs := (vs.zip (rs ++ List.replicate vs.length 0)).map fun x => froundTo f mode x.2 false (x.1.scale (-e))
    let x := qs.foldl (fun a x => a ||| x.2) 0
    if nanOnOverflow && f.nanAll && x &&& excOverflow ≠ 0 then (0xFF, vs.map fun _ => 0, x) else ((e + 127).toNat, qs.map (·.1), x)

/-- The value of a block element (R193): NaN where the scale is 0xFF. -/
def blockElem (f : FFmt) (scale q : Nat) : FVal :=
  if scale = 0xFF then .nan false else (fdecode f q).scale ((scale : Int) - 127)

/-! ### Integers (R201) -/

/-- Limits of an integer format. -/
def intLimits (f : Fmt) : Int × Int :=
  match f with
  | .int8 => (-128, 127) | .uint8 => (0, 255) | .int32 => (-2147483648, 2147483647) | .uint32 => (0, 4294967295)
  | _ => (0, 0)

/-- The value of an integer encoding. -/
def intDecode (f : Fmt) (v : Nat) : Int :=
  match f with | .int8 => toSigned 1 v | .int32 => toSigned 4 v | _ => v

/-- An integer as an encoding of `n` bits. -/
def intEncode (n : Nat) (v : Int) : Nat := (v % 2 ^ n).toNat

/-- An integer saturated to a format (R201). -/
def intSat (f : Fmt) (v : Int) : Nat :=
  let (lo, hi) := intLimits f
  intEncode (fmtBits f) (max lo (min hi v))

/-- A floating value to an integer format: RNE or RTZ, saturating, NaN to 0 (R201). -/
def floatToInt (f : Fmt) (mode : RMode) (v : FVal) : Nat × Exc :=
  let (lo, hi) := intLimits f
  match v with
  | .nan _ => (0, excInvalid)
  | .inf neg => (intEncode (fmtBits f) (if neg then lo else hi), excInvalid)
  | .fin neg m e =>
    let (t, lost) :=
      if 0 ≤ e then (m <<< e.toNat, false)
      else
        let sh := (-e).toNat
        let t := m >>> sh
        let rem := m % 2 ^ sh
        let up := match mode with
          | .rtz => false
          | _ => decide (2 ^ sh < 2 * rem) || (2 * rem = 2 ^ sh && t % 2 = 1)
        (t + b2n up, rem ≠ 0)
    let v : Int := if neg then -(t : Int) else t
    (intEncode (fmtBits f) (max lo (min hi v)),
     if v < lo || hi < v then excInvalid else if lost then excInexact else 0)

/-! ### The function unit (R203) -/

/-- Working precision in bits of the fixed-point series. -/
def fxBits : Nat := 192

/-- ln 2 in fixed point: 2 atanh(1/3) = 2 Σ 1 / ((2k+1) 3^(2k+1)). -/
def fxLn2 : Int :=
  (upTo 64).foldl (fun acc k => acc + 2 * (2 ^ fxBits : Int) / ((2 * k + 1) * 3 ^ (2 * k + 1) : Nat)) 0

/-- exp of a fixed-point r by its series. -/
def fxExp (r : Int) : Int :=
  ((upTo 60).foldl (fun (acc : Int × Int) k => let t := acc.2 * r / (2 ^ fxBits : Int) / ((k + 1 : Nat) : Int); (acc.1 + t, t))
    ((2 ^ fxBits : Int), (2 ^ fxBits : Int))).1

/-- Natural logarithm of m / 2^s in [3/4, 3/2), in fixed point: 2 atanh((x − 1) / (x + 1)). -/
def fxLog (m s : Nat) : Int :=
  let y : Int := ((m : Int) - 2 ^ s) * 2 ^ fxBits / ((m : Int) + 2 ^ s)
  let y2 := y * y / 2 ^ fxBits
  2 * ((upTo 60).foldl (fun (acc : Int × Int) k => (acc.1 + acc.2 / ((2 * k + 1 : Nat) : Int), acc.2 * y2 / 2 ^ fxBits)) (0, y)).1

/-- The fp32 magnitude pattern at or below m × 2^e, and whether it is exact; past the largest finite value, infinity's. -/
def floorPattern (m : Nat) (e : Int) : Nat × Bool :=
  if m = 0 then (0, true)
  else
    let (t, q, lost) := roundMag fmtFp32 .rtz 0 m e
    match encodeMag fmtFp32 t q with
    | some c => (c, !lost)
    | none => (0x7F800000, false)

/-- The value at a signed pattern ordinal. -/
def fromOrdinal (neg : Bool) (o : Int) : Nat :=
  if o < 0 then (if neg then 0 else 0x80000000) + (-o).toNat
  else (if neg then 0x80000000 else 0) + min o.toNat 0x7F800000

/-- One of the values within `k` ulp of a true value whose magnitude floor is given: R203 fixes the bound and not the value
(log 8). -/
def withinUlp (fn : Nat) (inp : Nat) (k : Nat) (neg : Bool) (floor : Nat) (exact : Bool) : Nat :=
  let c := Config.fnChoice fn (BitVec.ofNat 32 inp)
  if exact then fromOrdinal neg ((floor : Int) - k + (c % (2 * k + 1) : Nat))
  else fromOrdinal neg ((floor : Int) + 1 - k + (c % (2 * k) : Nat))

/-- exp, log, reciprocal and rsqrt of an fp32 encoding (R203), with the exceptions. -/
def fnUnit (fn : FnOp) (a : Nat) : Nat × Exc :=
  let qnan := 0x7FC00000
  match fn, fdecode fmtFp32 a with
  | _, .nan s => (qnan, if s then excInvalid else 0)
  | .exp, .inf neg => if neg then (0, 0) else (0x7F800000, 0)
  | .exp, .fin neg m e =>
    if m = 0 then (withinUlp 0 a 2 false 0x3F800000 true, 0)
    else if 7 < floorLog2 m e then (if neg then (0, excUnderflow ||| excInexact) else (0x7F800000, excOverflow ||| excInexact))
    else
      let sh := e + fxBits
      let mag : Int := if 0 ≤ sh then ((m <<< sh.toNat : Nat) : Int) else ((m >>> (-sh).toNat : Nat) : Int)
      let x := if neg then -mag else mag
      let k := x / fxLn2
      let r := x - k * fxLn2
      let (p, _) := floorPattern (fxExp r).toNat (k - fxBits)
      if p = 0x7F800000 then (p, excOverflow ||| excInexact)
      else (withinUlp 0 a 2 false p false, excInexact ||| (if p < 0x800000 then excUnderflow else 0))
  | .log, .inf neg => if neg then (qnan, excInvalid) else (0x7F800000, 0)
  | .log, .fin neg m e =>
    if m = 0 then (0xFF800000, excDivZero)
    else if neg then (qnan, excInvalid)
    else
      let s := bitLen m
      let (s, ex) := if 3 * 2 ^ s ≤ 4 * m then (s, (s : Int) + e) else (s - 1, (s : Int) - 1 + e)
      let v := fxLog m s + ex * fxLn2
      if m = 2 ^ s && ex = 0 then (withinUlp 1 a 2 false 0 true, 0)
      else
        let (p, _) := floorPattern v.natAbs (-(fxBits : Int))
        (withinUlp 1 a 2 (decide (v < 0)) p false, excInexact)
  | .recip, .inf neg => (if neg then 0x80000000 else 0, 0)
  | .recip, .fin neg m e =>
    if m = 0 then (if neg then 0xFF800000 else 0x7F800000, excDivZero)
    else
      let k := 2 * fxBits
      let q := 2 ^ k / m
      let (p, ex) := floorPattern q (-(k : Int) - e)
      let exact := ex && 2 ^ k % m = 0
      if p = 0x7F800000 then (signBit fmtFp32 neg + p, excOverflow ||| excInexact)
      else (withinUlp 2 a 1 neg p exact, if exact then 0 else excInexact ||| (if p < 0x800000 then excUnderflow else 0))
  | .rsqrt, .inf neg => if neg then (qnan, excInvalid) else (0, 0)
  | .rsqrt, .fin neg m e =>
    if m = 0 then (if neg then 0xFF800000 else 0x7F800000, excDivZero)
    else if neg then (qnan, excInvalid)
    else
      let (m, e) := if e % 2 = 0 then (m, e) else (2 * m, e - 1)
      let k := fxBits
      let t := natRoot (2 ^ (2 * k) / m)
      let (p, ex) := floorPattern t (-(k : Int) - e / 2)
      let exact := ex && t * t * m = 2 ^ (2 * k)
      (withinUlp 3 a 2 false p exact, if exact then 0 else excInexact)
where
  /-- Integer square root, by halving steps from the top bit. -/
  natRoot (n : Nat) : Nat :=
    ((upTo 256).foldl (fun r i => let t := r + 2 ^ (255 - i); if t * t ≤ n then t else r) 0)

end Sys2Proof.Machine
end

