-- ==== Sys2Proof/Machine/ReedSolomon.lean ====
section
/-!
DEFINITION. The RS(136,128) code over GF(2^10) of the lines (R275, R277): encoding, and correction of up to 4 symbols of a codeword.
-/
namespace Sys2Proof.Machine

/-! ### The field: x^10 + x^3 + 1, α a root (R275) -/

/-- Product with α. -/
def gfDouble (a : Nat) : Nat := if a.testBit 9 then ((a * 2) ^^^ 0x409) % 1024 else a * 2

/-- Product of two field elements. -/
def gfMul (a b : Nat) : Nat :=
  ((List.range 10).foldl (fun (acc : Nat × Nat) i => (if b.testBit i then acc.1 ^^^ acc.2 else acc.1, gfDouble acc.2)) (0, a)).1

/-- Power by repeated squaring, exponent below 1,024. -/
def gfPow (a n : Nat) : Nat :=
  ((List.range 10).foldl (fun (acc : Nat × Nat) i => (if n.testBit i then gfMul acc.1 acc.2 else acc.1, gfMul acc.2 acc.2)) (1, a)).1

/-- Inverse of a non-zero element. -/
def gfInv (a : Nat) : Nat := gfPow a 1022

/-- Powers of α. -/
def gfExp (n : Nat) : Nat := gfPow 2 (n % 1023)

/-! ### Polynomials, low degree first -/

/-- Value at `x`. -/
def polyEval (p : List Nat) (x : Nat) : Nat := p.foldr (fun c acc => gfMul acc x ^^^ c) 0

/-- Sum. -/
def polyAdd (p q : List Nat) : List Nat :=
  (List.range (max p.length q.length)).map fun i => p.getD i 0 ^^^ q.getD i 0

/-- Product with a constant and a power of x. -/
def polyScale (p : List Nat) (c shift : Nat) : List Nat := List.replicate shift 0 ++ p.map (gfMul c)

/-- Product modulo x^n. -/
def polyMulMod (p q : List Nat) (n : Nat) : List Nat :=
  (List.range n).map fun k => (List.range (k + 1)).foldl (fun acc i => acc ^^^ gfMul (p.getD i 0) (q.getD (k - i) 0)) 0

/-- Formal derivative in characteristic 2. -/
def polyDeriv (p : List Nat) : List Nat := (List.range (p.length - 1)).map fun i => if i % 2 = 0 then p.getD (i + 1) 0 else 0

/-! ### Encoding (R275) -/

/-- g(x) = (x − α^0)(x − α^1)…(x − α^7), low degree first. -/
def rsGen : List Nat :=
  (List.range 8).foldl (fun g i => polyAdd (polyScale g (gfExp i) 0) (polyScale g 1 1)) [1]

/-- One symbol of the message into the remainder register, which holds the coefficients of x^7 down to x^0. -/
def rsShift (reg : List Nat) (m : Nat) : List Nat :=
  let top := reg.getD 0 0 ^^^ m
  (List.range 8).map fun i => reg.getD (i + 1) 0 ^^^ gfMul top (rsGen.getD (7 - i) 0)

/-- The codeword of a message (R275): its symbols, then the remainder of m(x)·x^8 divided by g(x). -/
def rsEncode (msg : List Nat) : List Nat := msg ++ msg.foldl rsShift (List.replicate 8 0)

/-! ### Decoding -/

/-- The eight syndromes of a word, symbol 0 the coefficient of highest degree. -/
def syndromes (cw : List Nat) : List Nat :=
  (List.range 8).map fun i => let a := gfExp i; cw.foldl (fun acc s => gfMul acc a ^^^ s) 0

/-- State of the Berlekamp–Massey iteration: Λ, the last Λ before a length change, its length, the shift and the discrepancy then. -/
structure BmState where
  c : List Nat
  b : List Nat
  len : Nat
  shift : Nat
  disc : Nat

/-- One step of Berlekamp–Massey. -/
def bmStep (s : List Nat) (st : BmState) (n : Nat) : BmState :=
  let d := (List.range st.len).foldl (fun acc i => acc ^^^ gfMul (st.c.getD (i + 1) 0) (s.getD (n - 1 - i) 0)) (s.getD n 0)
  if d = 0 then { st with shift := st.shift + 1 }
  else
    let c := polyAdd st.c (polyScale st.b (gfMul d (gfInv st.disc)) st.shift)
    if 2 * st.len ≤ n then { c := c, b := st.c, len := n + 1 - st.len, shift := 1, disc := d }
    else { st with c := c, shift := st.shift + 1 }

/-- The error locator and its length. -/
def locator (s : List Nat) : BmState :=
  (List.range 8).foldl (bmStep s) { c := [1], b := [1], len := 0, shift := 1, disc := 1 }

/-- What decoding a codeword gives (R277): the number of symbols corrected, and the word; none when it is uncorrectable. -/
def rsDecode (cw : List Nat) : Option (Nat × List Nat) :=
  let s := syndromes cw
  if s.all (· = 0) then some (0, cw)
  else
    let l := locator s
    let pos := (List.range cw.length).filter fun j => polyEval l.c (gfExp (1023 + j + 1 - cw.length)) = 0
    if 4 < l.len || pos.length ≠ l.len then none
    else
      let om := polyMulMod s l.c 8
      let dl := polyDeriv l.c
      let fixed := pos.foldl (fun w j =>
        let xi := gfExp (1023 + j + 1 - cw.length)
        let e := gfMul (gfExp (cw.length - 1 - j)) (gfMul (polyEval om xi) (gfInv (polyEval dl xi)))
        w.set j (w.getD j 0 ^^^ e)) cw
      if (syndromes fixed).all (· = 0) then some (l.len, fixed) else none

end Sys2Proof.Machine
end

