-- ==== Sys2Proof/Machine/LineCode.lean ====
section
/-!
DEFINITION. The code of the line: PAM4 symbols (R268), 260-bit blocks (R271), the scrambler (R272), codewords of a period (R275), lanes
(R276), and the test patterns (R293).
-/
namespace Sys2Proof.Machine

/-! ### PAM4 symbols (R268) -/

/-- Level of a symbol from its high and low bit. -/
def grayLevel (hi lo : Bool) : BitVec 2 :=
  match hi, lo with
  | false, false => 0
  | false, true => 1
  | true, true => 2
  | true, false => 3

/-- The low and the high bit of a level: stream bits 2k and 2k + 1. -/
def grayBits (v : BitVec 2) : Bool × Bool := (v = 1#2 || v = 2#2, v = 2#2 || v = 3#2)

/-- A number from its bits, the first the least significant. -/
def ofBits (bs : List Bool) : Nat := bs.foldr (fun b n => 2 * n + (if b then 1 else 0)) 0

/-- The `n` bits of a number, the least significant first. -/
def toBits (n v : Nat) : List Bool := (List.range n).map v.testBit

/-- The five PAM4 levels of a codeword symbol (R276). -/
def symLevels (s : BitVec 10) : List (BitVec 2) := (List.range 5).map fun k => grayLevel (s.getLsbD (2 * k + 1)) (s.getLsbD (2 * k))

/-- The codeword symbol of five levels. -/
def levelsSym (l : List (BitVec 2)) : BitVec 10 := BitVec.ofNat 10 (ofBits (l.flatMap fun v => [(grayBits v).1, (grayBits v).2]))

/-! ### Lanes (R276) -/

/-- Codewords of a period (R273). -/
def periodCodewords : Nat := 3328

/-- Place, in ascending order of LANE_SET, of the lane that carries symbol `j` of the `k`-th codeword of a period at `n` lanes. -/
def laneOf (n k j : Nat) : Nat := (136 * k + j) % n

/-- The `k`-th codeword of a period dealt across `n` lanes, as levels by lane. -/
def dealCodeword (n k : Nat) (cw : List (BitVec 10)) : List (List (BitVec 2)) :=
  (List.range n).map fun m => ((List.range 136).filter fun j => laneOf n k j = m).flatMap fun j => symLevels (cw.getD j 0)

/-- The codeword that `n` lanes carry in their levels; a symbol that is missing reads as 0. -/
def gatherCodeword (n k : Nat) (levels : List (List (BitVec 2))) : List (BitVec 10) :=
  (List.range 136).map fun j => levelsSym (((levels.getD (laneOf n k j) []).drop (5 * (j / n))).take 5)

/-- The filler symbols that end a period (R276): one 0x000 on each lane that carries one symbol fewer. -/
def fillerLevels (n : Nat) : List (List (BitVec 2)) :=
  (List.range n).map fun m => if 136 * periodCodewords % n ≠ 0 && 136 * periodCodewords % n ≤ m then symLevels 0 else []

/-! ### The scrambler (R272) -/

/-- All 58 earlier values 1; bit `i` is s(n − 1 − i). -/
def scrStart : BitVec 58 := BitVec.allOnes 58

/-- The next value s(n) = s(n − 39) xor s(n − 58). -/
def scrBit (s : BitVec 58) : Bool := s.getLsbD 38 ^^ s.getLsbD 57

/-- The scrambler one step on. -/
def scrStep (s : BitVec 58) : BitVec 58 := (s <<< 1) ||| (if scrBit s then 1 else 0)

/-- Bits scrambled, or descrambled, and the scrambler after them. -/
def scramble (s : BitVec 58) (bs : List Bool) : List Bool × BitVec 58 :=
  match bs with
  | [] => ([], s)
  | b :: r =>
    let (out, s') := scramble (scrStep s) r
    ((b ^^ scrBit s) :: out, s')

/-! ### Blocks (R271) -/

/-- Header of a block: 0b0101 data, 0b1010 control. -/
def blockHeader (control : Bool) : Nat := if control then 0b1010 else 0b0101

/-- The 260 bits of a block, bit 0 first, and the scrambler after it. -/
def blockBits (s : BitVec 58) (control : Bool) (body : BitVec 256) : List Bool × BitVec 58 :=
  let (b, s') := scramble s (toBits 256 body.toNat)
  (toBits 4 (blockHeader control) ++ b, s')

/-- A block as received: whether it is a control block and its body, none where its header is neither value; and the scrambler. -/
def openBlock (s : BitVec 58) (bs : List Bool) : Option (Bool × BitVec 256) × BitVec 58 :=
  let (b, s') := scramble s (bs.drop 4)
  let h := ofBits (bs.take 4)
  (if h = 0b0101 then some (false, BitVec.ofNat 256 (ofBits b)) else if h = 0b1010 then some (true, BitVec.ofNat 256 (ofBits b)) else none, s')

/-- Blocks as a transmitter scrambles them, one after the other. -/
def blocksBits (s : BitVec 58) (blocks : List (Bool × BitVec 256)) : List Bool :=
  match blocks with
  | [] => []
  | b :: r =>
    let (bits, s') := blockBits s b.1 b.2
    bits ++ blocksBits s' r

/-- The whole blocks at the front of a stream of bits, the bits left over, and the scrambler; `fuel` bounds the blocks taken. -/
def takeBlocks (fuel : Nat) (s : BitVec 58) (bs : List Bool) : List (Option (Bool × BitVec 256)) × List Bool × BitVec 58 :=
  match fuel with
  | 0 => ([], bs, s)
  | n + 1 =>
    if bs.length < 260 then ([], bs, s)
    else
      let (b, s') := openBlock s (bs.take 260)
      let (l, rest, s'') := takeBlocks n s' (bs.drop 260)
      (b :: l, rest, s'')

/-! ### Codewords (R275) -/

/-- A stream of bits cut into 10-bit symbols, the first bit of each the least significant. -/
def cutSymbols (n : Nat) (bs : List Bool) : List (BitVec 10) :=
  (List.range n).map fun i => BitVec.ofNat 10 (ofBits ((bs.drop (10 * i)).take 10))

/-- The codewords of a period's blocks: 128 symbols of message and 8 of parity each. -/
def periodCode (blocks : List (Bool × BitVec 256)) : List (List Nat) :=
  let bits := blocksBits scrStart blocks
  (List.range (bits.length / 1280)).map fun k => rsEncode ((cutSymbols 128 (bits.drop (1280 * k))).map (·.toNat))

/-! ### Test patterns (R293) -/

/-- PRBS31: x^31 + x^28 + 1, as IEEE 802.3 has it (PRESUMED: the spec names the pattern by its standard; log 170). The next bit. -/
def prbs31Bit (s : BitVec 31) : Bool := s.getLsbD 27 ^^ s.getLsbD 30

/-- `n` bits of PRBS31, and the generator after them. -/
def prbs31 (n : Nat) (s : BitVec 31) : List Bool × BitVec 31 :=
  match n with
  | 0 => ([], s)
  | k + 1 =>
    let b := prbs31Bit s
    let (l, s') := prbs31 k ((s <<< 1) ||| (if b then 1 else 0))
    (b :: l, s')

/-- PRBS13: x^13 + x^12 + x^2 + x + 1 (PRESUMED, as above). The next bit. -/
def prbs13Bit (s : BitVec 13) : Bool := s.getLsbD 0 ^^ s.getLsbD 1 ^^ s.getLsbD 11 ^^ s.getLsbD 12

/-- `n` bits of PRBS13, and the generator after them. -/
def prbs13 (n : Nat) (s : BitVec 13) : List Bool × BitVec 13 :=
  match n with
  | 0 => ([], s)
  | k + 1 =>
    let b := prbs13Bit s
    let (l, s') := prbs13 k ((s <<< 1) ||| (if b then 1 else 0))
    (b :: l, s')

/-- The Gray-coded levels of a pattern's bits: PRBS13Q and PRBS31Q (R293). -/
def patternLevels (bs : List Bool) : List (BitVec 2) :=
  match bs with
  | lo :: hi :: r => grayLevel hi lo :: patternLevels r
  | _ => []

end Sys2Proof.Machine
end

