-- ==== Sys2Proof/Machine/Operands.lean ====
section
/-!
DEFINITION. The operand forms: the header of a frame (R103) as bytes, its lengths (R101, R102), virtual channel (R105) and
checks (R109, R110); control blocks (R118); the fields of a command packet (R306); answers to a request (R104, R107).
-/
namespace Sys2Proof

open Sys2Proof.Machine

/-! ### Operations (R55, R116) -/

def opLOAD : Nat := 0x01
def opSTORE : Nat := 0x02
def opSTORE_POSTED : Nat := 0x03
def opSTORE_MASKED : Nat := 0x04
def opSTORE_MASKED_POSTED : Nat := 0x05
def opFLUSH : Nat := 0x06
def opCAS : Nat := 0x18
def opREDUCE_STORE : Nat := 0x20
def opCOMPLETION : Nat := 0x30
def opCOMPLETION_DATA : Nat := 0x31
def opCONG_NOTICE : Nat := 0x40
def opMGMT_COMMAND : Nat := 0x48
def opMGMT_REPLY : Nat := 0x49
def opMGMT_EVENT : Nat := 0x4A

/-- OP as a number. -/
def Frame.opn (f : Frame) : Nat := f.op.toNat

/-- The posted store forms (R55). -/
def isPosted (op : Nat) : Bool := op = 0x03 || op = 0x05

/-- The atomics other than CAS (R77). -/
def isAtomicOp (op : Nat) : Bool := (0x10 ≤ op && op ≤ 0x12) || (0x14 ≤ op && op ≤ 0x16)

/-- Whether the operation has a completion: every request of R55 but the posted stores, and unassigned values, which the
target refuses (R8). -/
def isAcked (op : Nat) : Bool := op < 0x30 && !isPosted op

/-- RSP (R105). -/
def isRsp (op : Nat) : Bool := op = 0x30 || op = 0x31 || op = 0x40

/-- The OP values R116 gives as class M. -/
def isClassM (op : Nat) : Bool := op = 0x48 || op = 0x49 || op = 0x4A || (0x50 ≤ op && op ≤ 0x57)

/-- Link-local OP values (R116). -/
def isLinkLocal (op : Nat) : Bool := 0x50 ≤ op && op ≤ 0x57

/-- Relay frames (R116). -/
def isRelay (op : Nat) : Bool := 0x60 ≤ op && op ≤ 0x6F

/-! ### Lengths (R101, R102) -/

/-- Payload size P (R102). -/
def paySize (op len : Nat) : Nat := if op = opLOAD then 0 else if op = opCAS then 2 * len else len

/-- E + P of a frame (R101). -/
def Frame.area (f : Frame) : Nat := (if f.conf then 24 else 0) + paySize f.opn f.length.toNat

/-- Flits of a frame (R101). -/
def Frame.flits (f : Frame) : Nat := if f.area = 0 then 1 else 1 + ceilDiv (f.area + 4) 32

/-- Frame length in bytes (R101). -/
def Frame.len (f : Frame) : Nat := if f.area = 0 then 32 else 36 + f.area

/-- CLASS as its number (R105). -/
def TClass.code (c : TClass) : Nat := match c with | .g => 0 | .o => 1 | .b => 2 | .m => 3

/-- Virtual channel (R105). -/
def Frame.vc (f : Frame) : Nat :=
  if f.cls = .m then 8 else 4 * b2n (isRsp f.opn) + 2 * b2n f.phase + b2n f.dline

/-- Number of a frame's queue among the 25 of its output (R123): G on channels 0–7, O, B, then M. -/
def Frame.qno (f : Frame) : Nat :=
  match f.cls with | .g => f.vc | .o => 8 + f.vc | .b => 16 + f.vc | .m => 24

/-- Stream of a tag (R65). -/
def tagStream (t : BitVec 32) : Nat := t.toNat >>> 18

/-! ### Header (R103) -/

/-- One bit. -/
def bit1 (b : Bool) : BitVec 1 := BitVec.ofBool b

/-- CLASS encoded (R105). -/
def clsBits (c : TClass) : BitVec 2 := match c with | .g => 0 | .o => 1 | .b => 2 | .m => 3

/-- ORD encoded (R90). -/
def ordBits (o : Ord) : BitVec 2 := match o with | .relaxed => 0 | .acquire => 1 | .release => 2 | .acqRel => 3

/-- SCOPE encoded (R90). -/
def scpBits (o : Scp) : BitVec 2 := match o with | .tile => 0 | .modul => 1 | .node => 2 | .fabric => 3

/-- CLASS decoded. -/
def clsOf (b : BitVec 2) : TClass := if b = 0 then .g else if b = 1 then .o else if b = 2 then .b else .m

/-- ORD decoded. -/
def ordOf (b : BitVec 2) : Ord := if b = 0 then .relaxed else if b = 1 then .acquire else if b = 2 then .release else .acqRel

/-- SCOPE decoded. -/
def scpOf (b : BitVec 2) : Scp := if b = 0 then .tile else if b = 1 then .modul else if b = 2 then .node else .fabric

/-- Bytes 28–31 of a header. -/
def hdrWord28 (f : Frame) : BitVec 32 :=
  f.hchk ++ f.rsv ++ bit1 f.conf ++ bit1 f.log ++ bit1 f.cm ++ bit1 f.noCombine ++ bit1 f.resend ++ bit1 f.retry ++ f.inter

/-- Byte 25 of a header. -/
def hdrByte25 (f : Frame) : BitVec 8 := clsBits f.cls ++ ordBits f.ord ++ scpBits f.scope ++ bit1 f.phase ++ bit1 f.dline

/-- The 32 header bytes, byte 0 in bits [7:0] (R103). -/
def headerBits (f : Frame) : BitVec 256 :=
  hdrWord28 f ++ f.hops ++ f.slice ++ hdrByte25 f ++ f.op ++ f.key ++ f.tag ++ f.dtype ++ f.length ++ f.offset ++ f.src ++ f.dst

/-- A frame from its header bytes, payload area and frame check (R103). -/
def parseHeader (h : BitVec 256) (payload : List Byte) (fcheck : BitVec 32) : Frame where
  dst := h.extractLsb' 0 16
  src := h.extractLsb' 16 16
  offset := h.extractLsb' 32 48
  length := h.extractLsb' 80 12
  dtype := h.extractLsb' 92 4
  tag := h.extractLsb' 96 32
  key := h.extractLsb' 128 64
  op := h.extractLsb' 192 8
  dline := h.getLsbD 200
  phase := h.getLsbD 201
  scope := scpOf (h.extractLsb' 202 2)
  ord := ordOf (h.extractLsb' 204 2)
  cls := clsOf (h.extractLsb' 206 2)
  slice := h.extractLsb' 208 10
  hops := h.extractLsb' 218 6
  inter := h.extractLsb' 224 11
  retry := h.getLsbD 235
  resend := h.getLsbD 236
  noCombine := h.getLsbD 237
  cm := h.getLsbD 238
  log := h.getLsbD 239
  conf := h.getLsbD 240
  rsv := h.extractLsb' 241 3
  hchk := h.extractLsb' 244 12
  payload := payload
  fcheck := fcheck

/-- The header as bytes. -/
def headerBytes (f : Frame) : List Byte := le 32 (headerBits f).toNat

/-- The header with the fields that modules write taken as 0 (R110, R114). -/
def stillHeader (f : Frame) : Frame :=
  { f with hchk := 0, hops := 0, phase := false, dline := false, cm := false, inter := 0 }

/-- The header check a frame should carry (R109). -/
def hchkOf (f : Frame) : BitVec 12 := BitVec.ofNat 12 (crc12 (headerBytes { f with hchk := 0 }))

/-- The frame check a frame should carry (R110). -/
def fcheckOf (f : Frame) : BitVec 32 := BitVec.ofNat 32 (crc32c (headerBytes (stillHeader f) ++ f.payload))

/-- Whether HCHK holds (R109). -/
def Frame.hchkOk (f : Frame) : Bool := f.hchk = hchkOf f

/-- Whether the frame check holds (R110); a frame without payload carries none. -/
def Frame.checkOk (f : Frame) : Bool := f.area = 0 || f.fcheck = fcheckOf f

/-- Whether the frame check is the inverse of the correct value (R110). -/
def Frame.isStomped (f : Frame) : Bool := f.area ≠ 0 && f.fcheck = ~~~ (fcheckOf f)

/-- HCHK recomputed, as at every send (R109). -/
def Frame.sealHdr (f : Frame) : Frame := { f with hchk := hchkOf f }

/-- Both checks computed, as by the originator. -/
def Frame.sealAll (f : Frame) : Frame :=
  let g := { f with fcheck := if f.area = 0 then 0 else fcheckOf f }
  g.sealHdr

/-- The frame as the bytes of its length, which the padding is not part of (R101, R373). -/
def Frame.bytes (f : Frame) : List Byte :=
  headerBytes f ++ (if f.area = 0 then [] else f.payload ++ le 4 f.fcheck.toNat)

/-- The frame as its flits carry it on a link, in a queue or in a spill block: padding written 0 up to the next multiple of 32 (R101). -/
def Frame.flitBytes (f : Frame) : List Byte := padTo (32 * f.flits) f.bytes

/-- A frame from its bytes, with or without the padding (R101). -/
def frameOfBytes (bs : List Byte) : Frame :=
  let h := BitVec.ofNat 256 (num bs 0 32)
  let f := parseHeader h [] 0
  { f with payload := cut bs 32 f.area, fcheck := BitVec.ofNat 32 (num bs (32 + f.area) 4) }

/-! ### Answers (R104, R107) -/

/-- Status word (R107). -/
def statusWord (st backoff : Nat) (echo : Bool) : BitVec 64 := BitVec.ofNat 64 (b2n echo * 4096 + backoff * 256 + st)

/-- STATUS of a completion. -/
def Frame.status (f : Frame) : Nat := field f.key.toNat 0 8
/-- BACKOFF of a completion. -/
def Frame.backoff (f : Frame) : Nat := field f.key.toNat 8 4
/-- ECHO of a completion. -/
def Frame.echo (f : Frame) : Bool := f.key.getLsbD 12

/-- The answer of node `me` to a request (R104): COMPLETION, or COMPLETION_DATA with its data. The envelope of a confidential
answer is added where it is sent. -/
def answerTo (me : Nat) (q : Frame) (st backoff : Nat) (data : Option (List Byte)) : Frame :=
  { dst := q.src, src := BitVec.ofNat 16 me, offset := q.offset, tag := q.tag, slice := q.slice, cls := q.cls, conf := q.conf,
    op := if data.isSome then 0x31 else 0x30, dtype := if data.isSome then q.dtype else 0,
    length := BitVec.ofNat 12 (data.getD []).length, key := statusWord st backoff q.cm, payload := data.getD [] }

/-! ### Control blocks (R118) -/

/-- CTYPE. -/
def ctype (b : CtrlBlock) : Nat := field b.toNat 0 8
/-- `n` bytes of a control block from byte `off` on. -/
def cbNum (b : CtrlBlock) (off n : Nat) : Nat := field b.toNat (8 * off) (8 * n)
/-- Whether CCHK holds. -/
def cchkOk (b : CtrlBlock) : Bool := cbNum b 30 2 = crc16 (le 30 b.toNat)
/-- A control block of up to 30 bytes, with its CCHK. -/
def mkCtrl (bs : List Byte) : CtrlBlock :=
  let b := padTo 30 bs
  BitVec.ofNat 256 (unle (b ++ le 2 (crc16 b)))

/-! ### Command packets (R306) -/

/-- `n` bytes of the packet from byte `off` on, 16 ≤ `off`. -/
def Cmd.u (c : Cmd) (off n : Nat) : Nat := field c.params.toNat (8 * (off - 16)) (8 * n)
/-- The packet's bytes 16–63. -/
def Cmd.bytes (c : Cmd) : List Byte := le 48 c.params.toNat
/-- The object a command names (R316). -/
def Cmd.object (c : Cmd) : BitVec 32 := obj c.cls.toNat c.inst.toNat

/-! ### Offsets (R30) -/

/-- Pool range. -/
def inPool (off : Nat) : Bool := off < 0x030000000000
/-- Pipeline entry window. -/
def inEntry (off : Nat) : Bool := off >>> 32 = 0x8000
/-- Relay window. -/
def inRelay (off : Nat) : Bool := off >>> 32 = 0x8001
/-- PAGE of an offset (R156). -/
def pageOf (off : Nat) : Nat := off >>> 29

end Sys2Proof
end

