-- ==== Sys2Proof/Machine/Faults.lean ====
section
/-!
DEFINITION. Fault records and event signalling (R355–R358, R332). A detector gives its record to `Dev.fault0`, which merges or
queues it and signals the vector; `Dev.fault` of Sys2Proof/Machine/Route.lean also sends the MGMT_EVENT.
-/
namespace Sys2Proof.Machine

open Sys2Proof

/-- A vector is signalled (R332): the message is sent, or the pending bit set while the vector is masked. -/
def Dev.signal (d : Dev) (v : Nat) : Dev :=
  let e := tget d.host.msix v {}
  if e.masked then { d with host := { d.host with msix := tset d.host.msix v { e with pending := true } } } else d.emit (.msix v)

/-- The 32 bytes of DETAIL from (record offset, bytes, value) (R356). -/
def detail (l : List (Nat × Nat × Nat)) : List Byte :=
  l.foldl (fun bs e => overwrite bs (e.1 - 32) (le e.2.1 e.2.2)) (zeros 32)

/-- A fault record as its 64 bytes (R356). -/
def FaultRec.bytes (r : FaultRec) : List Byte :=
  le 8 r.seq ++ le 8 r.time ++ le 1 r.cls ++ le 1 r.code ++ le 1 r.action ++
  le 1 (b2n r.drill + 2 * b2n r.ended + 4 * b2n r.foreign) ++ le 4 r.object.toNat ++ le 2 r.node.toNat ++ le 2 r.slice.toNat ++
  le 4 r.count ++ padTo 32 r.detail

/-- A fault record from its 64 bytes (R358). -/
def faultOfBytes (b : List Byte) : FaultRec :=
  { seq := num b 0 8, time := num b 8 8, cls := num b 16 1, code := num b 17 1, action := num b 18 1,
    drill := (num b 19 1).testBit 0, ended := (num b 19 1).testBit 1, foreign := true, object := BitVec.ofNat 32 (num b 20 4),
    node := BitVec.ofNat 16 (num b 24 2), slice := BitVec.ofNat 10 (num b 26 2), count := num b 28 4, detail := cut b 32 32 }

/-- Whether a queued record is the overflow record (R357). -/
def FaultRec.isOverflow (r : FaultRec) : Bool := r.cls = 18 && !r.foreign

/-- Ordinary records queued (R357). -/
def FaultSt.held (f : FaultSt) : Nat := (f.queue.filter fun r => !r.isOverflow).length

/-- The record a new fault merges into: the newest unread record of its class, with equal CODE and OBJECT, within 1 ms
(R356). A foreign record takes no merges (log 12). -/
def mergeSeq (d : Dev) (r : FaultRec) : Option Nat :=
  match d.faults.queue.reverse.find? fun q => q.cls = r.cls && !q.foreign with
  | some q => if q.code = r.code && q.object = r.object && d.now - q.time ≤ 1000000 then some q.seq else none
  | none => none

/-- The overflow record with one more fault merged (R357). -/
def mergeOverflow (q : FaultRec) (seq cls : Nat) : FaultRec :=
  { q with count := satAdd 32 q.count 1,
           detail := overwrite (overwrite q.detail 8 (le 8 seq)) 16 (le 8 (num q.detail 16 8 ||| 2 ^ cls)) }

/-- A record joins the queue: the class's event is signalled (R358). `send` sends the MGMT_EVENT. -/
def enqueueFault (send : Dev → FaultRec → Dev) (d : Dev) (r : FaultRec) : Dev :=
  let f := { d.faults with queue := d.faults.queue ++ [r],
                           lastNonDrill := if (r.cls ≤ 10 || r.cls = 16) && !r.drill then some d.now
                                           else d.faults.lastNonDrill }
  let d := { d with faults := f }
  if d.faults.eventMask.getLsbD r.cls then
    let d := d.signal d.faults.vector.toNat
    if r.foreign || d.faults.eventNode = 0xFFFF#16 then d else
    let recent := d.faults.eventTimes.filter fun t => d.now < t + 1000000000
    if recent.length < 10000 then send { d with faults := { d.faults with eventTimes := d.now :: recent } } r
    else { d with faults := { d.faults with eventTimes := recent } }
  else d

/-- A fault is detected (R356, R357): it takes a SEQ, and is merged, queued, or merged into the overflow record. -/
def faultWith (send : Dev → FaultRec → Dev) (d : Dev) (r0 : FaultRec) : Dev :=
  let seq := d.faults.nextSeq
  let drill := r0.drill || d.faults.drillMarks.any fun m => m.1 = r0.object && d.now ≤ m.2
  let r := { r0 with seq := seq, time := d.now, drill := drill }
  let d := { d with faults := { d.faults with nextSeq := seq + 1 } }
  match mergeSeq d r with
  | some q => { d with faults := { d.faults with queue := d.faults.queue.map fun x =>
                  if x.seq = q && !x.foreign && x.cls = r.cls then { x with count := satAdd 32 x.count 1 } else x } }
  | none =>
    if d.faults.held < 4095 then enqueueFault send d r
    else
      let d := { d with faults := { d.faults with overflowed := bump 32 d.faults.overflowed r.cls 1 } }
      if d.faults.overflow then
        { d with faults := { d.faults with queue := d.faults.queue.map fun x =>
            if x.isOverflow then mergeOverflow x seq r.cls else x } }
      else
        enqueueFault send { d with faults := { d.faults with overflow := true } }
          { seq := seq, time := d.now, cls := 18, code := 0, action := 0, object := obj 0x38 0,
            detail := detail [(32, 8, seq), (40, 8, seq), (48, 8, 2 ^ r.cls)] }

/-- A fault recorded while a frame is being sent: its MGMT_EVENT waits until that is done (`Dev.sendDue`; DESIGN CHOICE, log 13). -/
def Dev.fault0 (d : Dev) (r : FaultRec) : Dev :=
  faultWith (fun d r => { d with faults := { d.faults with toSend := d.faults.toSend ++ [r] } }) d r

/-- A record without its SEQ and TIME, which `faultWith` gives it. -/
def mkRec (cls code action : Nat) (object : BitVec 32) (det : List (Nat × Nat × Nat) := []) : FaultRec :=
  { seq := 0, time := 0, cls := cls, code := code, action := action, object := object, detail := detail det }

/-- A POOL record for a line (R356): its channel, its address there and its offset. -/
def poolRec (code action line : Nat) : FaultRec :=
  mkRec 4 code action (obj 0x18 0) [(32, 2, chanOf (64 * line)), (40, 8, addrOf (64 * line)), (48, 8, 64 * line)]

/-- The POOL record of an access to a mapped-out page of an area (R261, R356): the channel and the address of the offset accessed, and the offset. -/
def areaRec (off : Nat) : FaultRec := mkRec 4 0x04 0 (obj 0x18 0) [(32, 2, chanOf off), (40, 8, addrOf off), (48, 8, off)]

end Sys2Proof.Machine
end

