-- ==== Sys2Proof/Machine/Route.lean ====
section
/-!
DEFINITION. Routing (R147–R164): coordinates, the path hash (R156), directions (R157), datelines (R158), bundles (R159),
detours (R161–R163) and delivery (R154), as a function of the frame and the routing state.
-/
namespace Sys2Proof.Machine

open Sys2Proof

/-! ### Coordinates (R147) -/

/-- Ring size of dimension 0–2. -/
def RoutingSt.n (r : RoutingSt) (i : Nat) : Nat := if i = 0 then r.nx else if i = 1 then r.ny else r.nz
/-- Domain start. -/
def RoutingSt.s (r : RoutingSt) (i : Nat) : Nat := if i = 0 then r.x0 else if i = 1 then r.y0 else r.z0
/-- Domain width. -/
def RoutingSt.w (r : RoutingSt) (i : Nat) : Nat := if i = 0 then r.xw else if i = 1 then r.yw else r.zw

/-- Coordinate `i` of a rack in INTER layout. -/
def coord (rack i : Nat) : Nat := if i = 0 then field rack 7 4 else if i = 1 then field rack 3 4 else field rack 0 3

/-- A rack from its coordinates. -/
def mkRack (x y z : Nat) : Nat := x * 128 + y * 8 + z

/-- A rack with coordinate `i` replaced. -/
def setCoord (rack i v : Nat) : Nat :=
  mkRack (if i = 0 then v else coord rack 0) (if i = 1 then v else coord rack 1) (if i = 2 then v else coord rack 2)

/-- Whether a rack lies in the domain (R147). -/
def inDomain (r : RoutingSt) (rack : Nat) : Bool :=
  (upTo 3).all fun i => (coord rack i + r.n i - r.s i % r.n i) % r.n i < r.w i && coord rack i < r.n i

/-- Dimension of a direction (R149). -/
def dimOf (dir : Nat) : Nat := dir / 2

/-- The rack one step in a direction, modulo the ring size. -/
def stepRack (r : RoutingSt) (rack dir : Nat) : Nat :=
  let i := dimOf dir
  let c := coord rack i
  setCoord rack i (if dir % 2 = 0 then (c + 1) % r.n i else (c + r.n i - 1) % r.n i)

/-- Direction in dimension `i` from own coordinate `c` to target coordinate `t` (R157). -/
def dirToward (r : RoutingSt) (i c t : Nat) : Nat :=
  let n := r.n i
  let plus :=
    if r.w i < n then decide ((c + n - r.s i % n) % n < (t + n - r.s i % n) % n)
    else decide (2 * ((t + n - c) % n) ≤ n)
  2 * i + b2n (!plus)

/-- Whether the hop in a direction stays in the domain (R42, R157). -/
def linkAllowed (r : RoutingSt) (rack dir : Nat) : Bool :=
  let i := dimOf dir
  let n := r.n i
  if r.w i ≤ 1 then false
  else if r.w i = n then true
  else
    let rc := (coord rack i + n - r.s i % n) % n
    if dir % 2 = 0 then rc + 1 < r.w i else 0 < rc

/-- Node number of the module of the own plane in a rack (R26). -/
def moduleNode (plane rack : Nat) : Nat :=
  0xC000 + plane * 2048 + coord rack 2 * 256 + coord rack 1 * 16 + coord rack 0

/-! ### Path hash (R156) -/

/-- h of R156. -/
def pathHash (src dst page : Nat) : Nat :=
  let h := src ||| (dst <<< 16)
  let h := h ^^^ ((page <<< 13) % 2 ^ 32)
  let h := h ^^^ (h >>> 15)
  let h := h ^^^ ((h <<< 7) % 2 ^ 32)
  let h := h ^^^ (h >>> 16)
  h ^^^ (h >>> 8)

/-- The hash of a frame. -/
def hashOf (f : Frame) : Nat := pathHash f.src.toNat f.dst.toNat (pageOf f.offset.toNat)

/-- The rack that 32 bits select in the domain (R155): ix in [31:24], iz in [23:16], iy in [15:8]. -/
def selectRack (r : RoutingSt) (h : Nat) : Nat :=
  let sel (i v : Nat) := (r.s i + ((v * r.w i) >>> 8)) % r.n i
  mkRack (sel 0 (field h 24 8)) (sel 1 (field h 8 8)) (sel 2 (field h 16 8))

/-! ### Ports -/

/-- ROLE of a port's role record (R149). -/
def PortSt.kind (p : PortSt) : Nat := p.role.toNat / 64
/-- DIR. -/
def PortSt.dir (p : PortSt) : Nat := field p.role.toNat 3 3
/-- MEMBER. -/
def PortSt.member (p : PortSt) : Nat := field p.role.toNat 0 3

/-- The valid node-table entry that names an edge port (R151). -/
def Dev.edgeNode (d : Dev) (p : Nat) : Option Nat :=
  (d.rt.nodes.find? fun e => e.2.valid && e.2.edgePort.toNat = p).map (·.1)

/-- Whether a port is in service; internal ports always are. -/
def Dev.inService (d : Dev) (p : Nat) : Bool := 144 ≤ p || (d.port p).lstate = 7

/-- Width of a lane set. -/
def widthOf (s : BitVec 8) : Nat := popCount 8 s.toNat

/-- Capacity of an output in one round (R135) at `n` lanes. -/
def portCap (p n : Nat) : Nat := if p < 144 then 512 * n else if p < 160 then 39792 else if p < 176 then 19896 else 4974

/-- Capacity as an output at its current lane count. -/
def Dev.outCap (d : Dev) (p : Nat) : Nat := portCap p (widthOf (d.port p).txLanes)
/-- Capacity as an input at its current lane count. -/
def Dev.inCap (d : Dev) (p : Nat) : Nat := portCap p (widthOf (d.port p).rxLanes)

/-- A bundle: the torus ports of a direction in ascending MEMBER (R149). -/
def Dev.bundle (d : Dev) (dir : Nat) : List Nat :=
  (upTo 8).flatMap fun m => tkeys d.ports fun p s => p < 144 && s.kind = 2 && s.dir = dir && s.member = m

/-- O and B flits queued for an output, in SRAM and in spill (R127). -/
def OutQueue.flits (q : OutQueue) : Nat :=
  ((q.sram ++ q.spilled ++ q.spillOpen).map fun x => x.f.flits).foldl (· + ·) 0

/-- Flits of the SRAM part. -/
def OutQueue.sramFlits (q : OutQueue) : Nat := (q.sram.map fun x => x.f.flits).foldl (· + ·) 0

/-- O and B flits queued for output `p`. -/
def Dev.obFlits (d : Dev) (p : Nat) : Nat :=
  ((upTo 16).map fun i => (d.queue p (8 + i)).flits).foldl (· + ·) 0

/-- A pseudo output that holds the frames of a direction with no configured member (log 14). -/
def limboPort (dir : Nat) : Nat := 177 + dir

/-- The bundle member a frame takes in a direction (R159). `im` is the low byte of its hash. With no member in service it is
the pinned member, where the frame waits. -/
def Dev.pickMember (d : Dev) (dir im : Nat) (cls : TClass) : Nat :=
  let b := d.bundle dir
  match cls with
  | .b =>
    match b.filter d.inService with
    | [] => b.headD (limboPort dir)
    | a :: r => r.foldl (fun best p =>
        if d.obFlits p * widthOf (d.port best).txLanes < d.obFlits best * widthOf (d.port p).txLanes then p else best) a
  | _ =>
    let m := (im * b.length) >>> 8
    match (b.drop m ++ b.take m).filter d.inService with
    | [] => b.getD m (limboPort dir)
    | p :: _ => p

/-! ### Node table (R151, R153) -/

/-- Rack of a DST: none for a dead or unknown node. -/
def Dev.rackOf (d : Dev) (dst : Nat) : Option Nat :=
  if dst < 0xC000 then
    match tfind d.rt.nodes dst with
    | some e => if e.valid && !e.dead then some e.rack.toNat else none
    | none => none
  else if dst = 0xFFFF then none
  else if field dst 11 3 = d.ident.straps.plane.toNat then some (mkRack (field dst 0 4) (field dst 4 4) (field dst 8 3))
  else none

/-- Detour record of a direction (R160). -/
def Dev.detour (d : Dev) (dir : Nat) : Detour := d.rt.detours.getD dir { side := 0 }

/-- The direction with STATE 3 whose neighbour is a rack (R163). -/
def Dev.deadNeighbour (d : Dev) (rack : Nat) : Bool :=
  (upTo 6).any fun dir => (d.detour dir).state = 3 && stepRack d.rt d.rack dir = rack

/-- Whether a frame of a class that needs a lost direction takes the detour (R161, R164). -/
def mayDetour (x : Detour) (cls : TClass) : Bool :=
  x.state = 3 || (x.state = 2 && x.released) || cls = .b || cls = .m

/-! ### Delivery (R154) -/

/-- fold4 of R250 for a number of up to 20 bits. -/
def fold4 (v : Nat) : Nat := field v 0 4 ^^^ field v 4 4 ^^^ field v 8 4 ^^^ field v 12 4 ^^^ field v 16 4

/-- The receiving pool port (R250). -/
def poolPortOf (src dst page : Nat) : Nat := 144 + (fold4 src ^^^ fold4 dst ^^^ fold4 page)

/-- Tile die of a position (R188). -/
def tileDieOf (pos : Nat) : Nat := (pos % 20) / 5 + 4 * ((pos / 20) / 5)

/-- The ENTRY queue of a channel of a loaded pipeline (R224). -/
def Dev.entryQueue (d : Dev) (pipe ch : Nat) : Option StreamQ :=
  (d.pipe pipe).queues.find? fun q => !q.out && q.mode = 0 && q.channel = ch

/-- Switch port of a STREAM record (R224). -/
def swPort (q : StreamQ) : Nat := 160 + 2 * tileDieOf q.pos + b2n q.swport

/-- The tile port of a frame in the pipeline entry window (R235). -/
def Dev.entryPort (d : Dev) (off inpDie : Nat) : Nat :=
  match d.entryQueue (field off 24 8) (field off 20 4) with
  | some q => swPort q
  | none => if inpDie = 0 then 160 else 168

/-- Where a frame to the own node goes. -/
inductive Place where
  | port (p : Nat)
  | combining (die : Nat)
  | noOwner
deriving DecidableEq, Repr

/-- The internal port of a frame to the own node (R154 step 2); `die` is the die that delivers it. -/
def Dev.ownPlace (d : Dev) (die : Nat) (f : Frame) : Place :=
  let off := f.offset.toNat
  if f.cls = .m then .port 176
  else if isRsp f.opn then
    let st := tagStream f.tag
    if st = 0x3FFE then .combining 0 else if st = 0x3FFF then .combining 1
    else match tfind (d.kamro die).owners st with
      | some p => .port p
      | none => .noOwner
  else if inRelay off then .port (144 + field off 28 4)
  else if inEntry off then .port (d.entryPort off die)
  else .port (poolPortOf f.src.toNat f.dst.toNat (pageOf off))

/-! ### The next hop (R154, R162) -/

/-- What routing finds for a frame: an output, a hold in the queue of a lost direction's member, the own node, or no route. -/
inductive Routed where
  | out (p : Nat) (f : Frame)
  | hold (p : Nat) (f : Frame)
  | own (f : Frame)
  | dead
deriving DecidableEq, Repr

/-- A ROUTING record (R355). -/
def routingRec (d : Dev) (dir action : Nat) : FaultRec :=
  let st := (d.detour dir).state
  mkRec 2 st action (obj 0x05 0) [(32, 1, dir), (33, 1, st),
    (34, 2, moduleNode d.ident.straps.plane.toNat (stepRack d.rt d.rack dir))]

/-- DLINE after a hop (R158): kept within a dimension, set across the dateline, cleared at a turn or a change of PHASE. -/
def hopDline (d : Dev) (inp : Nat) (f : Frame) (phaseChanged : Bool) (dir : Nat) : Bool :=
  let same := decide (inp < 144) && (d.port inp).kind = 2 && dimOf (d.port inp).dir = dimOf dir && !phaseChanged
  let c := coord d.rack (dimOf dir)
  (same && f.dline) || (dir % 2 = 0 && c + 1 = d.rt.n (dimOf dir)) || (dir % 2 = 1 && c = 0)

/-- The replacement of R162 for refused direction `dir`: the directions to try in order, the first the rule's own choice. -/
def detourChoices (d : Dev) (dir target : Nat) : List Nat :=
  let i := dimOf dir
  let others := [(i + 1) % 3, (i + 2) % 3].filter fun j => coord d.rack j ≠ coord target j
  match others with
  | j :: _ => [dirToward d.rt j (coord d.rack j) (coord target j)]
  | [] =>
    let side := (d.detour dir).side
    let j := dimOf side
    let k := 3 - i - j
    [side, side ^^^ 1, 2 * k, 2 * k + 1]

/-- Steps 1 to 3 of R154 with R157 to R163: where a frame that came in on `inp` goes, and the ROUTING events. -/
def Dev.routeFrame (d : Dev) (inp : Nat) (f0 : Frame) : Routed × List FaultRec :=
  let own := d.rack
  let arrived := !f0.phase && f0.inter.toNat = own
  let around := !f0.phase && !arrived && d.deadNeighbour f0.inter.toNat
  let turned := arrived || around
  let f := if turned then { f0 with phase := true, dline := false } else f0
  match d.rackOf f.dst.toNat with
  | none => (.dead, [])
  | some rd =>
    let target := if f.phase then rd else f.inter.toNat
    if !inDomain d.rt target then (.dead, [])
    else if f.phase && rd = own then
      if f.dst.toNat < 0xC000 then
        let e := tget d.rt.nodes f.dst.toNat {}
        (if e.edgePort.toNat < 144 then .out e.edgePort.toNat f else .dead, [])
      else if f.dst.toNat = d.node then (.own f, []) else (.dead, [])
    else if f.phase && d.deadNeighbour rd then (.dead, [])
    else
      match [0, 1, 2].filter fun i => coord own i ≠ coord target i with
      | [] => (.dead, [])
      | i :: _ =>
        let dir := dirToward d.rt i (coord own i) (coord target i)
        let im := field (hashOf f) 0 8
        let send (dir : Nat) : Routed :=
          .out (d.pickMember dir im f.cls) { f with dline := hopDline d inp f turned dir }
        let held : Routed := .hold (d.pickMember dir im f.cls) { f with dline := hopDline d inp f turned dir }
        let back := decide (inp < 144) && (d.port inp).kind = 2 && (d.port inp).dir = dir && !turned
        let x := d.detour dir
        if x.state ≠ 0 && !mayDetour x f.cls && !back then (held, [])
        else if x.state = 0 && !back then (send dir, [])
        else
          let choices := detourChoices d dir target
          match (choices.filter fun c => linkAllowed d.rt own c) with
          | [] => (held, [routingRec d dir 4])
          | c :: _ =>
            let ev := if choices.head? = some c then [] else [routingRec d dir 3]
            if (d.detour c).state ≠ 0 then (held, ev ++ [routingRec d dir 4]) else (send c, ev)

end Sys2Proof.Machine
end

