-- ==== Sys2Proof/Machine/Blocks.lean ====
section
/-!
DEFINITION. What a transmitter puts between its data blocks: alignment blocks (R273), pacer answers (R118, R120), link-local
frames (R116, R117), the resumption of a direction from quiet or sleep (R291).
-/
namespace Sys2Proof.Machine

open Sys2Proof

/-- The comma (R273). -/
def commaBits : Nat := 0x0000AAAA0000AAAA

/-- LSTAGE of a port (R280): an in-service direction whose lanes have lost lock in a clock fallback is training again (R288). -/
def lstageOf (p : PortSt) : Nat := if p.lstate = 7 then (if p.relock then 0 else 2) else if 4 ≤ p.lstate && p.lstate ≤ 6 then 1 else 0

/-- Whether ACHK of an alignment block holds (R273): over bits [239:64], as 22 bytes. -/
def achkOk (b : AlignBlock) : Bool := field b.toNat 240 16 = crc16 (le 22 (b.toNat >>> 64))

/-- The alignment block of lane `l` of port `p` (R273). -/
def mkAlign (p : PortSt) (l : Nat) (restart : Bool) : AlignBlock :=
  let n := p.lane l
  let body :=                                              -- bits [239:64]
    l + p.txLanes.toNat * 2 ^ 16 + b2n p.txClkSrc * 2 ^ 24 + b2n restart * 2 ^ 25 + lstageOf p * 2 ^ 26 +
    p.period.toNat * 2 ^ 32 + n.reqCoef.toNat * 2 ^ 60 + n.reqPreset.toNat * 2 ^ 70 + b2n n.rxReady * 2 ^ 73 +
    n.status.toNat * 2 ^ 76
  BitVec.ofNat 260 (commaBits + body * 2 ^ 64 + crc16 (le 22 body) * 2 ^ 240)

/-- A period starts on a port's transmit side: one alignment block on every lane in use, PERIOD counted (R273). -/
def Dev.sendAlign (d : Dev) (p : Nat) (restart : Bool) : Dev :=
  let d := d.modPort p fun s => { s with period := s.period + 1 }
  let s := d.port p
  eachOf (bitsOf 8 s.txLanes.toNat) d fun d l => d.emit (.align p l (mkAlign s l restart))

/-- A direction in quiet or sleep resumes (R291). -/
def Dev.resumeTx (d : Dev) (p : Nat) : Dev :=
  let s := d.port p
  if s.txPwr = 1 || s.txPwr = 2 then (d.modPort p fun s => { s with txPwr := 0 }).sendAlign p true else d

/-- A control block is sent on port `p`. -/
def Dev.sendCtrl (d : Dev) (p : Nat) (bytes : List Byte) : Dev := (d.resumeTx p).emit (.ctrl p (mkCtrl bytes))

/-- SYNC with the SENT counts (R119). A frame that is being sent is finished first: its tail has not left while it is a cut. -/
def Dev.sendSync (d : Dev) (p : Nat) : Dev :=
  if d.sw.cuts.any fun c => c.out = p then d.modPort p fun s => { s with syncDue := true }
  else (d.modPort p fun s => { s with syncDue := false }).sendCtrl p ([0x03, 0x00] ++ (d.port p).sent.flatMap fun n => le 2 n)

/-- The end of a frame forwarded cut-through leaves output `p` with its check (R110), bit 0 of it inverted where a perturbation has selected the frame
(R420 kind 7), and the SYNC that waited for it (R119). -/
def Dev.sendTail (d : Dev) (p fid : Nat) (fcheck : BitVec 32) : Dev :=
  let flip := d.sw.cuts.any fun c => c.fid = fid && c.flip
  let d := { d with sw := { d.sw with cuts := d.sw.cuts.filter fun c => c.fid ≠ fid } }.emit (.tail p (if flip then fcheck ^^^ 1 else fcheck))
  if (d.port p).syncDue then d.sendSync p else d

/-- WAKE (R292): the module needs the reverse direction awake, once until it resumes. It needs it when a frame of its own waits for credit,
which LINK_STATE brings (DESIGN CHOICE, log 171). -/
def Dev.sendWake (d : Dev) (p : Nat) : Dev :=
  let s := d.port p
  if p < 144 && s.lstate = 7 && (s.rxPwr = 1 || s.rxPwr = 2) && !s.wakeSent then
    (d.modPort p fun s => { s with wakeSent := true }).sendCtrl p [0x07]
  else d

/-- A TEST block in an idle block slot while an in-service check runs (R293): the next 232 bits of PRBS31Q. -/
def Dev.sendTest (d : Dev) (p : Nat) : Dev :=
  if p < 144 && (d.port p).checkRunning then
    let (bits, s') := prbs31 232 (d.port p).prbs
    (d.modPort p fun s => { s with prbs := s' }).sendCtrl p (0x06#8 :: le 29 (ofBits bits))
  else d

/-- The five bytes of a PACER_ANSWER entry (R118). -/
def pacerBytes (e : PacerEntry) : List Byte := le 4 e.tag.toNat ++ le 1 (b2n e.accept)

/-- A PACER_ANSWER block with at most five entries. -/
def Dev.sendAnswers (d : Dev) (p : Nat) (es : List PacerEntry) : Dev :=
  d.sendCtrl p ([0x02, BitVec.ofNat 8 es.length] ++ es.flatMap pacerBytes)

/-- The pacer's answer to a G frame on edge port `p` (R120): the first copy now, with the repeats that wait, and its own repeat
in the next block. -/
def Dev.pacerAnswer (d : Dev) (p : Nat) (tag : BitVec 32) (accept : Bool) : Dev :=
  let e : PacerEntry := ⟨tag, accept⟩
  let old := (d.port p).repeats
  (d.modPort p fun s => { s with repeats := old.drop 4 ++ [e] }).sendAnswers p (e :: old.take 4)

/-- Frames and flits sent on a port (R146). -/
def Dev.countOut (d : Dev) (p : Nat) (f : Frame) : Dev :=
  d.modPort p fun s => { s with framesOut := bump 64 s.framesOut f.cls.code 1, flitsOut := bump 64 s.flitsOut f.cls.code f.flits }

/-- A link-local frame leaves port `p` (R117): every header field but OP, CLASS and LENGTH 0. It counts in class M, which R116 gives it (R146). -/
def Dev.sendLinkLocal (d : Dev) (p op : Nat) (payload : List Byte) : Dev :=
  let f : Frame := { op := BitVec.ofNat 8 op, cls := .m, length := BitVec.ofNat 12 payload.length, payload := payload }
  ((d.resumeTx p).countOut p f).emit (.linkLocal p f.sealAll)

/-- NODE_ASSIGN on edge port `p` with a node and a slice (R284). -/
def Dev.sendNodeAssign (d : Dev) (p node slice : Nat) : Dev :=
  (d.modPort p fun s => { s with assignSent := node ≠ 0xFFFF }).sendLinkLocal p 0x51
    (le 2 node ++ le 2 slice ++ le 1 d.ident.straps.plane.toNat ++ le 1 p ++ zeros 2)

/-! ### Perturbations that touch frames (R420) -/

/-- Active perturbation objects of a kind on a target. -/
def Dev.active (d : Dev) (kind : Nat) (target : BitVec 32) : List Nat :=
  tkeys d.test.perturbs fun _ x => x.state = 1 && x.kind = kind && x.target = target

/-- Perturbation object `i`. -/
def Dev.perturb (d : Dev) (i : Nat) : Perturb := tget d.test.perturbs i {}

/-- Perturbation object `i` changed by `f`. -/
def Dev.modPerturb (d : Dev) (i : Nat) (f : Perturb → Perturb) : Dev :=
  { d with test := { d.test with perturbs := tmod d.test.perturbs i {} f } }

/-- One more frame, operation, codeword or mesh cycle affected. -/
def Dev.applied (d : Dev) (i : Nat) : Dev := d.modPerturb i fun x => { x with applied := satAdd 64 x.applied 1 }

/-- A perturbation object ends, its port left alone (R419, R422). Starved credit is released, since LIMIT is cumulative. -/
def Dev.stopPerturb (d : Dev) (i cause : Nat) : Dev :=
  let x := d.perturb i
  if x.state ≠ 1 then d
  else
    let d := d.modPerturb i fun x => { x with state := 2, cause := cause, ended := d.now, on := false }
    if x.kind = 4 then d.modPort (x.target.toNat % 2 ^ 24) fun s => { s with starved := 0 } else d

/-- The codewords of a port's next period that a LANE_ERRORS perturbation hits, every PARAM_A-th since it was armed: they count as affected (R419,
R420 kind 8). -/
def Dev.laneErrors (d : Dev) (p : Nat) : Dev :=
  eachOf (bitsOf 8 (d.port p).txLanes.toNat) d fun d l =>
    eachOf (d.active 8 (obj 0x03 (16 * p + l))) d fun d i =>
      let x := d.perturb i
      let a := x.paramA.toNat
      let n := (x.cw + periodCodewords) / a
      let d := d.modPerturb i fun x => { x with applied := satAdd 64 x.applied n, cw := (x.cw + periodCodewords) % a }
      if n = 0 then d else d.emit (.laneErrors p l ((upTo n).map fun k => a - 1 - x.cw + a * k) x.paramB.toNat)

/-- The active objects of a kind on a target end (R422). -/
def Dev.endPerturbs (d : Dev) (kinds : List Nat) (target : BitVec 32) (cause : Nat) : Dev :=
  eachOf (tkeys d.test.perturbs fun _ x => x.state = 1 && kinds.contains x.kind && x.target = target) d fun d i => d.stopPerturb i cause

/-- A draw below a fraction of 65,536 (R420). -/
def Dev.chance (d : Dev) (fraction : Nat) : Bool × Dev :=
  let (v, d) := d.draw
  (decide (v.toNat % 65536 < fraction), d)

/-- Whether class bit `c` of a CLASS_MASK is set. -/
def maskHas (m : BitVec 4) (c : TClass) : Bool := m.getLsbD c.code

end Sys2Proof.Machine
end

