-- ==== Sys2Proof/Machine/Envelope.lean ====
section
/-!
DEFINITION. The confidential envelope (R113–R115), the keys of a slot (R347), replay windows (R352) and the attested set
(R343).
-/
namespace Sys2Proof.Machine

open Sys2Proof

/-- A string as ASCII bytes (R347). -/
def ascii (s : String) : List Byte := s.toList.map fun c => BitVec.ofNat 8 c.toNat

/-- The key slot in force of a slice (R350). -/
def Dev.slotOf (d : Dev) (i : Nat) : Option KeySlot :=
  (d.prot.keySlots.find? fun e => e.2.state = 1 && e.2.slice.toNat = i).map (·.2)

/-- The release record of a slice (R348). -/
def Dev.releaseOf (d : Dev) (i : Nat) : Option Release := d.prot.releases.find? fun r => r.slice.toNat = i

/-- The release record of a slice changed by `f`. -/
def Dev.modRelease (d : Dev) (i : Nat) (f : Release → Release) : Dev :=
  { d with prot := { d.prot with releases := d.prot.releases.map fun r => if r.slice.toNat = i then f r else r } }

/-- FRAME_KEY (R347). -/
def frameKey (k : KeySlot) : List Byte :=
  Config.hkdfExpand (Config.hkdfPrk k.rootKey) (ascii "IZH frame" ++ le 2 k.slice.toNat) 32

/-- POOL_KEY (R347). -/
def poolKey (k : KeySlot) : List Byte :=
  Config.hkdfExpand (Config.hkdfPrk k.rootKey) (ascii "IZH pool" ++ le 2 k.slice.toNat) 64

/-- The object key of an object of a confidential slice (R347). -/
def objectKey (d : Dev) (k : KeySlot) (cls inst : Nat) : BitVec 64 :=
  BitVec.ofNat 64 (unle (Config.hkdfExpand (Config.hkdfPrk k.rootKey)
    (ascii "IZH object" ++ le 2 d.node ++ le 1 cls ++ le 3 inst) 8))

/-- GCM IV (R114). -/
def gcmIv (counter : Nat) (f : Frame) : List Byte := le 8 counter ++ le 2 f.src.toNat ++ le 2 f.dst.toNat

/-- A frame of a confidential slice put into its envelope under a new COUNTER (R113, R114). Without a slot in force the
module holds no key: the envelope's bytes are free (log 15). -/
def Dev.conceal (d : Dev) (f : Frame) : Frame × Dev :=
  let s := f.slice.toNat
  let g := { f with conf := true }
  match d.slotOf s with
  | some k =>
    let c := ((d.releaseOf s).map (·.sendCounter)).getD 0 + 1
    let (ct, tag) := Config.gcmEncrypt (frameKey k) (gcmIv c f) (headerBytes (stillHeader g)) f.payload
    ({ g with payload := le 8 c ++ padTo f.payload.length ct ++ le 16 tag.toNat },
     d.modRelease s fun r => { r with sendCounter := c })
  | none =>
    let (a, d) := d.draw
    let (b, d) := d.draw
    let (e, d) := d.draw
    ({ g with payload := le 8 a.toNat ++ f.payload ++ le 8 b.toNat ++ le 8 e.toNat }, d)

/-- Where the floor of a source stands: the release record's table of 65,536 entries of 8 bytes in the pool's table area (R253, R352). -/
def Dev.floorAddr (d : Dev) (r : Release) (src : BitVec 16) : Nat := d.pool.tableBase + 2 ^ 19 * r.place + 8 * src.toNat

/-- The floor of a source. -/
def Dev.floorOf (d : Dev) (r : Release) (src : BitVec 16) : Nat := unle (memReads d.pool.mem (d.floorAddr r src) 8)

/-- The floor of a source written; on a mapped-out page it is refused, with a pool fault (R261). -/
def Dev.putFloor (d : Dev) (r : Release) (src : BitVec 16) (v : Nat) : Dev :=
  let a := d.floorAddr r src
  if d.pool.touchesOut a 8 then d.fault0 (areaRec a) else { d with pool := { d.pool with mem := memWrites d.pool.mem a (le 8 v) } }

/-- Whether COUNTER `c` of a source with floor `low` lies inside its replay window and has not been seen (R115, R352). -/
def windowAccepts (r : Release) (low : Nat) (src : BitVec 16) (c : Nat) : Bool :=
  low < c &&
    match r.windows.find? fun w => w.1 = src with
    | some (_, high, seen, _) => high < c + 4096 && !seen.contains c
    | none => true

/-- COUNTER `c` enters the window of a source with floor `low`, a new one where it has none (R352). -/
def windowEnter (r : Release) (low now : Nat) (src : BitVec 16) (c : Nat) : Release :=
  if r.windows.any fun w => w.1 = src then
    { r with windows := r.windows.map fun w =>
        if w.1 = src then (w.1, max w.2.1 c, (c :: w.2.2.1).filter fun x => max w.2.1 c < x + 4096, now) else w }
  else { r with windows := r.windows ++ [(src, max c low, [c], now)] }

/-- The replay windows of the module: slice, source, highest value and the time of its last frame. -/
def Dev.allWindows (d : Dev) : List (BitVec 10 × BitVec 16 × Nat × Nat) :=
  d.prot.releases.flatMap fun r => r.windows.map fun w => (r.slice, w.1, w.2.1, w.2.2.2)

/-- The window that has been idle longest is evicted: its highest value becomes the floor of its source (R352). -/
def Dev.evictWindow (d : Dev) : Dev :=
  match d.allWindows with
  | [] => d
  | w0 :: ws =>
    let old := ws.foldl (fun a w => if w.2.2.2 < a.2.2.2 then w else a) w0
    match d.prot.releases.find? fun r => r.slice = old.1 with
    | none => d
    | some r =>
      (d.modRelease r.slice.toNat fun r => { r with windows := r.windows.filter fun w => w.1 ≠ old.2.1 }).putFloor r old.2.1 old.2.2.1

/-- A new COUNTER of a source taken in: its window; a further source past the module's 16,384 (key, SRC) pairs evicts a window (R352). -/
def Dev.enterCounter (d : Dev) (r : Release) (src : BitVec 16) (c : Nat) : Dev :=
  let low := d.floorOf r src
  let d := if (r.windows.any fun w => w.1 = src) || d.allWindows.length < 16384 then d else d.evictWindow
  d.modRelease r.slice.toNat fun r => windowEnter r low d.now src c

/-- A confidential frame at its destination (R115): the plaintext payload when the tag verifies and the counter is new. Where the floor of its source
lies on a mapped-out page, the access is refused with a pool fault (R261) and the frame is not taken in (DESIGN CHOICE, log 185). -/
def Dev.reveal (d : Dev) (f : Frame) : Option (List Byte) × Dev :=
  let s := f.slice.toNat
  match d.slotOf s, d.releaseOf s with
  | some k, some r =>
    let c := num f.payload 0 8
    let p := f.payload.length - 24
    match Config.gcmDecrypt (frameKey k) (gcmIv c f) (headerBytes (stillHeader f)) (cut f.payload 8 p)
        (BitVec.ofNat 128 (num f.payload (8 + p) 16)) with
    | some pt =>
      if d.pool.touchesOut (d.floorAddr r f.src) 8 then (none, d.fault0 (areaRec (d.floorAddr r f.src)))
      else if windowAccepts r (d.floorOf r f.src) f.src c then (some (padTo p pt), d.enterCounter r f.src c) else (none, d)
    | none => (none, d)
  | _, _ => (none, d)

/-- Whether a frame's sender is in the attested set of its slice and spoke in the envelope (R34 step 3, R343). -/
def Dev.attested (d : Dev) (f : Frame) (sl : Nat) : Bool :=
  f.conf && (d.slotOf sl).isSome &&
    (f.src.toNat = d.node || ((d.releaseOf sl).map fun r => r.nodes.contains f.src).getD false)

/-- Answer of the own node to a request, in its envelope when the request came in one (R104, R343). -/
def Dev.answer (d : Dev) (q : Frame) (st backoff : Nat) (data : Option (List Byte)) : Frame × Dev :=
  let a := answerTo d.node q st backoff data
  if a.conf then d.conceal a else (a, d)

end Sys2Proof.Machine
end

