-- ==== Sys2Proof/Machine/Switch.lean ====
section
/-!
DEFINITION. The switch core: discards (R144, R145), queues, marks and spill (R123–R130), credit (R119, R132), the pacer's
judgement (R136–R139), and how a frame enters the switch, from a port or from an internal endpoint.
-/
namespace Sys2Proof.Machine

open Sys2Proof

/-! ### Counters and discards -/

/-- Reasons of R144 in the order of its first table, which is the order of DISCARD in the port object (R318). -/
def discHeader : Nat := 0
def discCheck : Nat := 1
def discStomped : Nat := 2
def discReserved : Nat := 3
def discIdentity : Nat := 4
def discMgmt : Nat := 5
def discHops : Nat := 6
def discSpill : Nat := 7
def discSlice : Nat := 8
def discDead : Nat := 9
def discConf : Nat := 10

/-- A discard counted against port `p` (R146). -/
def Dev.countDiscard (d : Dev) (p reason : Nat) : Dev :=
  d.modPort p fun s => { s with discards := bump 64 s.discards reason 1 }

/-- A discard counted against a slice (R144). -/
def Dev.countSlice (d : Dev) (i : Nat) : Dev := d.modSlice i fun s => { s with discards := s.discards + 1 }

/-- A completion whose tag is not outstanding, counted against the endpoint on port `p` (R144). -/
def Dev.countEp (d : Dev) (p : Nat) : Dev := { d with sw := { d.sw with epDiscard := tmod d.sw.epDiscard p 0 (· + 1) } }

/-- Flits released on a virtual channel: those by which a later bring-up lowered the allotment are paid first (R131), so that LIMIT never
goes back. -/
def payRelease (s : PortSt) (vc n : Nat) : PortSt :=
  let k := min n (s.owed.getD vc 0)
  { s with owed := lmod s.owed vc (· - k), released := lmod s.released vc fun x => (x + (n - k)) % 65536 }

/-- A frame whose flits are released while LIMIT of its channel is held counts as affected by the CREDIT_STARVE perturbations that hold it (R419,
R420 kind 4). -/
def Dev.countStarved (d : Dev) (p vc : Nat) : Dev :=
  eachOf ((d.active 4 (obj 0x02 p)).filter fun i => (d.perturb i).on && (d.perturb i).vcMask.getLsbD vc) d fun d i => d.applied i

/-- Throttle level in force: 4 while any force of R391 or R392 is on (R387). -/
def Dev.throttle (d : Dev) : Nat :=
  let p := d.power
  if p.forcedPin || p.forcedDroop || p.forcedPeak || p.forcedTj || p.forcedCool then 4 else p.level

/-- Line steps that a channel makes in 1 µs at its full rate: 38.4 GB/s of data are 600 lines (R246, R248). -/
def fullSteps : Nat := 600

/-- Line steps that a throttle level allows a channel in 1 µs, if it limits them (R387; DESIGN CHOICE, log 213). -/
def stepLimit (level : Nat) : Option Nat :=
  let of (share : Nat) : Option Nat := some (fullSteps * share / 100)
  match level with | 0 => none | 1 => of 75 | 2 => of 50 | 3 => of 35 | _ => of 25

/-- Line steps that a channel has made in the microsecond now running (R388). -/
def Dev.stepsOf (d : Dev) (chan : Nat) : Nat := if d.pool.stepsUs = d.now / 1000 then tget d.pool.steps chan 0 else 0

/-- Whether a channel may make `n` more line steps in this microsecond (R388). -/
def Dev.mayStep (d : Dev) (chan n : Nat) : Bool :=
  match stepLimit d.throttle with
  | none => true
  | some m => d.stepsOf chan + n ≤ m

/-- `n` line steps of a channel counted, where the level limits them (R388). -/
def Dev.countSteps (d : Dev) (chan n : Nat) : Dev :=
  if d.throttle = 0 then d
  else
    let t := if d.pool.stepsUs = d.now / 1000 then d.pool.steps else []
    d.modPool fun p => { p with stepsUs := d.now / 1000, steps := tmod t chan 0 (· + n) }

/-- O and B credit that an external input releases at a throttle level, in per cent of the port rate (R387); none: unlimited. -/
def creditShare (level : Nat) : Option Nat :=
  match level with | 0 => none | 1 => none | 2 => some 75 | 3 => some 50 | _ => some 25

/-- Flits that a share of the port rate carries in a time: 118.6 GB/s is 3.70625 flits per ns (R387; log 203 for the rate). -/
def shareFlits (share ns : Nat) : Nat := ns * 370625 * share / 10000000

/-- LIMIT advances by what has waited for it, lower channels first, by at most `n` flits (R388). -/
def payWaiting (s : PortSt) (n : Nat) : PortSt :=
  ((upTo 9).foldl (fun (a : PortSt × Nat) v =>
    let k := min a.2 (a.1.slow.getD v 0)
    (payRelease { a.1 with slow := lmod a.1.slow v (· - k) } v k, a.2 - k)) (s, n)).1

/-- Flits whose LIMIT waits. -/
def PortSt.slowSum (s : PortSt) : Nat := s.slow.foldl (· + ·) 0

/-- LIMIT as far as the level in force lets it advance by now (R387, R388; DESIGN CHOICE, log 212). -/
def PortSt.advance (s : PortSt) (level now : Nat) : PortSt :=
  if s.slowSum = 0 then s
  else { payWaiting s (match creditShare level with | none => s.slowSum | some x => shareFlits x (now - s.slowAt)) with slowAt := now }

/-- Flits of an external input released on a virtual channel (R119). At levels 2 to 4 those of an O or B frame on channels 0 to 7 advance LIMIT at
the level's share of the port rate only (R388). -/
def Dev.release (d : Dev) (p vc : Nat) (c : TClass) (n : Nat) : Dev :=
  if p < 144 then
    (d.countStarved p vc).modPort p fun s =>
      if (creditShare d.throttle).isSome && c ≠ .g && vc < 8 then
        { s with slow := lmod s.slow vc (· + n), slowAt := if s.slowSum = 0 then d.now else s.slowAt }
      else payRelease s vc n
  else d

/-- Frames and flits received on a port (R146). -/
def Dev.countFrame (d : Dev) (p : Nat) (f : Frame) : Dev :=
  d.modPort p fun s => { s with framesIn := bump 64 s.framesIn f.cls.code 1, flitsIn := bump 64 s.flitsIn f.cls.code f.flits }

/-- Frames and flits received, and the receiver's own count of R119. -/
def Dev.countIn (d : Dev) (p : Nat) (f : Frame) : Dev :=
  (d.countFrame p f).modPort p fun s => { s with rcvd := lmod s.rcvd f.vc fun x => (x + f.flits) % 65536 }

/-- The bring-up stage of a port as LSTATE counts it, that of the looped lanes in a loopback (R423). -/
def PortSt.stage (s : PortSt) : Nat := if s.lstate = 10 then s.loop else s.lstate

/-- A port's next bring-up stage. -/
def PortSt.toStage (s : PortSt) (n : Nat) : PortSt := if s.lstate = 10 then { s with loop := n } else { s with lstate := n }

/-- Whether frames come in on a port in loopback (R423): its lanes are deskewed. -/
def PortSt.loops (s : PortSt) : Bool := s.lstate = 10 && 6 ≤ s.loop

/-- A frame received in a loopback: it is counted (R423), and goes no further (DESIGN CHOICE, log 205). -/
def Dev.loopFrame (d : Dev) (p : Nat) (f : Frame) : Dev :=
  if !f.hchkOk then d.countDiscard p discHeader else d.countFrame p f

/-- Own frames are not originated while the module has no node number (R28). -/
def Dev.mayOriginate (d : Dev) : Bool := d.node ≠ 0xFFFF

/-- The internal endpoint on a port: 0–3 pool dies, 4–11 tile dies, 12 the control die (R29). -/
def epOfPort (p : Nat) : Nat := if p < 160 then (p - 144) / 4 else if p < 176 then 4 + (p - 160) / 2 else 12

/-- Whether the endpoint on an internal port is silent after a reset with operations outstanding (R87). -/
def Dev.epQuiet (d : Dev) (p : Nat) : Bool := 144 ≤ p && p ≤ 176 && d.now < tget d.req.quietUntil (epOfPort p) 0

/-- Port number that stands for Kamro die `k` as the origin of a frame (R145). -/
def kamroPort (k : Nat) : Nat := 202 + k

/-! ### Spill and queues -/

/-- Pages of the die's half of the spill region that may take blocks: not mapped out (R128, R253, R261). -/
def Dev.spillPages (d : Dev) (die : Nat) : List Nat :=
  ((upTo 64).map (6016 + 64 * die + ·)).filter fun g => !(d.pool.mappedOut.contains g || d.pool.mappedExtra.contains g)
/-- Bytes of a block (R128). -/
def blockBytes : Nat := 4096
/-- Queue spill cap (R127). -/
def spillCap : Nat := 4 * 2 ^ 30
/-- Refill level in flits (R127). -/
def refillLevel : Nat := 16384

/-- Parts of a die's SRAM that hold queues (R124): 0 class G, 1 classes O and B, 2 class M, by queue number. -/
def sramPart (q : Nat) : Nat := if q < 8 then 0 else if q < 24 then 1 else 2

/-- Flits of a part (R124): 24 MiB, 103 MiB, 1 MiB. -/
def partFlits (k : Nat) : Nat := (match k with | 0 => 24 | 1 => 103 | _ => 1) * 2 ^ 20 / 32

/-- Flits in a part of a die's SRAM. -/
def Dev.partUsed (d : Dev) (die k : Nat) : Nat :=
  (d.sw.queues.map fun e => if dieOf (e.1 / 25) = die && sramPart (e.1 % 25) = k then e.2.sramFlits else 0).foldl (· + ·) 0

/-- The shared trigger (R127): 87.5 % of 103 MiB, in flits. -/
def sharedTrigger : Nat := partFlits 1 * 7 / 8

/-- Once the shared trigger is passed, every O or B queue of the die above 8,192 flits starts to spill (R127). -/
def Dev.sharedSpill (d : Dev) (die : Nat) : Dev :=
  let big (k : Nat) (Q : OutQueue) : Bool := dieOf (k / 25) = die && sramPart (k % 25) = 1 && 8192 < Q.sramFlits
  if sharedTrigger < d.partUsed die 1 then
    { d with sw := { d.sw with queues := tmap d.sw.queues fun k Q => if big k Q then { Q with spilling := true } else Q } }
  else d

/-- Queue `q` of output `p` starts to spill where its threshold says so, and the die's O and B queues where the shared trigger does
(R127, R128). -/
def Dev.checkSpill (d : Dev) (p q : Nat) : Dev :=
  if sramPart q ≠ 1 then d
  else
    let d := if (d.port p).spillThresh < (d.queue p q).sramFlits then d.modQueue p q fun x => { x with spilling := true } else d
    d.sharedSpill (dieOf p)

/-- Bytes of a queue in spill. -/
def OutQueue.spillBytes (q : OutQueue) : Nat :=
  ((q.spilled ++ q.spillOpen).map fun x => 32 * x.f.flits).foldl (· + ·) 0

/-- Delay a perturbation puts on a frame that joins a queue (R420 kinds 1 and 2). -/
def Dev.perturbDelay (d : Dev) (p : Nat) (c : TClass) : Nat × Dev :=
  let on (k : Nat) := (d.active k (obj 0x02 p)).filter fun i => maskHas (d.perturb i).classMask c
  let fixed := (on 1).map fun i => (d.perturb i).paramA.toNat
  let d := eachOf (on 1) d fun d i => d.applied i
  (on 2).foldl (fun (acc : Nat × Dev) i =>
      let (v, d) := acc.2.draw
      (acc.1 + v.toNat % ((d.perturb i).paramA.toNat + 1), d.applied i))
    (fixed.foldl (· + ·) 0, d)

/-- Whether the block being filled takes no further frame of `n` flits (R128, R129): spill writes have fallen behind. -/
def OutQueue.blockFull (q : OutQueue) (n : Nat) : Bool :=
  blockBytes < (q.spillOpen.map fun x => 32 * x.f.flits).foldl (· + ·) 0 + 32 * n

/-- Whether an O or B frame of `n` flits goes to spill (R124, R128): its queue spills, or the shared part has no room for it. -/
def Dev.toSpill (d : Dev) (p q n : Nat) : Bool :=
  sramPart q = 1 && ((d.queue p q).spilling || partFlits 1 < d.partUsed (dieOf p) 1 + n)

/-- Whether a frame of `n` flits headed for queue `q` of output `p` must stay in input staging (R129): its queue is at its cap, or spills
while the die's half of the region is full or the spill writes are behind; or, in class G or M, its part of the SRAM is full (R124). -/
def Dev.withholds (d : Dev) (p q n : Nat) : Bool :=
  let x := d.queue p q
  let die := dieOf p
  if sramPart q = 1 then x.capped || (d.toSpill p q n && ((d.kamro die).spillFull || x.blockFull n))
  else partFlits (sramPart q) < d.partUsed die (sramPart q) + n

/-- A frame joins its queue at the die that holds its output (R123): it is marked behind more than the mark depth (R111), goes
to spill while the queue spills (R128), and its flits leave input staging (R119). -/
def Dev.join (d : Dev) (x : QFrame) : Dev :=
  let p := x.out
  let q := x.f.qno
  let (delay, d) := d.perturbDelay p x.f.cls
  let mark := x.f.cls ≠ .g && (d.port p).markDepth < d.obFlits p && !x.f.cm
  let x := { x with f := if mark then { x.f with cm := true } else x.f, marked := mark, eligibleAt := d.now + delay, blk := none }
  let spill := d.toSpill p q x.f.flits
  let d := d.modQueue p q fun Q =>
    if spill then { Q with spilling := true, spillOpen := Q.spillOpen ++ [x] } else { Q with sram := Q.sram ++ [x] }
  let d := d.modPort p fun s => { s with spillPeak := max s.spillPeak (d.queue p q).spillBytes }
  (d.checkSpill p q).release x.inp x.inVc x.f.cls x.f.flits

/-- A frame enters input staging of die `die` (R122, R129). -/
def Dev.stage (d : Dev) (die : Nat) (x : QFrame) : Dev := d.modKamro die fun k => { k with staging := k.staging ++ [x] }

/-- Whether one of these staged frames holds a later frame of its input back: in the same queue of the same output (R125), or on the same
virtual channel of the input, which waits while its next frame's queue takes none (R129). G frames wait for no queue of O or B (R132;
DEDUCED, log 172). -/
def Dev.heldBehind (d : Dev) (ahead : List QFrame) (x : QFrame) : Bool :=
  ahead.any fun y => y.inp = x.inp &&
    ((y.out = x.out && y.f.qno = x.f.qno) || (y.inVc = x.inVc && x.f.cls ≠ .g && d.withholds y.out y.f.qno y.f.flits))

/-- Whether a frame in staging of a die waits ahead of a frame (R125, R129). -/
def Dev.stagedAhead (d : Dev) (die : Nat) (x : QFrame) : Bool := d.heldBehind (d.kamro die).staging x

/-- A routed frame joins its queue, or waits in input staging for the bridge (R122) or for a queue that takes none (R129). -/
def Dev.toQueue (d : Dev) (x : QFrame) : Dev :=
  let die := dieOf x.inp
  if die ≠ dieOf x.out || d.withholds x.out x.f.qno x.f.flits || d.stagedAhead die x then
    d.stage die x
  else d.join x

/-- Frames of a die's staging whose output is on the die join their queues as long as those take them (R129). -/
def Dev.drainStaging (d : Dev) (die : Nat) : Dev :=
  let all := (d.kamro die).staging
  if all.isEmpty then d
  else
    eachOf all (d.modKamro die fun k => { k with staging := [] }) fun d x =>
      if dieOf x.out ≠ die || d.withholds x.out x.f.qno x.f.flits || d.stagedAhead die x then d.stage die x else d.join x

/-! ### Credit (R119, R132) -/

/-- Flits by which LIMIT is ahead of SENT on a channel of an external port. -/
def creditOf (s : PortSt) (vc : Nat) : Nat := (s.limit.getD vc 0 + 65536 - s.sent.getD vc 0) % 65536

/-- Whether the pool port's home withholds credit on a data channel: its posted-store buffer is full (R76), or a request of that channel
waits in the port's input buffer for a stream-table entry (R74). -/
def Dev.poolWithholds (d : Dev) (p vc : Nat) : Bool :=
  144 ≤ p && p < 160 && vc < 8 &&
    ((d.home ((p - 144) / 4)).withheld || (d.home ((p - 144) / 4)).heldIn.any fun o => o.pp = p - 144 && o.f.vc = vc)

/-- Whether downstream credit covers a whole frame (R126, R132): O and B leave the last 132 flits of a data channel to G. A pool port whose
home withholds credit covers no O or B frame from that moment, and G frames of 132 flits in all (R76); the spec does not say how many O and B
flits of credit are still out then (DESIGN CHOICE, log 173). -/
def Dev.creditCovers (d : Dev) (p : Nat) (f : Frame) : Bool :=
  let n := f.flits
  if p < 144 then
    let c := creditOf (d.port p) f.vc
    if f.cls = .o || f.cls = .b then n + 132 ≤ c else n ≤ c
  else if d.poolWithholds p f.vc then
    f.cls = .g && (d.port p).withheld.getD f.vc 0 + n ≤ 132
  else true

/-! ### Pacer (R136–R138) -/

/-- Flits per round a triple of input, output and slice may send (R138 step 1). -/
def Dev.budget (d : Dev) (i o s : Nat) : Nat :=
  (d.resvs.map fun e => if e.2.cur.valid && e.2.cur.input = i && e.2.cur.output = o && e.2.cur.slice.toNat = s
    then e.2.effective else 0).foldl (· + ·) 0

/-- Flits already admitted for a triple in the round. -/
def Dev.admittedOf (d : Dev) (t : Nat × Nat × Nat) : Nat := ((d.sw.admitted.find? fun e => e.1 = t).map (·.2)).getD 0

/-- The pacer judges a G frame of `n` flits (R138): admitted flits count for the triple and in its first record, a refusal in
every record of the triple (log 16). -/
def Dev.pacerJudge (d : Dev) (i o s n : Nat) : Bool × Dev :=
  let t := (i, o, s)
  let mine (r : Resv) : Bool := r.cur.valid && r.cur.input = i && r.cur.output = o && r.cur.slice.toNat = s
  if d.admittedOf t + n ≤ d.budget i o s then
    let adm := (t, d.admittedOf t + n) :: d.sw.admitted.filter fun e => e.1 ≠ t
    let d := { d with sw := { d.sw with admitted := adm } }
    match d.resvs.find? fun e => mine e.2 with
    | some e => (true, d.modResv e.1 fun r => { r with admitted := satAdd 64 r.admitted n })
    | none => (true, d)
  else
    (false, { d with resvs := tmap d.resvs fun _ r => if mine r then { r with refused := satAdd 32 r.refused 1 } else r })

/-! ### Frames without a route (R145) -/

/-- A NODE record (R355). -/
def nodeRec (dst : Nat) (p : Nat) : FaultRec :=
  { mkRec 3 0 5 (if dst < 0xC000 then obj 0x06 dst else obj 0x02 p) with node := BitVec.ofNat 16 dst }

/-- The node-table entry's own count (R151). -/
def Dev.countNode (d : Dev) (dst : Nat) : Dev :=
  match tfind d.rt.nodes dst with
  | some e => if e.valid then { d with rt := { d.rt with nodes := tset d.rt.nodes dst { e with discards := satAdd 32 e.discards 1 } } }
              else d
  | none => d

/-- INTER of a frame at its first module (R155). -/
def Dev.pickInter (d : Dev) (f : Frame) : BitVec 11 × Dev :=
  match d.rackOf f.dst.toNat with
  | none => (0, d)
  | some rd =>
    if rd = d.rack || f.cls = .m || isRelay f.opn then (BitVec.ofNat 11 rd, d)
    else if f.cls = .b then
      let (v, d) := d.draw
      (BitVec.ofNat 11 (selectRack d.rt (v.toNat % 2 ^ 32)), d)
    else (BitVec.ofNat 11 (selectRack d.rt (hashOf f)), d)

/-- What a frame that enters the switch carries with it: its input, the virtual channel it used there, its number, and itself
before routing. -/
structure Entry where
  fid : Nat
  inp : Nat
  vc  : Nat
  whole : Bool
  orig : Frame
deriving DecidableEq, Repr

/-- A new frame number. -/
def Dev.newFid (d : Dev) : Nat × Dev := (d.sw.nextFid, { d with sw := { d.sw with nextFid := d.sw.nextFid + 1 } })

/-- A frame sent on out of output `p`: the HOPS limit of R106, then its queue. -/
def Dev.putOut (d : Dev) (e : Entry) (p : Nat) (f : Frame) (held : Bool) : Dev :=
  if p < 144 && f.hops = 63 then (d.countDiscard p discHops).release e.inp e.vc f.cls f.flits
  else d.toQueue { fid := e.fid, f := f, inp := e.inp, out := p, arrived := d.now, whole := e.whole, inVc := e.vc, held := held, orig := e.orig }

/-- A routed frame is queued, held, or consumed; `dead` handles a frame without a route. -/
def Dev.putRouted (dead : Dev → Entry → Frame → Dev) (d : Dev) (e : Entry) (f : Frame) (r : Routed) : Dev :=
  match r with
  | .out p f => d.putOut e p f false
  | .hold p f => d.putOut e p f true
  | .dead => dead d e f
  | .own f =>
    match d.ownPlace (dieOf e.inp) f with
    | .port p => d.putOut e p f false
    | .combining k => (d.emit (.deliver (200 + k) f.sealHdr)).release e.inp e.vc f.cls f.flits
    | .noOwner => (d.countEp e.inp).release e.inp e.vc f.cls f.flits

/-- A frame without a route is discarded and counted (R144); nothing is answered. -/
def Dev.dropDead (rec : Dev → FaultRec → Dev) (d : Dev) (e : Entry) (f : Frame) : Dev :=
  let d := (d.countDiscard e.inp discDead).countNode f.dst.toNat
  (rec d { nodeRec f.dst.toNat e.inp with slice := f.slice }).release e.inp e.vc f.cls f.flits

/-- Whether a header holds a reserved encoding in a transit field (R108): DST, SRC, CLASS with OP, OP with LENGTH. -/
def transitReserved (f : Frame) : Bool :=
  f.dst = 0xFFFF#16 || f.src = 0xFFFF#16 || ((decide (f.cls = .m)) != isClassM f.opn) || 2048 < paySize f.opn f.length.toNat

/-- A frame that the Kamro die or an internal endpoint originates and that the pacer need not judge; what an internal port sends is received
there (R146). The die is the first module to parse it: one with a reserved encoding is discarded as corrupted (R8, R23). -/
def Dev.injectWith (rec : Dev → FaultRec → Dev) (dead : Dev → Entry → Frame → Dev) (d : Dev) (inp : Nat) (f : Frame) : Dev :=
  let (inter, d) := d.pickInter f
  let f := { f with inter := inter }.sealAll
  let d := if inp ≤ 176 then d.countIn inp f else d
  if transitReserved f then d.countDiscard inp discReserved
  else
    let (fid, d) := d.newFid
    let e : Entry := ⟨fid, inp, f.vc, true, f⟩
    let (r, evs) := d.routeFrame inp f
    Dev.putRouted dead (eachOf evs d rec) e f r

/-- R145: an acknowledged request for a dead or unknown node is answered TARGET_DEAD by the Kamro die, in class O; anything
else is only discarded. ECHO is 0: the request reached no home whose CM it could copy (R107 names the request's CM as it arrived at the home;
DESIGN CHOICE, log 174). -/
def Dev.dropAnswered (rec : Dev → FaultRec → Dev) (d : Dev) (e : Entry) (f : Frame) : Dev :=
  let d := Dev.dropDead rec d e f
  if isAcked f.opn && f.cls ≠ .m && d.mayOriginate then
    let (a, d) := d.answer { f with cls := .o, cm := false } 0x06 0 none
    Dev.injectWith rec (Dev.dropDead rec) d (kamroPort (dieOf e.inp)) a
  else d

/-! ### Events of the fault queue (R358) -/

/-- A class M frame from the control die: the fields of R117. -/
def mgmtFrame (src dst op tag : Nat) (payload : List Byte) : Frame :=
  { dst := BitVec.ofNat 16 dst, src := BitVec.ofNat 16 src, op := BitVec.ofNat 8 op, cls := .m, tag := BitVec.ofNat 32 tag,
    length := BitVec.ofNat 12 payload.length, payload := payload }

/-- MGMT_EVENT with a record (R358). -/
def Dev.sendEvent (d : Dev) (r : FaultRec) : Dev :=
  if d.mayOriginate && !d.epQuiet 176 then
    let t := d.host.nextMgmtTag
    let d := { d with host := { d.host with nextMgmtTag := (t + 1) % 2 ^ 32 } }
    Dev.injectWith Dev.fault0 (Dev.dropDead Dev.fault0) d 176
      (mgmtFrame d.node d.faults.eventNode.toNat opMGMT_EVENT t r.bytes)
  else d

/-- The MGMT_EVENTs of records queued while a frame was being sent. -/
def Dev.sendDue (d : Dev) : Dev :=
  eachOf d.faults.toSend { d with faults := { d.faults with toSend := [] } } Dev.sendEvent

/-- A fault is detected: record, vector and MGMT_EVENT (R356–R358). -/
def Dev.fault (d : Dev) (r : FaultRec) : Dev := (faultWith Dev.sendEvent d r).sendDue

/-! ### Frames at their destination -/

/-- The check of a frame whose last flit has arrived fails (R110). -/
def Dev.countBadCheck (d : Dev) (p : Nat) (f : Frame) : Dev :=
  d.countDiscard p (if f.isStomped then discStomped else discCheck)

/-- A frame of a confidential slice opened at its destination (R115): the plaintext frame, or none with its record. -/
def Dev.openFrame (d : Dev) (f : Frame) : Option Frame × Dev :=
  if !f.conf then (some f, d)
  else
    match d.reveal f with
    | (some pt, d) => (some { f with payload := pt }, d.sendDue)
    | (none, d) =>
      (none, (d.countSlice f.slice.toNat).fault { mkRec 10 0 5 (obj 0x09 f.slice.toNat) with node := f.src, slice := f.slice })

/-- A frame as a destination takes it: its header check (R109), its frame check (R110), its slice (R43), its envelope (R115). Behind an internal
port no SYNC follows, so that a bad header costs the frame alone. -/
def Dev.takeIn (d : Dev) (port : Nat) (f : Frame) : Option Frame × Dev :=
  if !f.hchkOk then (none, d.countDiscard port discHeader)
  else if !f.checkOk then (none, d.countBadCheck port f)
  else if d.tornDown f.slice.toNat then (none, d.countSlice f.slice.toNat)
  else d.openFrame f

/-! ### Originating frames -/

/-- Whether a staged frame waits because the spill writes of its queue are behind (R129). -/
def Dev.waitsBlock (d : Dev) (x : QFrame) : Bool :=
  d.toSpill x.out x.f.qno x.f.flits && (d.queue x.out x.f.qno).blockFull x.f.flits

/-- The events of R129's last case: spill writes fall behind arrivals, so that a frame stays in staging, or have caught up. -/
def Dev.behindEvents (d : Dev) : Dev :=
  let late := (d.sw.kamro.flatMap fun e => e.2.staging).filter d.waitsBlock
  let d := eachOf late d fun d x =>
    if (d.queue x.out x.f.qno).behind then d
    else (d.modQueue x.out x.f.qno fun Q => { Q with behind := true }).fault (mkRec 5 0 0 (obj 0x02 x.out))
  eachOf (tkeys d.sw.queues fun k Q => Q.behind && !(late.any fun x => x.out = k / 25 && x.f.qno = k % 25)) d fun d k =>
    (d.modQueue (k / 25) (k % 25) fun Q => { Q with behind := false }).fault { mkRec 5 1 0 (obj 0x02 (k / 25)) with ended := true }

/-- Room has come free on a die: staged frames move on, with the end of what held them (R129). -/
def Dev.settleStaging (d : Dev) (die : Nat) : Dev := (d.drainStaging die).behindEvents

/-- A frame of the module itself that the pacer does not judge: class O, B or M, or the Kamro die's own. -/
def Dev.inject (d : Dev) (inp : Nat) (f : Frame) : Dev :=
  (Dev.injectWith Dev.fault (Dev.dropAnswered Dev.fault) d inp f).behindEvents

/-- The output a G frame is judged against (R138): none where it has no route or its hop is held. -/
def judgedOutput (d : Dev) (inp : Nat) (r : Routed) : Option Nat :=
  match r with
  | .out p _ => some p
  | .own f => match d.ownPlace (dieOf inp) f with | .port p => some p | _ => none
  | _ => none

/-- PACER_ACCEPT or PACER_REFUSE of an input counted (R146). -/
def Dev.countPacer (d : Dev) (inp : Nat) (ok : Bool) : Dev :=
  d.modPort inp fun s => if ok then { s with pacerAccept := satAdd 64 s.pacerAccept 1 } else { s with pacerRefuse := satAdd 64 s.pacerRefuse 1 }

/-- A G frame that an internal request interface presents, routed to `r`, before the pacer (R138): whether it is admitted. -/
def Dev.judgeG (d : Dev) (inp : Nat) (f : Frame) (r : Routed) : Bool × Dev :=
  let (ok, d) := match judgedOutput d inp r with
    | some o => d.pacerJudge inp o f.slice.toNat f.flits
    | none => (true, d)
  (ok, d.countPacer inp ok)

/-- A G frame of an internal endpoint is presented to the pacer (R84, R138): whether it is admitted. -/
def Dev.present (d : Dev) (inp : Nat) (f : Frame) : Bool × Dev :=
  let (inter, d) := d.pickInter f
  d.judgeG inp f (d.routeFrame inp { f with inter := inter }).1

/-- Whether a G frame of the same stream already waits at the endpoint (R97). -/
def Dev.streamWaits (d : Dev) (inp : Nat) (f : Frame) : Bool :=
  d.sw.gWait.any fun w => w.inp = inp && tagStream w.f.tag = tagStream f.tag

/-- An internal endpoint sends a frame (R29). A G frame that the pacer refuses is presented again in a later round, ahead of
later frames of its stream (R97). Nothing is sent without a node number (R28) or within 200 µs of a reset with operations outstanding (R87). -/
def Dev.originate (d : Dev) (inp : Nat) (f : Frame) : Dev :=
  if !d.mayOriginate || d.epQuiet inp then d
  else if f.cls = .g then
    if d.streamWaits inp f then { d with sw := { d.sw with gWait := d.sw.gWait ++ [⟨inp, f⟩] } }
    else
      match d.present inp f with
      | (true, d) => d.inject inp f
      | (false, d) => { d with sw := { d.sw with gWait := d.sw.gWait ++ [⟨inp, f⟩] } }
  else d.inject inp f

/-- G frames that were refused are presented again, in order (R97). -/
def Dev.representAll (d : Dev) : Dev :=
  let all := d.sw.gWait
  eachOf all { d with sw := { d.sw with gWait := [] } } fun d w => d.originate w.inp w.f

/-- The answer of an internal endpoint on port `inp` to a request. -/
def Dev.reply (d : Dev) (inp : Nat) (q : Frame) (st backoff : Nat) (data : Option (List Byte)) : Dev :=
  let (a, d) := d.answer q st backoff data
  d.originate inp a

/-! ### Reservations (R136, R139) -/

/-- Sum of FLITS of the valid records through a port, as input or as output, leaving record `skip` out. -/
def Dev.resvSum (d : Dev) (asOutput : Bool) (p skip : Nat) : Nat :=
  (d.resvs.map fun e => if e.1 ≠ skip && e.2.fields.valid && (if asOutput then e.2.fields.output else e.2.fields.input) = p
    then e.2.fields.flits else 0).foldl (· + ·) 0

/-- Sum of FLITS of the valid records that cross the bridge from a die. -/
def Dev.bridgeSum (d : Dev) (die skip : Nat) : Nat :=
  (d.resvs.map fun e => if e.1 ≠ skip && e.2.fields.valid && dieOf e.2.fields.input = die && dieOf e.2.fields.output ≠ die
    then e.2.fields.flits else 0).foldl (· + ·) 0

/-- Whether the pacer accepts record `i` with new contents (R136). -/
def Dev.resvFits (d : Dev) (i : Nat) (x : ResvFields) : Bool :=
  x.flits * 4 ≤ 3 * min (portCap x.input 8) (portCap x.output 8) &&
  d.resvSum true x.output i + x.flits ≤ d.outCap x.output &&
  d.resvSum false x.input i + x.flits ≤ d.inCap x.input &&
  (dieOf x.input = dieOf x.output || d.bridgeSum (dieOf x.input) i + x.flits ≤ 829000)

/-- The free record an internal endpoint takes for a reservation: the lowest that is not valid, before and after the boundary. -/
def Dev.freeResv (d : Dev) : Option Nat :=
  (upTo 16384).find? fun i => !(d.resv i).fields.valid && !(d.resv i).cur.valid

/-- An internal endpoint makes a reservation (R137): its record, or refused. -/
def Dev.reserve (d : Dev) (owner inst input output slice flits : Nat) : Option (Nat × Dev) :=
  let x : ResvFields := ⟨flits, input, output, BitVec.ofNat 10 slice, true⟩
  match d.freeResv with
  | none => none
  | some i =>
    if d.resvFits i x then
      some (i, { d with resvs := tset d.resvs i { fields := x, owner := owner, ownerInst := inst } })
    else none

/-- The reservations of an owner released (R137); they govern admission until the next round boundary, which frees the records. -/
def Dev.releaseOwner (d : Dev) (owner inst : Nat) : Dev :=
  { d with resvs := tmap d.resvs fun _ r =>
      if r.owner = owner && r.ownerInst = inst then { r with fields := { r.fields with valid := false } } else r }

/-- EFFECTIVE of a record after scaling on both of its ports (R139). -/
def Dev.effectiveOf (d : Dev) (x : ResvFields) : Nat :=
  let scaled (asOutput : Bool) (p cap : Nat) : Nat :=
    let sum := d.resvSum asOutput p 16384
    if cap < sum then x.flits * cap / sum else x.flits
  let cap := d.outCap x.output
  if x.valid then min (scaled true x.output (if d.throttle = 4 then cap / 4 else cap)) (scaled false x.input (d.inCap x.input)) else 0

/-- Whether the reservations through a port exceed its capacity in a direction (R139). -/
def Dev.overbooked (d : Dev) (p : Nat) : Bool :=
  d.outCap p < d.resvSum true p 16384 || d.inCap p < d.resvSum false p 16384

/-- A port narrows or widens: one BUFFER event where its reservations no longer fit (R139). -/
def Dev.widthChanged (d : Dev) (p : Nat) : Dev :=
  if d.overbooked p then d.fault (mkRec 5 0 0 (obj 0x02 p)) else d

end Sys2Proof.Machine
end

