-- ==== Sys2Proof/Machine/Combine.lean ====
section
/-!
DEFINITION. The combining units of the two Kamro dies (R77–R82) and their events.
-/
namespace Sys2Proof.Machine

open Sys2Proof

/-- Port number that stands for the combining unit of a die as an input. -/
def combPort (k : Nat) : Nat := 200 + k

/-- Whether the combining unit parses DTYPE of a frame (R77): an atomic for a pool offset of this module that entered on an
external port of this die and is delivered here. -/
def combParses (d : Dev) (inp : Nat) (f : Frame) : Bool :=
  decide (inp < 144) && isAtomicOp f.opn && f.dst.toNat = d.node && inPool f.offset.toNat

/-- Whether a frame it parses is eligible (R77). A frame whose check fails is not combined (log 17). -/
def combEligible (f : Frame) : Bool :=
  f.dtype.toNat ≤ 4 && !f.retry && !f.resend && !f.noCombine && !f.conf && f.checkOk

/-- Whether an entry is for the same key (R77). -/
def combMatches (e : CombEntry) (f : Frame) : Bool :=
  e.node = f.dst && e.offset = f.offset && e.length = f.length && e.dtype = f.dtype && e.kind = atomicKind f.opn &&
    e.key = f.key && e.slice = f.slice

/-- Free member-result records (R82). -/
def KamroSt.freeRecords (k : KamroSt) : Nat := 65536 - k.records.length - k.reserved

/-- A member joins an entry: it takes one of the entry's reserved records (R82). -/
def joinEntry (k : KamroSt) (id : Nat) (f : Frame) (inp : Nat) : KamroSt :=
  { k with combine := k.combine.map fun e => if e.id = id then { e with members := e.members ++ [⟨f, inp, f.cm⟩] } else e,
           records := k.records ++ [⟨f.src, f.tag, none⟩], reserved := k.reserved - 1 }

/-- The combined request of an entry (R79). -/
def combinedFrame (me : Nat) (e : CombEntry) (retry : Bool) : Frame :=
  let fetch := e.members.any fun m => atomicFetches m.f.opn
  let xs := e.members.map fun m => unle m.f.payload
  let x := match xs with | [] => 0 | a :: r => r.foldl (atomicOp e.kind e.dtype.toNat) a
  let n := e.length.toNat
  { dst := e.node, src := BitVec.ofNat 16 me, offset := e.offset, dtype := e.dtype, length := e.length, tag := e.tag,
    key := e.key, op := BitVec.ofNat 8 ((if fetch then 0x14 else 0x10) + e.kind), cls := .o, slice := e.slice, retry := retry,
    payload := le n x }

/-- An OPEN entry's combined request is sent (R78, R79); the records it has not used are returned (R82). -/
def Dev.sendCombined (d : Dev) (die id : Nat) : Dev :=
  let k := d.kamro die
  match k.combine.find? fun e => e.id = id && e.st = .opened with
  | none => d
  | some e =>
    let tag := BitVec.ofNat 32 ((0x3FFE + die) * 2 ^ 18 + k.combSeq % 2 ^ 18)
    let e := { e with st := .sent, tag := tag }
    let d := d.modKamro die fun k =>
      { k with combine := k.combine.map fun x => if x.id = id then e else x, combSeq := k.combSeq + 1,
               reserved := k.reserved - (32 - e.members.length) }
    d.inject (combPort die) (combinedFrame d.node e false)

/-- An eligible request at the unit (R78): true when it became a member. -/
def Dev.combine (d : Dev) (die inp : Nat) (f : Frame) : Bool × Dev :=
  let k := d.kamro die
  let mine := k.combine.filter fun e => combMatches e f
  let full (d : Dev) (id : Nat) : Dev :=
    if ((d.kamro die).combine.any fun e => e.id = id && e.members.length = 32) then d.sendCombined die id else d
  match mine.find? fun e => e.st = .opened with
  | some e => (true, full (d.modKamro die fun k => joinEntry k e.id f inp) e.id)
  | none =>
    match mine.find? fun e => e.st = .watch with
    | some e =>
      if k.freeRecords < 32 then (false, d)
      else
        (true, d.modKamro die fun k =>
          joinEntry { k with combine := k.combine.map fun x => if x.id = e.id then { x with st := .opened } else x,
                             reserved := k.reserved + 32 } e.id f inp)
    | none =>
      let e : CombEntry :=
        { id := k.nextComb, st := .watch, node := f.dst, offset := f.offset, length := f.length, dtype := f.dtype,
          kind := atomicKind f.opn, key := f.key, slice := f.slice }
      if 4096 ≤ k.combine.length then (false, d)
      else if mine.isEmpty then
        (false, d.modKamro die fun k => { k with combine := k.combine ++ [e], nextComb := k.nextComb + 1 })
      else if k.freeRecords < 32 then (false, d)
      else
        (true, d.modKamro die fun k =>
          joinEntry { k with combine := k.combine ++ [{ e with st := .opened }], nextComb := k.nextComb + 1,
                             reserved := k.reserved + 32 } e.id f inp)

/-- The stored answer to a retry whose member has finished (R82). -/
def Dev.storedAnswer (d : Dev) (die : Nat) (c : Frame) : Dev := d.inject (combPort die) c

/-- A frame the unit parses, at its input (R77, R78, R82): true when it is consumed here. -/
def Dev.combining (d : Dev) (inp : Nat) (f : Frame) : Bool × Dev :=
  let die := dieOf inp
  if f.retry && f.checkOk then
    match (d.kamro die).records.find? fun r => r.src = f.src && r.tag = f.tag with
    | some r => match r.done with
      | some c => (true, d.storedAnswer die c)
      | none => (true, d)
    | none => (false, d)
  else if combEligible f then d.combine die inp f
  else (false, d)

/-- Member `i`'s value of a fetching combined request (R80): V op x0 … op x(i−1). -/
def memberValue (e : CombEntry) (v i : Nat) : Nat :=
  ((e.members.take i).map fun m => unle m.f.payload).foldl (atomicOp e.kind e.dtype.toNat) v

/-- The completion of member `i` (R81). -/
def memberAnswer (me : Nat) (e : CombEntry) (st backoff : Nat) (echo : Bool) (v i : Nat) (m : Member) : Frame :=
  let q := { m.f with cm := m.cm || echo }
  answerTo me q st backoff (if st = 0 && atomicFetches m.f.opn then some (le e.length.toNat (memberValue e v i)) else none)

/-- An entry ends: every member is answered, its record keeps the answer (R81, R82), and the entry frees. -/
def Dev.endEntry (d : Dev) (die : Nat) (e : CombEntry) (st backoff : Nat) (echo : Bool) (v : Nat) : Dev :=
  let d := d.modKamro die fun k => { k with combine := k.combine.filter fun x => x.id ≠ e.id }
  eachOf (e.members.zip (upTo e.members.length)) d fun d mi =>
    let a := memberAnswer d.node e st backoff echo v mi.2 mi.1
    let d := d.modKamro die fun k => { k with records := k.records.map fun r =>
      if r.src = mi.1.f.src && r.tag = mi.1.f.tag then { r with done := some a } else r }
    d.inject (combPort die) a

/-- COMBINE_WATCH_EXPIRY (R78): 128 ns after the last eligible request for the key. -/
def combineWatchExpiryD (k : Kamro) (id : Nat) (d : Dev) : Dev :=
  d.modKamro k fun x => { x with combine := x.combine.filter fun e => !(e.id = id && e.st = .watch) }

/-- COMBINE_OPEN_TIMER (R78): 128 ns after the entry opened. -/
def combineOpenTimerD (k : Kamro) (id : Nat) (d : Dev) : Dev := d.sendCombined k id

/-- COMBINED_REQUEST_TIMEOUT (R79, R81): one retry under the same tag, then every member is answered TARGET_DEAD. -/
def combinedRequestTimeoutD (k : Kamro) (id : Nat) (d : Dev) : Dev :=
  match (d.kamro k).combine.find? fun e => e.id = id && e.st = .sent with
  | none => d
  | some e =>
    if e.retried then
      let d := d.fault (mkRec 9 0x06 0 (obj 0x01 0))
      d.endEntry k e 0x06 0 false 0
    else
      let d := d.modKamro k fun x =>
        { x with combine := x.combine.map fun y => if y.id = id then { y with retried := true } else y }
      d.inject (combPort k) (combinedFrame d.node e true)

/-- The code as which a received status is taken: a code of 0x80–0xFF, which no module sends, counts as lost (R13), and is handed on as
TARGET_DEAD, the code of R10 for a lost operation that travels in frames (DESIGN CHOICE, log 180). -/
def fateCode (st : Nat) : Nat := if 0x80 ≤ st then 0x06 else st

/-- COMBINED_COMPLETION (R80, R81), once the unit has taken the frame in (R109, R110). A completion whose tag is not outstanding is counted and
discarded (R62), one with a reserved BACKOFF is discarded as corrupted (R108). -/
def combinedCompletionD (k : Kamro) (f0 : Frame) (d : Dev) : Dev :=
  match d.takeIn (combPort k) f0 with
  | (none, d) => d
  | (some f, d) =>
    if 10 < f.backoff then d.countDiscard (combPort k) discReserved
    else
      match (d.kamro k).combine.find? fun e => e.st = .sent && e.tag = f.tag with
      | none => d.countEp (combPort k)
      | some e => d.endEntry k e (fateCode f.status) f.backoff f.echo (unle f.payload)

/-- MEMBER_RECORD_EXPIRY (R82): 100 µs after the member finished. -/
def memberRecordExpiryD (k : Kamro) (src : BitVec 16) (tag : BitVec 32) (d : Dev) : Dev :=
  d.modKamro k fun x => { x with records := x.records.filter fun r => !(r.src = src && r.tag = tag && r.done.isSome) }

/-- Meaning of COMBINE_WATCH_EXPIRY. -/
def execCombineWatchExpiry (k : Kamro) (id : Nat) (s : State) : Host.Outcome State Fault Refusal :=
  .next (s.onDev (combineWatchExpiryD k id))

/-- Meaning of COMBINE_OPEN_TIMER. -/
def execCombineOpenTimer (k : Kamro) (id : Nat) (s : State) : Host.Outcome State Fault Refusal :=
  .next (s.onDev (combineOpenTimerD k id))

/-- Meaning of COMBINED_REQUEST_TIMEOUT. -/
def execCombinedRequestTimeout (k : Kamro) (id : Nat) (s : State) : Host.Outcome State Fault Refusal :=
  .next (s.onDev (combinedRequestTimeoutD k id))

/-- Meaning of COMBINED_COMPLETION. -/
def execCombinedCompletion (k : Kamro) (f : Frame) (s : State) : Host.Outcome State Fault Refusal :=
  .next (s.onDev (combinedCompletionD k f))

/-- Meaning of MEMBER_RECORD_EXPIRY. -/
def execMemberRecordExpiry (k : Kamro) (src : BitVec 16) (tag : BitVec 32) (s : State) : Host.Outcome State Fault Refusal :=
  .next (s.onDev (memberRecordExpiryD k src tag))

end Sys2Proof.Machine
end

