-- ==== Sys2Proof/Machine/Arrival.lean ====
section
/-!
DEFINITION. Frames entering a die: FRAME_ARRIVAL (R154 with the checks of R25, R108, R109, R117, R120, R138), FRAME_CHECK
(R110), BRIDGE_GRANT (R122, R133).
-/
namespace Sys2Proof.Machine

open Sys2Proof

/-- Whether a port is an edge port (R149). -/
def Dev.isEdge (d : Dev) (p : Nat) : Bool := p < 144 && (d.port p).kind = 1

/-- Whether a frame carries the identity assigned to its edge port (R25, R284). -/
def identityOk (d : Dev) (p : Nat) (f : Frame) : Bool :=
  (d.port p).assignSent && d.edgeNode p = some f.src.toNat && (d.port p).slice = f.slice

/-- An entry of PACER_ANSWER and the counters of R146. A frame with the refused TAG that is answered ACCEPT 1, judged or not, ends the
refusals of its stream (R120). -/
def Dev.answerG (d : Dev) (p : Nat) (f : Frame) (accept : Bool) : Dev :=
  let d := d.countPacer p accept
  let d := if accept then d.modPort p fun s => { s with streamHolds := s.streamHolds.filter fun h => h.2 ≠ f.tag } else d
  d.pacerAnswer p f.tag accept

/-- A frame discarded on arrival: its flits are released, and a G frame of an edge port is answered ACCEPT 1 (R120). -/
def Dev.discardFrame (d : Dev) (p : Nat) (f : Frame) : Dev :=
  let d := d.release p f.vc f.cls f.flits
  if d.isEdge p && f.cls = .g then d.answerG p f true else d

/-- A frame discarded on arrival for `reason`, counted against its input (R144). -/
def Dev.rejectFrame (d : Dev) (p : Nat) (f : Frame) (reason : Nat) : Dev := (d.countDiscard p reason).discardFrame p f

/-- A header check fails (R109): the frame and every block up to the next SYNC are discarded, and RESYNC_REQ is set. An internal port has no SYNC: what
follows on it is discarded until its Kamro die resets (DESIGN CHOICE, log 202). -/
def Dev.headerFailure (d : Dev) (p : Nat) : Dev :=
  (d.countDiscard p discHeader).modPort p fun s => { s with discarding := true, resyncReq := true }

/-- Whether a frame number is still in a queue or in staging. -/
def Dev.holdsFid (d : Dev) (fid : Nat) : Bool :=
  d.sw.queues.any (fun e => (e.2.sram ++ e.2.spillOpen ++ e.2.spilled).any fun x => x.fid = fid) ||
  d.sw.kamro.any (fun e => e.2.staging.any fun x => x.fid = fid)

/-- A routed frame is placed, and its last flit awaited when it has a payload. -/
def Dev.place (d : Dev) (p : Nat) (f : Frame) (vc : Nat) (r : Routed) : Dev :=
  let (fid, d) := d.newFid
  let whole := decide (f.area = 0)
  let d := Dev.putRouted (Dev.dropAnswered Dev.fault) d ⟨fid, p, vc, whole, f⟩ f r
  if !whole && d.holdsFid fid then { d with sw := { d.sw with rxOpen := d.sw.rxOpen ++ [(p, fid)] } } else d

/-- A G frame of an edge port before the pacer (R120, R138): after a refusal, later frames of its stream are refused until its
TAG arrives again. Such a refusal is not judged against a pair's records, so that REFUSED of R137 does not count it: the spec counts frames
refused against the record's pair and slice, and does not say whether these are (DESIGN CHOICE, log 175). -/
def Dev.admitEdge (d : Dev) (p : Nat) (f : Frame) (r : Routed) : Bool × Dev :=
  let st := BitVec.ofNat 14 (tagStream f.tag)
  match (d.port p).streamHolds.find? fun h => h.1 = st && h.2 ≠ f.tag with
  | some _ => (false, d)
  | none =>
    match judgedOutput d p r with
    | none => (true, d)
    | some o =>
      let (ok, d) := d.pacerJudge p o f.slice.toNat f.flits
      let rest := (d.port p).streamHolds.filter fun h => h.1 ≠ st
      (ok, d.modPort p fun s => { s with streamHolds := if ok then rest else (st, f.tag) :: rest })

/-- FRAME_ARRIVAL from the routing on: combining (R77), admission (R138), the queue. -/
def Dev.enterFrame (d : Dev) (p : Nat) (f0 : Frame) : Dev :=
  -- the first module (R138): a G frame on an internal port that another module sent is not judged again
  let first := d.isEdge p || (144 ≤ p && f0.src.toNat = d.node)
  let (inter, d) := if first then d.pickInter f0 else (f0.inter, d)
  let f := { f0 with inter := inter }
  let (r, evs) := d.routeFrame p f
  let here := match r with | .own _ => true | _ => false
  if here && combParses d p f && 8 ≤ f.dtype.toNat then d.rejectFrame p f discReserved
  else
    let d := eachOf evs d Dev.fault
    let (ok, d) :=
      if f.cls ≠ .g || !first then (true, d)
      else if d.isEdge p then let (ok, d) := d.admitEdge p f r; (ok, d.answerG p f ok)
      else d.judgeG p f r
    if !ok then d.release p f0.vc f0.cls f.flits
    else
      let (taken, d) := if here && combParses d p f then d.combining p f else (false, d)
      if taken then d.release p f0.vc f0.cls f.flits else d.place p f f0.vc r

/-- FRAME_ARRIVAL (R154). -/
def frameArrivalD (p : Port) (f : Frame) (d : Dev) : Dev :=
  if (d.port p).loops then d.loopFrame p f
  else if !(d.kamro (dieOf p)).up || !d.inService p || (d.port p).discarding then d
  else if !f.hchkOk then d.headerFailure p
  else if isLinkLocal f.opn && f.cls = .m then d
  else
    let d := d.countIn p f
    if transitReserved f then d.rejectFrame p f discReserved
    else
      let edge := d.isEdge p
      let d := if edge && f.cls ≠ .m then d.modPort p fun s => { s with recentFrame := true, lastFrameNs := d.now } else d
      if edge && f.cls = .m then d.rejectFrame p f discMgmt
      else if edge && !identityOk d p f then d.rejectFrame p f discIdentity
      else if d.tornDown f.slice.toNat then (d.countSlice f.slice.toNat).discardFrame p f
      else (d.enterFrame p f).behindEvents

/-- Every frame in a queue or in staging changed, or dropped where `g` answers none. A frame that has not arrived whole is in no block of the
spill region (R128), so that none of its bytes is in spill. -/
def Dev.mapFrames (d : Dev) (g : QFrame → Option QFrame) : Dev :=
  let q (x : OutQueue) : OutQueue :=
    { x with sram := x.sram.filterMap g, spillOpen := x.spillOpen.filterMap g, spilled := x.spilled.filterMap g }
  { d with sw := { d.sw with queues := tmap d.sw.queues fun _ x => q x,
                             kamro := tmap d.sw.kamro fun _ k => { k with staging := k.staging.filterMap g } } }

/-- The frames still coming in on a port are lost with the blocks that hold the rest of them (R109): their flits in input staging are released,
and one already being sent on cut-through ends with the inverse of its check (R110). The event is counted once, by its cause. -/
def Dev.dropOpenFrames (d : Dev) (p : Nat) : Dev :=
  let fids := (d.sw.rxOpen.filter fun e => e.1 = p).map (·.2)
  let d := { d with sw := { d.sw with rxOpen := d.sw.rxOpen.filter fun e => e.1 ≠ p } }
  let staged := (d.sw.kamro.flatMap fun e => e.2.staging).filter fun x => fids.contains x.fid
  let d := d.mapFrames fun y => if fids.contains y.fid then none else some y
  let d := eachOf staged d fun d x => d.release p x.inVc x.f.cls x.f.flits
  (eachOf (d.sw.cuts.filter fun c => fids.contains c.fid) d fun d c => d.sendTail c.out c.fid (~~~ (fcheckOf c.f))).behindEvents

/-- A header-check failure in the block stream of a port, an uncorrectable codeword or a block with neither header (R109, R271, R277): what
was coming in is lost with it. -/
def Dev.blockFailure (d : Dev) (p : Nat) : Dev :=
  if (d.port p).discarding then d else (d.headerFailure p).dropOpenFrames p

/-- FRAME_CHECK (R110): the oldest unfinished frame of the input. -/
def frameCheckD (p : Port) (d : Dev) : Dev :=
  match d.sw.rxOpen.find? fun e => e.1 = p.val with
  | none => d
  | some (_, fid) =>
    let d := { d with sw := { d.sw with rxOpen := removeFirst (fun e => e.1 = p.val) d.sw.rxOpen } }
    match d.sw.cuts.find? fun c => c.fid = fid with
    | some c =>
      if c.f.checkOk then d.sendTail c.out fid c.f.fcheck
      else (d.countBadCheck p c.f).sendTail c.out fid (~~~ (fcheckOf c.f))
    | none =>
      let staged := d.sw.kamro.any fun e => e.2.staging.any fun x => x.fid = fid
      let all := d.sw.queues.flatMap (fun e => e.2.sram ++ e.2.spillOpen ++ e.2.spilled) ++
        d.sw.kamro.flatMap fun e => e.2.staging
      match all.find? fun x => x.fid = fid with
      | none => d
      | some x =>
        if x.f.checkOk then d.mapFrames fun y => some (if y.fid = fid then { y with whole := true } else y)
        else
          let d := (d.mapFrames fun y => if y.fid = fid then none else some y).countBadCheck p x.f
          (if staged then d.release p x.inVc x.f.cls x.f.flits else d).settleStaging (dieOf x.out)

/-- Age bucket of R133. -/
def ageBucket (now arrived : Nat) : Nat := min 15 ((now - arrived) / 256)

/-- The better of two frames under R133 and R122: G first, the oldest among G; then the higher age bucket; then the turn of the
round-robin pointer `rr` over the 25 kinds of queue. -/
def betterFrame (now rr : Nat) (a b : QFrame) : Bool :=
  let turn (x : QFrame) : Nat := (x.f.qno + 25 - rr) % 25
  if (a.f.cls = .g) != (b.f.cls = .g) then a.f.cls = .g
  else if a.f.cls = .g then a.arrived < b.arrived
  else
    let x := ageBucket now a.arrived
    let y := ageBucket now b.arrived
    y < x || (x = y && turn a < turn b)

/-- The frames that may cross the bridge out of a die: those whose queue takes them and that follow none of their own flow (R125, R129). -/
def Dev.crossing (d : Dev) (die : Nat) (ahead : List QFrame) (l : List QFrame) : List QFrame :=
  match l with
  | [] => []
  | x :: r =>
    let rest := Dev.crossing d die (ahead ++ [x]) r
    if dieOf x.out ≠ die && !d.withholds x.out x.f.qno x.f.flits && !d.heldBehind ahead x then x :: rest else rest

/-- BRIDGE_GRANT (R122): the frame the bridge takes joins its queue on the other die. The pointer of R133 is kept under `kamroPort` of the die
the bridge leaves, and moves past a winner that is not class G within its reservations, which all G that crosses is (R136). -/
def bridgeGrantD (k : Kamro) (d : Dev) : Dev :=
  let rr := tget d.sw.rr (kamroPort k) 0
  match d.crossing k [] (d.kamro k).staging with
  | [] => d
  | x :: r =>
    let w := r.foldl (fun best y => if betterFrame d.now rr y best then y else best) x
    let d := d.modKamro k fun s => { s with staging := s.staging.filter fun y => y.fid ≠ w.fid }
    let d := if w.f.cls = .g then d else { d with sw := { d.sw with rr := tset d.sw.rr (kamroPort k) ((w.f.qno + 1) % 25) } }
    (d.join { w with arrived := d.now }).settleStaging k

/-- Meaning of FRAME_ARRIVAL. -/
def execFrameArrival (p : Port) (f : Frame) (s : State) : Host.Outcome State Fault Refusal :=
  .next (s.onDev (frameArrivalD p f))

/-- Meaning of FRAME_CHECK. -/
def execFrameCheck (p : Port) (s : State) : Host.Outcome State Fault Refusal := .next (s.onDev (frameCheckD p))

/-- Meaning of BRIDGE_GRANT. -/
def execBridgeGrant (k : Kamro) (s : State) : Host.Outcome State Fault Refusal := .next (s.onDev (bridgeGrantD k))

end Sys2Proof.Machine
end

