-- ==== Sys2Proof/Machine/Requester.lean ====
section
/-!
DEFINITION. The module's internal requesters (R29): stream contexts (R64), tags (R65), the order of one stream (R67–R69),
re-sends (R75), and the congestion limiter (R83).
-/
namespace Sys2Proof.Machine

open Sys2Proof

/-! ### Streams (R64, R154) -/

/-- Endpoints are numbered 0–3 pool dies, 4–11 tile dies, 12 control die. The port of a stream of an endpoint (R154). -/
def epPort (ep stream : Nat) : Nat :=
  if ep < 4 then 144 + 4 * ep + stream % 4 else if ep < 12 then 160 + 2 * (ep - 4) + stream % 2 else 176

/-- The context of a stream number. -/
def Dev.ctx (d : Dev) (stream : Nat) : Option StreamCtx := d.req.streams.find? fun c => c.stream = stream

/-- The context of a stream number changed by `f`. -/
def Dev.modCtx (d : Dev) (stream : Nat) (f : StreamCtx → StreamCtx) : Dev :=
  { d with req := { d.req with streams := d.req.streams.map fun c => if c.stream = stream then f c else c } }

/-- Both dies' stream-owner tables changed (R154). -/
def Dev.setOwner (d : Dev) (stream : Nat) (port : Option Nat) : Dev :=
  eachOf [0, 1] d fun d k => d.modKamro k fun s =>
    { s with owners := match port with | some p => tset s.owners stream p | none => tdel s.owners stream }

/-- A stream context opened (R64): the lowest free number with remainder `rem` modulo `per`, which fixes its port; the module's
16,384 contexts are shared and 0x3FFE and 0x3FFF are the combining units'. R64 asks only that the number be unique (DESIGN CHOICE, log 198). -/
def Dev.openStream (d : Dev) (ep : Nat) (cls : TClass) (slice timeoutUs per rem : Nat) : Option (Nat × Dev) :=
  match (upTo 0x3FFE).find? fun n => n % per = rem && (d.ctx n).isNone with
  | none => none
  | some n =>
    let c : StreamCtx := { stream := n, ep := ep, inp := epPort ep n, cls := cls, slice := BitVec.ofNat 10 slice,
                           plane := d.ident.straps.plane.toNat, timeoutUs := timeoutUs }
    some (n, { d with req := { d.req with streams := d.req.streams ++ [c] } }.setOwner n (some (epPort ep n)))

/-! ### Tags (R65) -/

/-- Nanoseconds a tag is held after its last use has ended (R65). -/
def tagHoldNs : Nat := 200000

/-- Whether a tag's last use ended less than 200 µs ago (R65). -/
def Dev.tagHeld (d : Dev) (t : BitVec 32) : Bool := d.req.tagEnds.any fun e => e.1 = t && d.now < e.2 + tagHoldNs

/-- A list of tags without one. -/
def dropTag (t : BitVec 32) (l : List (BitVec 32)) : List (BitVec 32) := l.filter fun x => x ≠ t

/-- Whether a fence has nothing left to wait for (R96). -/
def FenceSt.over (f : FenceSt) : Bool := f.waitsAll.isEmpty && f.waitsStores.isEmpty && f.drain.all fun e => e.2 = 0

/-- Operations that satisfy `gone` leave the table: the use of their tags ends (R65) and no fence waits for them any more (R96). -/
def Dev.dropOps (d : Dev) (gone : OutOp → Bool) : Dev :=
  let ts := (d.req.ops.filter gone).map (·.tag)
  let left (l : List (BitVec 32)) : List (BitVec 32) := l.filter fun t => !ts.contains t
  let held := d.req.tagEnds.filter fun e => d.now < e.2 + tagHoldNs
  { d with req := { d.req with ops := d.req.ops.filter fun o => !gone o, tagEnds := held ++ ts.map (·, d.now),
                               fences := (d.req.fences.map fun f => { f with waitsAll := left f.waitsAll, waitsStores := left f.waitsStores }).filter
                                 fun f => !f.over } }

/-- An operation removed from the table. -/
def Dev.dropOp (d : Dev) (tag : BitVec 32) : Dev := d.dropOps fun o => o.tag = tag

/-- A stream context closed; its operations go with it. -/
def Dev.closeStream (d : Dev) (n : Nat) : Dev :=
  let d := d.dropOps fun o => tagStream o.tag = n
  let gone (f : FenceSt) : FenceSt := { f with streams := f.streams.filter fun m => m ≠ n, drain := tdel f.drain n }
  { d with req := { d.req with streams := d.req.streams.filter fun c => c.stream ≠ n,
                               fences := (d.req.fences.map gone).filter fun f => !f.over } }.setOwner n none

/-! ### Order on one stream -/

/-- Path of an operation: destination and page (R68). -/
def opPath (f : Frame) : BitVec 16 × Nat := (f.dst, pageOf f.offset.toNat)

/-- Bytes an operation touches at its target. -/
def touched (f : Frame) : Nat :=
  if f.opn = 0x04 || f.opn = 0x05 then f.length.toNat / 72 * 64 else f.length.toNat

/-- Whether two operations share a 64-byte granule of one node (R67). -/
def granulesMeet (a b : Frame) : Bool :=
  let hi (f : Frame) : Nat := (f.offset.toNat + max 1 (touched f) - 1) / 64
  a.dst = b.dst && a.offset.toNat / 64 ≤ hi b && b.offset.toNat / 64 ≤ hi a && a.opn ≠ opFLUSH && b.opn ≠ opFLUSH

/-- Whether an operation has acquire, or release, in its ORD field (R69). -/
def isAcquire (f : Frame) : Bool := f.ord = .acquire || f.ord = .acqRel
/-- As above, release. -/
def isRelease (f : Frame) : Bool := f.ord = .release || f.ord = .acqRel

/-- Whether a release waits for an earlier operation, or for the posted stores of a path, with target `dst`: by its scope (R69, R93). -/
def releaseWaits (me : Nat) (f : Frame) (dst : BitVec 16) : Bool :=
  isRelease f && (f.scope = .fabric || (f.scope ≠ .tile && dst.toNat = me))

/-- Whether an earlier operation of the stream holds a later one back (R67–R69, R75, R93). -/
def holdsBack (me : Nat) (cls : TClass) (a b : OutOp) : Bool :=
  a.phase = .refused && a.f.dst = b.f.dst ||
  a.phase = .waiting && (cls ≠ .b || granulesMeet a.f b.f) ||
  granulesMeet a.f b.f ||
  isAcquire a.f ||
  releaseWaits me b.f a.f.dst ||
  (cls ≠ .b && opPath a.f ≠ opPath b.f)

/-- Whether an operation reads: LOAD, a fetching atomic, CAS (R96). -/
def isRead (op : Nat) : Bool := op = opLOAD || op = opCAS || (isAtomicOp op && atomicFetches op)

/-- Whether an operation is one that a release fence holds back: a STORE form, an atomic, CAS, REDUCE_STORE (R96). -/
def isStoreLike (op : Nat) : Bool := op ≠ opLOAD && op ≠ opFLUSH

/-- Whether a fence holds an operation of one of its streams back (R96). -/
def FenceSt.holds (f : FenceSt) (o : OutOp) : Bool :=
  f.streams.contains (tagStream o.tag) && !f.before.contains o.tag &&
    (!f.waitsAll.isEmpty || (isStoreLike o.f.opn && !f.waitsStores.isEmpty))

/-- Whether an operation may be sent now: its endpoint is not silent (R87), its tag is free (R65), no earlier operation and no fence holds it
back (R96), its node is not backing off (R75), and no path with unflushed posted stores must be drained first (R68, R69, R93). -/
def Dev.maySend (d : Dev) (c : StreamCtx) (before : List OutOp) (o : OutOp) : Bool :=
  !d.epQuiet c.inp && !d.tagHeld o.tag && !(d.req.fences.any fun f => f.holds o) &&
    !(before.any fun a => holdsBack d.node c.cls a o) && !(c.blocked.any fun b => b.1 = o.f.dst) &&
    (o.f.opn = opFLUSH || c.postedOn.all fun p => p = opPath o.f && !releaseWaits d.node o.f p.1)

/-- The frame of an attempt: in the envelope for a confidential slice, the control die's excepted (R343). The automatic retry of an operation
that was re-sent carries RETRY and not RESEND: R70 lists the RETRY flag for it, R75 gives RESEND to a re-send, and neither says whether a retry
keeps RESEND (DESIGN CHOICE, log 182). -/
def Dev.sendAttempt (d : Dev) (c : StreamCtx) (o : OutOp) : Dev :=
  let f := { o.f with retry := o.retried, resend := o.resends > 0 && !o.retried }
  let (f, d) := if d.isConf c.slice.toNat && c.ep ≠ 12 then d.conceal f else (f, d)
  (d.originate c.inp f).sendDue

/-- An operation replaced in the table by its tag. -/
def Dev.setOp (d : Dev) (o : OutOp) : Dev :=
  { d with req := { d.req with ops := d.req.ops.map fun x => if x.tag = o.tag then o else x } }

/-- A record of a replay is sent (R374). -/
def Dev.countReplayed (d : Dev) (why : Purpose) : Dev :=
  match why with
  | .replay => { d with faults := { d.faults with replayed := d.faults.replayed + 1 } }
  | _ => d

/-- One waiting operation of a stream sent if it may be. A posted store leaves the table as it is sent. -/
def Dev.tryOp (d : Dev) (stream : Nat) (tag : BitVec 32) : Dev :=
  match d.ctx stream, d.req.ops.find? fun o => o.tag = tag && o.phase = .waiting with
  | some c, some o =>
    let before := (d.req.ops.takeWhile fun x => x.tag ≠ tag).filter fun x => tagStream x.tag = stream
    if d.maySend c before o then
      if isPosted o.f.opn then
        let d := (d.dropOp tag).modCtx stream fun c =>
          { c with postedOn := if c.postedOn.contains (opPath o.f) then c.postedOn else c.postedOn ++ [opPath o.f] }
        let pass (x : OutOp) : OutOp :=
          if tagStream x.tag = stream && x.phase = .flying && opPath x.f = opPath o.f then { x with behind := true } else x
        let d := { d with req := { d.req with ops := d.req.ops.map pass } }
        d.sendAttempt c o
      else ((d.setOp { o with phase := .flying }).countReplayed o.why).sendAttempt c o
    else d
  | _, _ => d

/-- Every waiting operation of a stream that may be sent is sent, in program order. -/
def Dev.pump (d : Dev) (stream : Nat) : Dev :=
  eachOf ((d.req.ops.filter fun o => tagStream o.tag = stream && o.phase = .waiting).map (·.tag)) d
    fun d t => d.tryOp stream t

/-- Every waiting operation that may be sent is sent, stream by stream. -/
def Dev.pumpAll (d : Dev) : Dev :=
  eachOf (((d.req.ops.filter fun o => o.phase = .waiting).map fun o => tagStream o.tag).eraseDups) d Dev.pump

/-- An endpoint resets (R87): with operations outstanding it originates nothing for 200 µs, so that the tags it used age out; its limiters are
at link rate and its streams close. -/
def Dev.endpointReset (d : Dev) (ep : Nat) : Dev :=
  let busy := d.req.ops.any fun o => o.ep = ep
  let d := if busy then { d with req := { d.req with quietUntil := tset d.req.quietUntil ep (d.now + tagHoldNs) } } else d
  let d := { d with req := { d.req with limiters := d.req.limiters.filter fun l => l.ep ≠ ep } }
  eachOf ((d.req.streams.filter fun c => c.ep = ep).map (·.stream)) d Dev.closeStream

/-- The next tag of a stream (R65): the next sequence number whose tag no operation of the stream holds. A tag whose last use ended less than
200 µs ago is taken too; its operation is sent once it is free (`Dev.maySend`). -/
def Dev.nextTag (d : Dev) (stream : Nat) : BitVec 32 × Dev :=
  let n := tget d.req.seqs stream 0
  let used := (d.req.ops.filter fun o => tagStream o.tag = stream).map (·.tag)
  let tag (k : Nat) : BitVec 32 := BitVec.ofNat 32 (stream * 2 ^ 18 + (n + k) % 2 ^ 18)
  let k := ((upTo (used.length + 1)).find? fun k => !used.contains (tag k)).getD 0
  (tag k, { d with req := { d.req with seqs := tset d.req.seqs stream ((n + k + 1) % 2 ^ 18) } })

/-- Whether a fence waits for an operation with OP `op` and target `dst` that came before it (R93, R96): for every later access, and for later
stores. -/
def fenceWaits (me : Nat) (k : FenceKind) (s : Scp) (op : Nat) (dst : BitVec 16) : Bool × Bool :=
  let inScope := s = .fabric || (s ≠ .tile && dst.toNat = me)
  let read := isRead op
  match k with
  | .acquire => (inScope && read, false)
  | .release => (false, inScope)
  | .acqRel  => (inScope && read, inScope)
  | .seqCst  => (inScope, inScope)

/-- An operation that comes before a fence: those behind the fence wait for it where its wait set holds it. Posted stores end no other way
than by a FLUSH on their path (R96). -/
def FenceSt.addBefore (me : Nat) (f : FenceSt) (o : OutOp) : FenceSt :=
  let (all, stores) := fenceWaits me f.kind f.scope o.f.opn o.f.dst
  let put (b : Bool) (l : List (BitVec 32)) : List (BitVec 32) := if b && !isPosted o.f.opn then l ++ [o.tag] else l
  { f with before := f.before ++ [o.tag], waitsAll := put all f.waitsAll, waitsStores := put stores f.waitsStores }

/-- An operation added at the end of its stream's program order, under the stream's slice (R64). Where it comes from words that stood in the
agent's staging buffers before a fence, it comes before the fence (R93). -/
def Dev.addOp (d : Dev) (c : StreamCtx) (f : Frame) (why : Purpose) : BitVec 32 × Dev :=
  let (t, d) := d.nextTag c.stream
  let f := { f with tag := t, src := BitVec.ofNat 16 d.node, cls := c.cls, slice := c.slice }
  let o : OutOp := { tag := t, ep := c.ep, inp := c.inp, f := f, why := why }
  let fences := d.req.fences.map fun x =>
    if x.streams.contains c.stream && 0 < tget x.drain c.stream 0 then x.addBefore d.node o else x
  (t, { d with req := { d.req with ops := d.req.ops ++ [o], fences := fences } })

/-- The FLUSHes an operation needs ahead of it (R68, R69, R93): on every path with unflushed posted stores that it must drain. -/
def flushesFor (me : Nat) (c : StreamCtx) (f : Frame) : List (BitVec 16 × Nat) :=
  if f.opn = opFLUSH then [] else c.postedOn.filter fun p => p ≠ opPath f || releaseWaits me f p.1

/-- A FLUSH frame on a path (R61). -/
def flushFrame (p : BitVec 16 × Nat) : Frame :=
  { dst := p.1, offset := BitVec.ofNat 48 (p.2 * 2 ^ 29), op := BitVec.ofNat 8 opFLUSH }

/-- The paths of a stream with posted stores since their last completion, those counted that still wait to be sent (R68). -/
def Dev.postedPaths (d : Dev) (c : StreamCtx) : List (BitVec 16 × Nat) :=
  let later := (d.req.ops.filter fun o => tagStream o.tag = c.stream && isPosted o.f.opn).map fun o => opPath o.f
  (c.postedOn ++ later).eraseDups

/-- An internal endpoint issues an operation on a stream, after the FLUSHes it needs (R64–R69). `f` gives DST, OFFSET, OP,
DTYPE, LENGTH, KEY, ORD, SCOPE and payload. -/
def Dev.issue (d : Dev) (stream : Nat) (f : Frame) (why : Purpose) : Dev :=
  match d.ctx stream with
  | none => d
  | some c =>
    if !d.mayOriginate then d else
    let d := eachOf (flushesFor d.node { c with postedOn := d.postedPaths c } f) d fun d p => (d.addOp c (flushFrame p) .flush).2
    let (_, d) := d.addOp c f why
    d.pump stream

/-- A fence of an agent with these streams (R93, R96). `staged` counts the words in the staging buffers of each stream, which drain ahead of it.
A release side needs a FLUSH on every path of its scope that carried posted stores since its last completion. A fence with nothing to wait for
completes at once. -/
def Dev.fence (d : Dev) (k : FenceKind) (s : Scp) (streams : List Nat) (staged : Tbl Nat) : Dev :=
  if s = .tile then d
  else
    let paths := if k = .acquire then [] else streams.flatMap fun n => match d.ctx n with
      | some c => ((d.postedPaths c).filter fun p => s = .fabric || p.1.toNat = d.node).map fun p => (c, p)
      | none => []
    let d := eachOf paths d fun d x => (d.addOp x.1 (flushFrame x.2) .flush).2
    let f : FenceSt := { kind := k, scope := s, streams := streams, drain := staged }
    let f := (d.req.ops.filter fun o => streams.contains (tagStream o.tag)).foldl (fun f o => f.addBefore d.node o) f
    let d := if f.over then d else { d with req := { d.req with fences := d.req.fences ++ [f] } }
    d.pumpAll

/-- Whether a fence lets words behind it leave the staging buffer of a stream: a fence whose earlier words have not all left their buffers holds
the later ones (R93, R96), stores alone where its kind holds back no reads. -/
def Dev.fenceTakes (d : Dev) (stream : Nat) (store : Bool) : Bool :=
  d.req.fences.all fun f => !f.streams.contains stream || 0 < tget f.drain stream 0 || (f.drain.all fun e => e.2 = 0) ||
    (f.kind = .release && !store)

/-- `n` words have left the staging buffer of a stream. -/
def Dev.fenceDrained (d : Dev) (stream n : Nat) : Dev :=
  let f (x : FenceSt) : FenceSt := { x with drain := tmap x.drain fun k m => if k = stream then m - n else m }
  if d.req.fences.isEmpty then d
  else { d with req := { d.req with fences := (d.req.fences.map f).filter fun x => !x.over } }.pumpAll

/-! ### Congestion limiter (R83) -/

/-- Link rate of the limiter. -/
def linkRate : Nat := 2 ^ 40
/-- Floor: 1/256 of link rate. -/
def rateFloor : Nat := 2 ^ 32

/-- A trigger for decrease at an endpoint for a node: × 0.75, at most once per 4 µs, not below the floor. A table of 1,024
destinations that is full takes no further entry: a further destination has the lowest rate in it (`Dev.limiterRate`). -/
def Dev.limiterDecrease (d : Dev) (ep : Nat) (node : BitVec 16) : Dev :=
  let mine := d.req.limiters.filter fun l => l.ep = ep
  let cut (l : Limiter) : Limiter :=
    match l.lastDec with
    | some t => if d.now < t + 4000 then l else { l with rate := max rateFloor (l.rate * 3 / 4), lastDec := some d.now }
    | none => { l with rate := max rateFloor (l.rate * 3 / 4), lastDec := some d.now }
  if mine.any fun l => l.node = node then
    { d with req := { d.req with limiters := d.req.limiters.map fun l => if l.ep = ep && l.node = node then cut l else l } }
  else if mine.length < 1024 then
    { d with req := { d.req with limiters := d.req.limiters ++ [cut { ep := ep, node := node, rate := linkRate }] } }
  else d

/-- The rate at which an endpoint may send request bytes to a node on O and B streams (R83): that of its entry; without one, link rate, or the
lowest rate in the table while the table is full. -/
def Dev.limiterRate (d : Dev) (ep : Nat) (node : BitVec 16) : Nat :=
  let mine := d.req.limiters.filter fun l => l.ep = ep
  match mine.find? fun l => l.node = node with
  | some l => l.rate
  | none => if mine.length < 1024 then linkRate else mine.foldl (fun r l => min r l.rate) linkRate

/-- CONG_NOTICE (R83, R116), once it is taken in (R109, R110, R115): a trigger at the endpoint that owns the stream. -/
def congNoticeD (p : Port) (f0 : Frame) (d : Dev) : Dev :=
  match d.takeIn p f0 with
  | (none, d) => d
  | (some f, d) =>
    match d.ctx (tagStream f.tag) with
    | some c => d.limiterDecrease c.ep f.src
    | none => d.countEp p

/-- LIMITER_INCREASE (R83): + 1/32 of link rate after 4 µs without a trigger, up to link rate. -/
def limiterIncreaseD (ep : Fin 13) (node : BitVec 16) (d : Dev) : Dev :=
  { d with req := { d.req with limiters := d.req.limiters.map fun l =>
      if l.ep = ep.val && l.node = node then { l with rate := min linkRate (l.rate + linkRate / 32) } else l } }

/-- LIMITER_ENTRY_FREE (R83): after 1 ms at link rate. -/
def limiterEntryFreeD (ep : Fin 13) (node : BitVec 16) (d : Dev) : Dev :=
  { d with req := { d.req with limiters := d.req.limiters.filter fun l =>
      !(l.ep = ep.val && l.node = node && l.rate = linkRate) } }

/-- Re-sends of a stream to a node start once the back-off has elapsed and no attempt to the node is outstanding (R75): every
refused operation, in program order, with RESEND. -/
def Dev.resendRefused (d : Dev) (stream : Nat) (node : BitVec 16) : Dev :=
  match d.ctx stream with
  | none => d
  | some c =>
    let mine := d.req.ops.filter fun o => tagStream o.tag = stream && o.f.dst = node
    if (c.blocked.any fun b => b.1 = node && b.2) && !(mine.any fun o => o.phase = .flying) then
      let d := d.modCtx stream fun c => { c with blocked := c.blocked.filter fun b => b.1 ≠ node }
      let d := eachOf (mine.filter fun o => o.phase = .refused) d fun d o =>
        let o := { o with phase := .flying, resends := o.resends + 1, retried := false, behind := false }
        (d.setOp o).sendAttempt c o
      d.pump stream
    else d

/-- BACKOFF_ELAPSED (R75). -/
def backoffElapsedD (stream : BitVec 14) (node : BitVec 16) (d : Dev) : Dev :=
  (d.modCtx stream.toNat fun c => { c with blocked := c.blocked.map fun b => if b.1 = node then (node, true) else b }).resendRefused
    stream.toNat node

/-- Meaning of CONG_NOTICE. -/
def execCongNotice (p : Port) (f : Frame) (s : State) : Host.Outcome State Fault Refusal := .next (s.onDev (congNoticeD p f))

/-- Meaning of LIMITER_INCREASE. -/
def execLimiterIncrease (ep : Fin 13) (node : BitVec 16) (s : State) : Host.Outcome State Fault Refusal :=
  .next (s.onDev (limiterIncreaseD ep node))

/-- Meaning of LIMITER_ENTRY_FREE. -/
def execLimiterEntryFree (ep : Fin 13) (node : BitVec 16) (s : State) : Host.Outcome State Fault Refusal :=
  .next (s.onDev (limiterEntryFreeD ep node))

/-- Meaning of BACKOFF_ELAPSED. -/
def execBackoffElapsed (stream : BitVec 14) (node : BitVec 16) (s : State) : Host.Outcome State Fault Refusal :=
  .next (s.onDev (backoffElapsedD stream node))

end Sys2Proof.Machine
end

