-- ==== Sys2Proof/Machine/InputLog.lean ====
section
/-!
DEFINITION. The pool areas (R253), the input log ring (R372, R373), the buddy (R375) and the mirror (R376).
-/
namespace Sys2Proof.Machine

open Sys2Proof

/-! ### Mapped-out pages (R261) -/

/-- An engine's access to a mapped-out page of the residual, log or table area is refused with POISONED; the pool fault names the area by the
offset accessed (R261; DESIGN CHOICE, log 185). -/
def Dev.areaFault (d : Dev) (off : Nat) : Dev := d.fault (areaRec off)

/-! ### Buddy (R375) -/

/-- The first rack with a node number, one step on at a time in a dimension of the domain, that is not the own rack. -/
def buddyIn (r : RoutingSt) (plane own i : Nat) : Option Nat :=
  ((upTo (r.w i)).map fun k =>
      setCoord own i ((r.s i + ((coord own i + r.n i - r.s i) % r.n i + k + 1) % r.w i) % r.n i)).find?
    fun x => x ≠ own && moduleNode plane x ≠ 0xFFFF

/-- The buddy's node number (R375): the next module along x, else y, else z; none in a one-rack domain. -/
def Dev.buddy (d : Dev) : Option Nat :=
  let dim := if 1 < d.rt.xw then some 0 else if 1 < d.rt.yw then some 1 else if 1 < d.rt.zw then some 2 else none
  match dim with
  | none => none
  | some i => (buddyIn d.rt d.ident.straps.plane.toNat d.rack i).map (moduleNode d.ident.straps.plane.toNat)

/-- Node whose ring this module mirrors: the module that has this one as its buddy (R253, R375). -/
def Dev.mirrorSourceOf (d : Dev) : Option Nat :=
  let plane := d.ident.straps.plane.toNat
  let dim := if 1 < d.rt.xw then some 0 else if 1 < d.rt.yw then some 1 else if 1 < d.rt.zw then some 2 else none
  match dim with
  | none => none
  | some i =>
    ((upTo (d.rt.w i)).map fun k =>
        setCoord d.rack i ((d.rt.s i + ((coord d.rack i + d.rt.n i - d.rt.s i) % d.rt.n i + (d.rt.w i - 1 - k)) % d.rt.w i)
          % d.rt.n i)).find?
      (fun x => x ≠ d.rack && moduleNode plane x ≠ 0xFFFF && buddyIn d.rt plane x i = some d.rack)
    |>.map (moduleNode plane)

/-! ### Ring (R372, R373) -/

/-- A log record (R373), without the padding to 64 bytes. -/
def logRecord (seq time port : Nat) (frame : List Byte) : List Byte :=
  let head := le 8 seq ++ le 8 time ++ le 1 port ++ zeros 1 ++ le 2 frame.length ++ zeros 8
  head ++ le 4 (crc32c (head ++ frame)) ++ frame

/-- A record's size in the ring. -/
def recSize (bs : List Byte) : Nat := ceilDiv bs.length 64 * 64

/-- A ring's metadata with a new record: the records it overwrites leave it. -/
def ringPut (ring : List LogRec) (r : LogRec) : List LogRec :=
  (ring.filter fun x => x.at' + x.len ≤ r.at' || r.at' + r.len ≤ x.at') ++ [r]

/-- Whole lines from a line on written by an engine, OWNER 0 and POISON 0 (R257, R258); those of a lost die are not there (R267). -/
def PoolSt.fillLines (p : PoolSt) (line : Nat) (bs : List Byte) : PoolSt :=
  let ls := (chunksOf 64 bs).zip (List.range' line (bs.length / 64))
  ls.foldl (fun p x =>
    if p.diesLost.contains (homeOfLine x.2) then p
    else { p with mem := memWrites p.mem (64 * x.2) x.1, lmeta := tdel p.lmeta x.2 }) p

/-- A record written at the current place of the own ring, with SEQ HEAD_SEQ (R372); on a mapped-out page it is lost, with a fault (R261). -/
def Dev.putRecord (d : Dev) (bs : List Byte) (len : Nat) : Dev :=
  let f := d.faults
  let r : LogRec := ⟨f.headSeq, f.ringAt, len⟩
  let ring : List LogRec := ringPut f.ring r
  let d := { d with faults := { f with ring := ring, headSeq := f.headSeq + 1, ringAt := (f.ringAt + len) % d.pool.logHalf,
                                       tailSeq := ((ring.head?).map fun (x : LogRec) => x.seq).getD f.headSeq } }
  let a := d.pool.logBase + r.at'
  if d.pool.touchesOut a (min len 2176) then d.areaFault a
  else d.modPool fun p => p.fillLines (a / 64) (padTo (min len 2176) bs)

/-- The stream the mirror uses, opened at its first use (R376): class O of the control die, slice 0. -/
def Dev.mirrorStream (d : Dev) : Option (Nat × Dev) :=
  match d.req.streams.find? fun c => c.ep = 12 && c.slice = 0 && c.cls = .o && c.timeoutUs = 20 && d.faults.replayStream ≠ some c.stream with
  | some c => some (c.stream, d)
  | none => d.openStream 12 .o 0 20 1 0

/-- Whether an operation of the mirror is outstanding. -/
def Dev.mirrorOut (d : Dev) : Bool := d.req.ops.any fun o => match o.why with | .mirror _ => true | _ => false

/-- The record at ring offset `at'` sent to the buddy as acknowledged STOREs of at most 2,048 bytes (R376). The buddy's upper log
half is taken to start where the own one does (log 19). While the mirror is lost no record is sent; a FLUSH asks whether the buddy answers again
(DESIGN CHOICE, log 221). -/
def Dev.mirrorRecord (d : Dev) (seq at' : Nat) (bs : List Byte) : Dev :=
  match d.buddy, d.mirrorStream with
  | some b, some (st, d) =>
    let base := d.pool.logBase + d.pool.logHalf + at'
    if d.faults.mirrorLost then
      if d.mirrorOut then d
      else d.issue st { dst := BitVec.ofNat 16 b, offset := BitVec.ofNat 48 base, op := BitVec.ofNat 8 opFLUSH } (.mirror 0)
    else
    let ps := chunksOf 2048 bs
    eachOf (ps.zip (upTo ps.length)) d fun d x =>
      d.issue st { dst := BitVec.ofNat 16 b, offset := BitVec.ofNat 48 (base + 2048 * x.2), op := BitVec.ofNat 8 opSTORE,
                   length := BitVec.ofNat 12 x.1.length, payload := x.1 } (.mirror (if x.2 + 1 = ps.length then seq + 1 else 0))
  | _, _ => d

/-- A frame appended to the input log before its first flit leaves on edge port `p` (R112, R372), and mirrored (R376). A record
that would cross the end is preceded by a pad record. -/
def Dev.appendLog (d : Dev) (p : Nat) (f : Frame) : Dev :=
  if !d.faults.logEnable || d.pool.logPages = 0 then d
  else
    let len := ceilDiv (32 + f.bytes.length) 64 * 64
    let d :=
      if d.pool.logHalf < d.faults.ringAt + len then
        let at' := d.faults.ringAt
        let seq := d.faults.headSeq
        let bs := logRecord seq d.now 0 []
        (d.putRecord bs (d.pool.logHalf - at')).mirrorRecord seq at' (padTo 64 bs)
      else d
    let at' := d.faults.ringAt
    let seq := d.faults.headSeq
    let bs := padTo len (logRecord seq d.now p f.bytes)
    (d.putRecord bs len).mirrorRecord seq at' bs

/-- MIRROR_TIMEOUT (R376): the mirror has not been acknowledged for 1 ms. -/
def mirrorTimeoutD (d : Dev) : Dev :=
  if d.faults.mirrorOk then
    let unsent (o : OutOp) : Bool := o.phase = .waiting && match o.why with | .mirror _ => true | _ => false
    let d := d.dropOps unsent
    { d with faults := { d.faults with mirrorOk := false, mirrorLost := d.faults.mirroredSeq < d.faults.headSeq } }.fault
      (mkRec 17 0x05 0 (obj 0x38 0))
  else d

/-- The buddy acknowledged the mirror up to record `seq`, or, `seq` 0, a part of one (R376). After a loss the mirror restarts at HEAD_SEQ, and the
records before it are absent. -/
def Dev.mirrorAcked (d : Dev) (seq : Nat) : Dev :=
  let f := d.faults
  let ended := f.mirroredSeq ≠ 0 && !f.mirrorOk
  if seq = 0 && !f.mirrorLost then d
  else
    let d := { d with faults := { f with mirrorOk := true, mirrorLost := false,
                                         mirroredSeq := if f.mirrorLost then f.headSeq else max seq f.mirroredSeq } }
    if ended then d.fault { mkRec 17 0x00 0 (obj 0x38 0) with ended := true } else d

/-- Meaning of MIRROR_TIMEOUT. -/
def execMirrorTimeout (s : State) : Host.Outcome State Fault Refusal := .next (s.onDev mirrorTimeoutD)

end Sys2Proof.Machine
end

