-- ==== Sys2Proof/Machine/Arbiter.lean ====
section
/-!
DEFINITION. What leaves a die: OUTPUT_ARBITRATION (R121, R126, R132, R133) with the discards at queue heads (R144) and the input
log (R112), and the spill region's SPILL_BLOCK_WRITE and SPILL_READBACK (R128–R130).
-/
namespace Sys2Proof.Machine

open Sys2Proof

/-! ### Discards at the head of a queue (R144, R145) -/

/-- Whether a queued frame is discarded when it reaches its queue's head: its slice is torn down, or its DST is dead or has no
valid node-table entry. -/
def Dev.mustDrop (d : Dev) (f : Frame) : Bool := d.tornDown f.slice.toNat || (d.rackOf f.dst.toNat).isNone

/-- A frame discarded at the head of a queue of output `p`: counted against the slice, or the output and its node entry. Virtual
channel 9 stands for no input: its flits were released when it joined the queue. -/
def Dev.dropHead (d : Dev) (p : Nat) (x : QFrame) : Dev :=
  let d := { d with sw := { d.sw with rxOpen := d.sw.rxOpen.filter fun e => e.2 ≠ x.fid } }
  if d.tornDown x.f.slice.toNat then d.countSlice x.f.slice.toNat
  else Dev.dropAnswered Dev.fault d ⟨x.fid, p, 9, true, x.orig⟩ x.f

/-- The leading frames of the SRAM part of a queue that must be discarded. -/
def Dev.purgeQueue (d : Dev) (p q : Nat) : Dev :=
  let bad := (d.queue p q).sram.takeWhile fun x => d.mustDrop x.f
  let d := d.modQueue p q fun Q => { Q with sram := Q.sram.drop bad.length }
  eachOf bad d fun d x => d.dropHead p x

/-! ### Spill (R128–R130) -/

/-- Offsets of the blocks of a die's half that hold frames (R128). -/
def Dev.usedBlocks (d : Dev) (die : Nat) : List Nat :=
  (d.sw.queues.flatMap fun e => if dieOf (e.1 / 25) = die then e.2.spilled.filterMap (·.blk) else []).eraseDups

/-- The block that the die writes next: the lowest of its half that holds no frame, whose page is not mapped out (R261) and whose package's
pool die is there (R267). 48 consecutive blocks reach every package. -/
def Dev.freeBlock (d : Dev) (die : Nat) : Option Nat :=
  let used := d.usedBlocks die
  let pages := d.spillPages die
  let per := 2 ^ 29 / blockBytes
  ((upTo (48 * (used.length + 1))).filterMap fun i =>
      if i < per * pages.length then some (pages.getD (i / per) 0 * 2 ^ 29 + i % per * blockBytes) else none).find?
    fun b => !used.contains b && !d.pool.diesLost.contains (chanOf b / 96)

/-- Pool port of a channel (R246). -/
def portOfChan (c : Nat) : Nat := 144 + c / 24

/-- Whether spill traffic of die `die` for a block can travel now (R128, R250): it goes through the pool port of the block's package at O
level, and over the bridge where that port is on the other die, and yields to G on both. -/
def Dev.spillPath (d : Dev) (die b : Nat) : Bool :=
  let port := portOfChan (chanOf b)
  let waitsG := (upTo 8).any fun q => match (d.queue port q).sram with | x :: _ => x.whole && !x.held && d.creditCovers port x.f | [] => false
  !waitsG && (dieOf port = die || !((d.kamro die).staging.any fun x => x.f.cls = .g && dieOf x.out ≠ die))

/-- Whether the eight channels of a 4 KiB spill block may each move their eight lines of it in this microsecond (R388; log 213). -/
def Dev.mayBlock (d : Dev) (b : Nat) : Bool := (upTo 8).all fun i => d.mayStep (chanOf (b + 512 * i)) 8

/-- A spill block counted on its eight channels (R388). -/
def Dev.countBlock (d : Dev) (b : Nat) : Dev := eachOf (upTo 8) d fun d i => d.countSteps (chanOf (b + 512 * i)) 8

/-- A queue's cap and the region's occupancy after a change, with the events of R129. -/
def Dev.spillEvents (d : Dev) (p q : Nat) : Dev :=
  let die := dieOf p
  let past := decide (spillCap ≤ (d.queue p q).spillBytes)
  let was := (d.queue p q).capped
  let d := d.modQueue p q fun Q => { Q with capped := past }
  let d := if past && !was then d.fault (mkRec 5 0 0 (obj 0x02 p))
           else if !past && was then d.fault { mkRec 5 1 0 (obj 0x02 p) with ended := true } else d
  let full := (d.freeBlock die).isNone
  let wasFull := (d.kamro die).spillFull
  let d := d.modKamro die fun k => { k with spillFull := full }
  if full && !wasFull then d.fault (mkRec 5 0 0 (obj 0x18 0))
  else if !full && wasFull then d.fault { mkRec 5 1 0 (obj 0x18 0) with ended := true } else d

/-- The frames of a 4 KiB block: as many leading whole frames as fit. No frame lies across two blocks, so that a block may be written part
full: the spec does not say whether one may (DESIGN CHOICE, log 176). -/
def blockOf (room : Nat) (l : List QFrame) : List QFrame :=
  match l with
  | [] => []
  | x :: r => if x.whole && 32 * x.f.flits ≤ room then x :: blockOf (room - 32 * x.f.flits) r else []

/-- SPILL_BLOCK_WRITE (R128): none before the pool is ready (R266), nor while its way is taken by class G. -/
def spillBlockWriteD (p : Port) (q : Nat) (d : Dev) : Dev :=
  let blk := blockOf blockBytes (d.queue p q).spillOpen
  let n := (blk.map fun x => 32 * x.f.flits).foldl (· + ·) 0
  match (if blk.isEmpty || d.pool.state = 0 then none else d.freeBlock (dieOf p)) with
  | none => d
  | some b =>
    if !d.spillPath (dieOf p) b || !d.mayBlock b then d
    else
      let d := d.countBlock b
      let d := d.modQueue p q fun Q =>
        { Q with spilled := Q.spilled ++ blk.map fun x => { x with blk := some b }, spillOpen := Q.spillOpen.drop blk.length }
      let d := d.modKamro (dieOf p) fun k => { k with spillBytes := k.spillBytes + n }
      let d := d.modPort p fun s => { s with spillWritten := satAdd 64 s.spillWritten n }
      (d.spillEvents p q).settleStaging (dieOf p)

/-- SPILL_READBACK (R128, R130), while the shared part of the die's SRAM has room (R124); the thresholds of R127 count what comes back. A frame
whose block was lost with its pool die (R267) reads back corrupted. A corrupted frame is counted against the pool (R144). The block counts toward its
channels' limit with the last frame read from it (R388, log 213). -/
def spillReadbackD (p : Port) (q : Nat) (bad : Bool) (d : Dev) : Dev :=
  match (d.queue p q).spilled with
  | [] => d.modQueue p q fun Q => if Q.spillOpen.isEmpty then { Q with spilling := false } else Q
  | x :: r =>
    if refillLevel ≤ (d.queue p q).sramFlits || partFlits 1 < d.partUsed (dieOf p) 1 + x.f.flits ||
        !((x.blk.map fun b => d.spillPath (dieOf p) b && d.mayBlock b).getD true) then d
    else
      let bad := bad || x.blk.isNone
      let d := match x.blk with | some b => if r.any fun y => y.blk = some b then d else d.countBlock b | none => d
      let n := 32 * x.f.flits
      let d := d.modQueue p q fun Q =>
        { Q with spilled := r, sram := if bad then Q.sram else Q.sram ++ [{ x with blk := none }],
                 spilling := !(r.isEmpty && Q.spillOpen.isEmpty) }
      let d := d.modKamro (dieOf p) fun k => { k with spillBytes := k.spillBytes - n }
      let d := d.modPort p fun s => { s with spillRead := satAdd 64 s.spillRead n }
      let d := if bad then (d.modPool fun s => { s with spillDiscards := s.spillDiscards + 1 }).fault (mkRec 4 0x04 5 (obj 0x18 0)) else d
      ((d.checkSpill p q).spillEvents p q).settleStaging (dieOf p)

/-- Queue number of a class and channel (R123). -/
def queueNo (c : TClass) (vc : Nat) : Nat := match c with | .g => vc % 8 | .o => 8 + vc % 8 | .b => 16 + vc % 8 | .m => 24

/-! ### The arbiter (R133) -/

/-- Whether a BACKPRESSURE perturbation holds a class at an output (R420 kind 3). -/
def Dev.backpressed (d : Dev) (p : Nat) (c : TClass) : Bool :=
  (d.active 3 (obj 0x02 p)).any fun i => (d.perturb i).on && maskHas (d.perturb i).classMask c

/-- Whether any frame but `fid` is queued for an output (R126). -/
def Dev.othersQueued (d : Dev) (p fid : Nat) : Bool :=
  (upTo 25).any fun q => let Q := d.queue p q; (Q.sram ++ Q.spillOpen ++ Q.spilled).any fun x => x.fid ≠ fid

/-- Capacity of an input, used to compare flit rates (R126). -/
def Dev.rateIn (d : Dev) (p : Nat) : Nat := d.inCap p

/-- Whether a frame whose last flit has not arrived may be forwarded cut-through (R126). -/
def Dev.mayCutThrough (d : Dev) (p q : Nat) (x : QFrame) : Bool :=
  !d.othersQueued p x.fid && !(d.port p).heldGrant && d.outCap p ≤ d.rateIn x.inp && d.creditCovers p x.f &&
    !(d.queue p q).spilling && !(x.f.log && d.isEdge p)

/-- A head that a BACKPRESSURE perturbation holds is counted once as affected by it (R419). -/
def Dev.countPressed (d : Dev) (p : Nat) : Dev :=
  eachOf (upTo 25) d fun d q =>
    match (d.queue p q).sram with
    | [] => d
    | x :: _ =>
      if x.pressed || !d.backpressed p x.f.cls then d
      else
        let d := d.modQueue p q fun Q => { Q with sram := lmod Q.sram 0 fun x => { x with pressed := true } }
        eachOf ((d.active 3 (obj 0x02 p)).filter fun i => (d.perturb i).on && maskHas (d.perturb i).classMask x.f.cls) d fun d i => d.applied i

/-- Queue heads that could start now, with their queues. -/
def Dev.heads (d : Dev) (p : Nat) : List (Nat × QFrame) :=
  (upTo 25).filterMap fun q =>
    match (d.queue p q).sram with
    | [] => none
    | x :: _ =>
      if !x.held && x.eligibleAt ≤ d.now && !d.backpressed p x.f.cls && (x.whole || d.mayCutThrough p q x) then some (q, x)
      else none

/-- G allotment of an output: the sum of the reservations through it (R133). The records in force count with their EFFECTIVE flits, those by which
the pacer admits: R133 does not say whether FLITS or EFFECTIVE is summed (DESIGN CHOICE, log 204). -/
def Dev.gAllot (d : Dev) (p : Nat) : Nat :=
  (d.resvs.map fun e => if e.2.cur.valid && e.2.cur.output = p then e.2.effective else 0).foldl (· + ·) 0

/-- The head that wins (R133): step 2 for G within the allotment, else step 3, ties to the round-robin pointer `rr`. -/
def pickHead (now rr : Nat) (gOk : Bool) (hs : List (Nat × QFrame)) : Option (Nat × QFrame) :=
  let gs := hs.filter fun h => h.2.f.cls = .g
  match (if gOk then gs else []) with
  | g :: r => some (r.foldl (fun a b => if b.2.arrived < a.2.arrived then b else a) g)
  | [] =>
    let turn (q : Nat) : Nat := (q + 25 - rr) % 25
    match hs with
    | [] => none
    | h :: r => some (r.foldl (fun a b =>
        let x := ageBucket now a.2.arrived
        let y := ageBucket now b.2.arrived
        if x < y || (x = y && turn b.1 < turn a.1) then b else a) h)

/-- Perturbations and drills on a frame that leaves a port (R420 kinds 5 and 7, R379): the mark, then the corrupted checks. -/
def Dev.perturbSend (d : Dev) (p : Nat) (f : Frame) : Frame × Bool × Dev :=
  let (f, forced, d) := (d.active 5 (obj 0x02 p)).foldl (fun (acc : Frame × Bool × Dev) i =>
      if maskHas (acc.2.2.perturb i).classMask acc.1.cls then
        let (hit, d) := acc.2.2.chance (acc.2.2.perturb i).paramA.toNat
        if hit then ({ acc.1 with cm := true }, true, d.applied i) else (acc.1, acc.2.1, d)
      else acc) (f, false, d)
  let f := f.sealHdr
  let (f, d) := (d.active 7 (obj 0x02 p)).foldl (fun (acc : Frame × Dev) i =>
      if maskHas (acc.2.perturb i).classMask acc.1.cls then
        let (hit, d) := acc.2.chance (acc.2.perturb i).paramA.toNat
        if !hit then (acc.1, d)
        else if (d.perturb i).paramB = 0 then ({ acc.1 with hchk := acc.1.hchk ^^^ 1 }, d.applied i)
        else if acc.1.area = 0 then (acc.1, d)
        else ({ acc.1 with fcheck := acc.1.fcheck ^^^ 1 }, d.applied i)
      else acc) (f, d)
  if (d.port p).corruptNext && (f.opn = opLOAD || f.opn = opFLUSH) then
    ({ f with hchk := f.hchk ^^^ 1 }, forced, d.modPort p fun s => { s with corruptNext := false })
  else (f, forced, d)

/-- A frame starts on an output: header fields of R106, the input log, counters of R146, SENT (R119). The round-robin pointer moves past a
winner of R133 step 3, a G frame beyond its allotment (`inAllot` false) among them. -/
def Dev.startFrame (d : Dev) (p q : Nat) (x : QFrame) (inAllot : Bool := true) : Dev :=
  let ext := decide (p < 144)
  let cut := !x.whole
  let d := d.modQueue p q fun Q => { Q with sram := Q.sram.drop 1 }
  let f := if ext then { x.f with hops := x.f.hops + 1 } else x.f
  let (f, forced, d) := d.perturbSend p f
  let d := if f.log && d.isEdge p && f.cls ≠ .m then d.appendLog p f else d
  let n := f.flits
  let vc := f.vc
  let d := (d.countOut p f).modPort p fun s =>
    { s with cutThrough := if cut then satAdd 64 s.cutThrough 1 else s.cutThrough,
             marked := if x.marked || forced then satAdd 64 s.marked 1 else s.marked,
             sent := if ext then lmod s.sent vc fun v => (v + n) % 65536 else s.sent,
             withheld := lmod s.withheld vc fun v => if d.poolWithholds p vc then v + n else 0 }
  let sw : SwitchSt :=
    { d.sw with gSent := if f.cls = TClass.g then tmod d.sw.gSent p 0 (· + n) else d.sw.gSent,
                rr := if f.cls = TClass.g && inAllot then d.sw.rr else tset d.sw.rr p ((q + 1) % 25),
                cuts := if cut then d.sw.cuts ++ [⟨x.fid, x.inp, p, { f with fcheck := x.f.fcheck }, decide (f.fcheck ≠ x.f.fcheck)⟩] else d.sw.cuts }
  let d : Dev := { d with sw := sw }
  d.emit (if ext then .frame p f cut else .deliver p f)

/-- Whether an output can start a frame: its die is up, it is in service and awake, no held grant is active (R134), no frame is in
service on it (R121). -/
def Dev.outputReady (d : Dev) (p : Nat) : Bool :=
  (d.kamro (dieOf p)).up && d.inService p && !(d.port p).heldGrant && (p ≥ 144 || (d.port p).txPwr = 0) &&
    !(d.sw.cuts.any fun c => c.out = p)

/-- Core cycles in which a head waited for credit (R146). -/
def Dev.countWaits (d : Dev) (p : Nat) (hs : List (Nat × QFrame)) : Dev :=
  let stuck := (hs.filter fun h => !d.creditCovers p h.2.f).map fun h => h.2.f.vc
  d.modPort p fun s => { s with creditWait := stuck.eraseDups.foldl (fun l v => bump 64 l v 1) s.creditWait }

/-- OUTPUT_ARBITRATION (R133): one core cycle in which the output can start a frame. A cycle that starts none leaves an idle block slot. -/
def outputArbitrationD (p : Port) (d : Dev) : Dev :=
  if !d.outputReady p then d
  else
    let d := (eachOf (upTo 25) d fun d q => d.purgeQueue p q).countPressed p
    let hs := d.heads p
    let d := d.countWaits p hs
    let ok := hs.filter fun h => d.creditCovers p h.2.f
    let d := if ok.length < hs.length then d.sendWake p else d
    let gOk := decide (tget d.sw.gSent p 0 < d.gAllot p)
    match pickHead d.now (tget d.sw.rr p 0) gOk ok with
    | none => (d.sendTest p).settleStaging (dieOf p)
    | some (q, x) => (d.startFrame p q x gOk).settleStaging (dieOf p)

/-- Meaning of OUTPUT_ARBITRATION. -/
def execOutputArbitration (p : Port) (s : State) : Host.Outcome State Fault Refusal := .next (s.onDev (outputArbitrationD p))

/-- Meaning of SPILL_BLOCK_WRITE. -/
def execSpillBlockWrite (p : Port) (c : TClass) (vc : Fin 9) (s : State) : Host.Outcome State Fault Refusal :=
  .next (s.onDev (spillBlockWriteD p (queueNo c vc)))

/-- Meaning of SPILL_READBACK. -/
def execSpillReadback (p : Port) (c : TClass) (vc : Fin 9) (bad : Bool) (s : State) : Host.Outcome State Fault Refusal :=
  .next (s.onDev (spillReadbackD p (queueNo c vc) bad))

end Sys2Proof.Machine
end

