-- ==== Sys2Proof/Machine/LinkService.lean ====
section
/-!
DEFINITION. Ports in and out of service: the queues of a member that leaves (R159), lost bundles and probes (R161), narrowing
requests (R286, R287), leaving service (R289, R371), and the start of bring-up (R280, R298).
-/
namespace Sys2Proof.Machine

open Sys2Proof

/-! ### Records (R355, R356) -/

/-- A LINK record of port `p`. -/
def linkRec (d : Dev) (p code action : Nat) : FaultRec :=
  let s := d.port p
  mkRec 0 code action (obj 0x02 p)
    [(32, 2, p), (34, 1, s.txLanes.toNat), (35, 1, s.rxLanes.toNat), (36, 2, s.txMapped.toNat), (38, 2, s.rxMapped.toNat)]

/-- External ports that left service within the last 100 µs (R371). -/
def Dev.recentLeavers (d : Dev) : List Nat :=
  tkeys d.ports fun p s => p < 144 && (match s.leftAt with | some t => d.now ≤ t + 100000 | none => false)

/-- A port has left service: its LINK record, or one MASS record in place of the LINK records once 16 ports left within 100 µs
(R371). A later port of the same event joins that record; where the record has been read by then, a MASS record of its own names the port. -/
def Dev.leftRecord (d : Dev) (p code : Nat) : Dev :=
  let ps := d.recentLeavers
  if ps.length < 16 then d.fault (linkRec d p code 6)
  else
    let mask := (ps.map fun q => 2 ^ q).foldl (· + ·) 0
    let mine (r : FaultRec) : Bool :=
      r.cls = 0 && r.action = 6 && !r.foreign && d.now ≤ r.time + 100000 && ps.any fun q => r.object = obj 0x02 q
    let d := { d with faults := { d.faults with queue := d.faults.queue.filter fun r => !mine r } }
    let running := match d.faults.massUntil with | some t => decide (d.now ≤ t) | none => false
    let same (r : FaultRec) : Bool := r.cls = 16 && !r.foreign && r.seq = d.faults.massSeq
    let d := { d with faults := { d.faults with massUntil := some (d.now + 100000) } }
    if running && d.faults.queue.any same then
      let join (r : FaultRec) : FaultRec := { r with detail := overwrite r.detail 0 (le 18 (num r.detail 0 18 ||| mask)) }
      { d with faults := { d.faults with queue := d.faults.queue.map fun r => if same r = true then join r else r } }
    else
      { d with faults := { d.faults with massSeq := d.faults.nextSeq } }.fault
        (mkRec 16 0 6 (obj 0x01 0) [(32, 18, if running then 2 ^ p else mask)])

/-! ### Queued frames that move (R159, R161–R164) -/

/-- The frames of some outputs for which `g` holds, in queue order, taken out of their queues; what was in spill is freed there. -/
def Dev.takeFrames (d : Dev) (ports : List Nat) (g : QFrame → Bool) : List QFrame × Dev :=
  let qs := ports.flatMap fun p => (upTo 25).map fun q => (p, q)
  let (xs, d) := qs.foldl (fun (acc : List QFrame × Dev) pq =>
      let Q := acc.2.queue pq.1 pq.2
      let xs := (Q.sram ++ Q.spilled ++ Q.spillOpen).filter g
      if xs.isEmpty then acc
      else
        let freed := ((Q.spilled.filter g).map fun x => 32 * x.f.flits).foldl (· + ·) 0
        let d := acc.2.modQueue pq.1 pq.2 fun Q =>
          { Q with sram := Q.sram.filter fun x => !g x, spilled := Q.spilled.filter fun x => !g x,
                   spillOpen := Q.spillOpen.filter fun x => !g x }
        (acc.1 ++ xs, (d.modKamro (dieOf pq.1) fun k => { k with spillBytes := k.spillBytes - freed }).spillEvents pq.1 pq.2))
    ([], d)
  (xs, d)

/-- Whether a frame bound for an output has no hop left (R106). -/
def outOfHops (p : Nat) (f : Frame) : Bool := p < 144 && f.hops = 63

/-- A frame that moves is placed behind the queued frames of output `p` (R159); it is marked behind more than the mark depth (R111), discarded where
it has no hop left (R106), and delayed as that output delays (R420), never below what was drawn for it before (R422). -/
def Dev.requeue (d : Dev) (p : Nat) (x : QFrame) : Dev :=
  if outOfHops p x.f then { d with sw := { d.sw with rxOpen := d.sw.rxOpen.filter fun e => e.2 ≠ x.fid } }.countDiscard p discHops
  else
  let (delay, d) := d.perturbDelay p x.f.cls
  let x := { x with eligibleAt := max x.eligibleAt (d.now + delay) }
  let mark := x.f.cls ≠ .g && (d.port p).markDepth < d.obFlits p && !x.f.cm
  let x := { x with out := p, f := if mark then { x.f with cm := true } else x.f, marked := x.marked || mark, blk := none }
  let q := x.f.qno
  let spill := d.toSpill p q x.f.flits
  (d.modQueue p q fun Q =>
    if spill then { Q with spilling := true, spillOpen := Q.spillOpen ++ [x] } else { Q with sram := Q.sram ++ [x] }).checkSpill p q

/-- The frames queued for output `p` move, in queue order, to the member that R159 selects; frames in staging change their
output. -/
def Dev.moveQueue (d : Dev) (dir p : Nat) : Dev :=
  let new (x : QFrame) : Nat := d.pickMember dir (field (hashOf x.f) 0 8) x.f.cls
  let (xs, d) := d.takeFrames [p] fun x => new x ≠ p
  let spent (x : QFrame) : Bool := x.out = p && outOfHops (new x) x.f
  let ends := (d.sw.kamro.flatMap fun e => e.2.staging).filter spent
  let d := { d with sw := { d.sw with kamro := tmap d.sw.kamro fun _ k =>
      { k with staging := (k.staging.filter fun x => !spent x).map fun x => if x.out = p then { x with out := new x } else x } } }
  let d := eachOf ends d fun d x => (d.countDiscard (new x) discHops).release x.inp x.inVc x.f.cls x.f.flits
  let d := eachOf xs d fun d x => d.requeue (d.pickMember dir (field (hashOf x.f) 0 8) x.f.cls) x
  eachOf [0, 1] d Dev.settleStaging

/-- A frame routed again (R161, R164), from what it was when it entered routing. -/
def Dev.reroute (d : Dev) (x : QFrame) : Dev :=
  let f := { x.orig with cm := x.orig.cm || x.f.cm }
  let (r, evs) := d.routeFrame x.inp f
  let d := eachOf evs d Dev.fault
  let d := Dev.putRouted (Dev.dropAnswered Dev.fault) d ⟨x.fid, x.out, 9, x.whole, x.orig⟩ f r
  d.mapFrames fun y => some (if y.fid = x.fid then { y with inp := x.inp } else y)

/-- The outputs whose queues hold the frames that need a direction. -/
def Dev.dirPorts (d : Dev) (dir : Nat) : List Nat := d.bundle dir ++ [limboPort dir]

/-- A frame in input staging routed again: its flits stay in the input's buffer (R122). -/
def Dev.rerouteStaged (d : Dev) (x : QFrame) : Dev :=
  let f := { x.orig with cm := x.orig.cm || x.f.cm }
  let (r, evs) := d.routeFrame x.inp f
  Dev.putRouted (Dev.dropAnswered Dev.fault) (eachOf evs d Dev.fault) ⟨x.fid, x.inp, x.inVc, x.whole, x.orig⟩ f r

/-- The frames that wait for direction `dir`, in its queues and behind them in input staging, and satisfy `g` are routed again. A frame held
for a second fault, or a reversal with no hop left (R162), is routed again only at such an event of the direction that was refused to it, and
till then stays at the head of that direction's queue, also where a member of it is in service: the spec says that it is held there and not
when it is routed again (DESIGN CHOICE, log 177). -/
def Dev.rerouteDir (d : Dev) (dir : Nat) (g : QFrame → Bool) : Dev :=
  let ports := d.dirPorts dir
  let (xs, d) := d.takeFrames ports g
  let mine (x : QFrame) : Bool := ports.contains x.out && g x
  let ys := (d.sw.kamro.flatMap fun e => e.2.staging).filter mine
  let d := { d with sw := { d.sw with kamro := tmap d.sw.kamro fun _ k => { k with staging := k.staging.filter fun x => !mine x } } }
  eachOf ys (eachOf xs d Dev.reroute) Dev.rerouteStaged

/-! ### Lost bundles (R161) -/

/-- Detour record `dir` changed by `f`. -/
def Dev.modDetour (d : Dev) (dir : Nat) (f : Detour → Detour) : Dev := { d with rt := { d.rt with detours := lmod d.rt.detours dir f } }

/-- Node number of the neighbour in a direction (R161 step 3). -/
def Dev.neighbourNode (d : Dev) (dir : Nat) : Nat := moduleNode d.ident.straps.plane.toNat (stepRack d.rt d.rack dir)

/-- The next tag of the control die's class M frames. -/
def Dev.mgmtTag (d : Dev) : Nat × Dev :=
  (d.host.nextMgmtTag, { d with host := { d.host with nextMgmtTag := (d.host.nextMgmtTag + 1) % 2 ^ 32 } })

/-- The packet of the identity GET (R161, R306, R320): bytes 0 to 47 of the identity object. -/
def probePacket (seq : Nat) : List Byte :=
  le 2 0x0100 ++ le 2 0 ++ le 4 seq ++ le 4 (0x01 * 2 ^ 24) ++ zeros 4 ++ le 4 0 ++ le 4 48 ++ zeros 40

/-- The state of a direction set, with its ROUTING record (R355). -/
def Dev.setDetour (d : Dev) (dir st action : Nat) : Dev :=
  let d := d.modDetour dir fun x => { x with state := st }
  d.fault (routingRec d dir action)

/-- A bundle is lost (R161 steps 1 to 3): STATE 1, B and M frames detour, O and G frames stay held, the neighbour is probed. A module without
a node number originates no probe (R28), so that no reply can come and the 6 µs end in STATE 3 (step 4): the spec states the case of a
neighbour without a number and not this one (DESIGN CHOICE, log 178). -/
def Dev.loseBundle (d : Dev) (dir : Nat) : Dev :=
  let d := (d.modDetour dir fun x => { x with activations := satAdd 32 x.activations 1, probeTag := none }).setDetour dir 1 4
  let held := d.dirPorts dir
  let g (x : QFrame) : QFrame := if x.f.cls = .o || x.f.cls = .g then { x with held := true } else x
  let hold (k : Nat) (Q : OutQueue) : OutQueue :=
    if held.contains (k / 25) then { Q with sram := Q.sram.map g, spilled := Q.spilled.map g, spillOpen := Q.spillOpen.map g }
    else Q
  let wait (x : QFrame) : QFrame := if held.contains x.out then g x else x
  let d := { d with sw := { d.sw with queues := tmap d.sw.queues hold,
                                      kamro := tmap d.sw.kamro fun _ k => { k with staging := k.staging.map wait } } }
  let d := d.rerouteDir dir fun x => x.f.cls = .b || x.f.cls = .m
  let n := d.neighbourNode dir
  if n = 0xFFFF then d.setDetour dir 2 4
  else if !d.mayOriginate then d
  else
    let (t, d) := d.mgmtTag
    (d.modDetour dir fun x => { x with probeTag := some (BitVec.ofNat 32 t) }).inject 176
      (mgmtFrame d.node n opMGMT_COMMAND t (probePacket t))

/-- Whether a direction has a bundle to lose (R159): its links stay in the domain. -/
def Dev.usesDir (d : Dev) (dir : Nat) : Bool := linkAllowed d.rt d.rack dir

/-- The bundle of a direction is lost when its last in-service member has left. A direction whose STATE is not 0 is lost already: a member
that enters service late and leaves again adds no ACTIVATIONS and starts no probe, since only a restore returns the direction (R164); the spec
does not say (DESIGN CHOICE, log 179). -/
def Dev.checkBundle (d : Dev) (dir : Nat) : Dev :=
  if d.usesDir dir && (d.detour dir).state = 0 && !((d.bundle dir).any d.inService) then d.loseBundle dir else d

/-! ### Lane sets (R286, R294) -/

/-- The lane set of R286: `bad` are the lanes failed or mapped out, lane 7 left out while it serves as the clock. -/
def laneSetOf (bad : Nat) (lane7Clock : Bool) : Nat :=
  let c := (upTo 8).filter fun l => !bad.testBit l && !(lane7Clock && l = 7)
  let w := if 8 ≤ c.length then 8 else if 6 ≤ c.length then 6 else if 4 ≤ c.length then 4 else if 2 ≤ c.length then 2
    else if 1 ≤ c.length then 1 else 0
  ((c.take w).map fun l => 2 ^ l).foldl (· + ·) 0

/-- The mapped-out masks changed: the list is to be committed (R294). -/
def Dev.markMapped (d : Dev) : Dev := { d with fw := { d.fw with mappedDirty := true } }

/-- Lane states of the receive side after a change of set (R296). -/
def laneStates (s : PortSt) : PortSt :=
  (upTo 9).foldl (fun s l =>
    let old := (s.lane l).state
    let used := if l = 8 then !s.rxClkSrc else s.rxLanes.getLsbD l
    let clock := (l = 8 && !s.rxClkSrc) || (l = 7 && s.rxClkSrc)
    let st := if s.rxMapped.getLsbD l then (if old = 2 then 2 else 3) else if clock then 4 else if used then 0 else 1
    s.modLane l fun n => { n with state := st }) s

/-! ### Leaving service (R289) -/

/-- Active perturbations of KIND 1 to 8 on a port or one of its lanes (R422). -/
def Dev.portPerturbs (d : Dev) (p : Nat) : List Nat :=
  tkeys d.test.perturbs fun _ x => x.state = 1 && x.kind ≤ 8 &&
    (x.target = obj 0x02 p || (upTo 9).any fun l => x.target = obj 0x03 (16 * p + l))

/-- Frames on their way in on a port whose link ends: those not received whole are lost, those sent on cut-through are stomped. What was being
sent on the port itself ends. -/
def Dev.dropIncoming (d : Dev) (p : Nat) : Dev :=
  let d := d.dropOpenFrames p
  { d with sw := { d.sw with cuts := d.sw.cuts.filter fun c => c.out ≠ p } }

/-- Link state that ends with the link: both directions stop (R289, R298). -/
def portDown (s : PortSt) (lst hold : Nat) : PortSt :=
  let z := List.replicate 9 0
  laneStates { s with lstate := lst, hold := hold, txLanes := 0, rxLanes := 0, txClkSrc := false, rxClkSrc := false, txPwr := 3, rxPwr := 3,
                      relock := false, syncDue := false, owed := z, wakeSent := false, rxCw := 0, rxBits := [], rxScr := scrStart,
                      fecGood := 0, profileOk := false, hello := [], creditSeen := false,
                      rttSamples := [], readySent := false, readySeen := false, assignSent := false, trainedFull := false,
                      sent := z, limit := z, rcvd := z, released := z, slow := z, allot := z, limitSent := z, discarding := false,
                      resyncReq := false, widthOut := none, fallbackHold := false, lane7Clock := false, peerLstage := 0,
                      repeats := [], streamHolds := [], checkRunning := false, heldGrant := false, loop := 0 }

/-- A port in service leaves it (R289): LSTATE, HOLD, its queued frames and bundle (R159, R161), reservations (R139), perturbations
(R422) and its record. -/
def Dev.leaveService (d : Dev) (p lst hold code : Nat) : Dev :=
  let was := decide ((d.port p).lstate = 7)
  let d := (d.modPort p fun s => { portDown s lst hold with leftAt := if was then some d.now else s.leftAt }).dropIncoming p
  if !was then d
  else
    let d := eachOf (d.portPerturbs p) d fun d i => d.stopPerturb i 5
    let d := d.leftRecord p code
    let d := d.widthChanged p
    let s := d.port p
    if s.kind = 2 then (d.moveQueue s.dir p).checkBundle s.dir else d

/-- A port is held out of service (R280, R289): LSTATE 8 and a PORT_HOLD record. -/
def Dev.holdPort (d : Dev) (p code : Nat) : Dev :=
  (d.leaveService p 8 code 0).fault (mkRec 1 code 6 (obj 0x02 p))

/-- LINK_DOWN is sent with a reason and the port leaves service in an orderly way (R282, R289). -/
def Dev.sendDown (d : Dev) (p reason lst hold : Nat) : Dev :=
  let d := d.sendLinkLocal p 0x57 (le 1 reason ++ zeros 7)
  (d.leaveService p lst hold 0).modPort p fun s => { s with downReason := some reason }

/-! ### Bring-up (R280, R298) -/

/-- Whether the hop over a torus port stays in the slice's box (R42). -/
def Dev.boxAllows (d : Dev) (p : Nat) : Bool := (d.port p).kind ≠ 2 || linkAllowed d.rt d.rack (d.port p).dir

/-- Whether a mask of lanes leaves a direction no candidate lane or no clock (R286, R288, R289). -/
def noLanes (mapped : Nat) : Bool :=
  (mapped.testBit 8 && mapped.testBit 7) || laneSetOf mapped (mapped.testBit 8) = 0

/-- The presets, in 64ths, pre2 to post2 (R433). -/
def presetTaps (n : Nat) : List Nat :=
  match n with
  | 1 => [0, 4, 52, 8, 0]
  | 2 => [0, 0, 64, 0, 0]
  | 3 => [0, 4, 46, 12, 2]
  | 4 => [2, 6, 40, 14, 2]
  | 5 => [2, 8, 36, 16, 2]
  | 6 => [2, 6, 32, 20, 4]
  | _ => [4, 10, 32, 14, 4]

/-- Largest value of a tap (R432). -/
def tapMax (i : Nat) : Nat := match i with | 0 => 8 | 1 => 16 | 2 => 64 | 3 => 24 | _ => 8

/-- Status of a tap that has been loaded: at maximum, at minimum, or updated (R432, R433). -/
def presetStatus (t : List Nat) (i : Nat) : Nat :=
  let v := t.getD i 0
  if i = 2 then (if v = 32 then 2 else 0) else if v = tapMax i then 1 else if v = 0 then 2 else 0

/-- A TRAIN_STATUS or COEF_REQ field from its taps' values, pre2 first. -/
def tapWord (f : Nat → Nat) : BitVec 10 := BitVec.ofNat 10 (([0, 1, 2, 3, 4].map fun i => f i * 2 ^ (8 - 2 * i)).foldl (· + ·) 0)

/-- A lane as bring-up starts, its transmitter loaded with taps (R298). -/
def Lane.start (l : Lane) (t : List Nat) : Lane :=
  { l with phaseOk := false, commas := 0, lastPeriod := none, setSeen := 0, clkSeen := false, symErr := [], peerReady := false, inverted := false,
           rxReady := false, reqCoef := 0, reqPreset := 0, taps := t, status := tapWord (presetStatus t) }

/-- Whether the dies have power and a port's die is out of reset. -/
def Dev.dieUp (d : Dev) (p : Nat) : Bool := (d.kamro (dieOf p)).up

/-- Bring-up starts from clock detect with the stored coefficients and the mapped-out masks (R298); the output holds a held
grant (R134). ROLE off, R42, a strap fault, a lost reference and a die in reset or without power keep the lanes off (R280, R383, R395), and a port
without candidate lanes stays out (R289). -/
def Dev.bringUp (d : Dev) (p : Nat) : Dev :=
  let s := d.port p
  if (s.kind ≠ 1 && s.kind ≠ 2) || !d.dieUp p then d.modPort p fun s => portDown s 0 0
  else if !d.strapsOk then d.modPort p fun s => portDown s 0 5
  else if d.power.refHeld then d.modPort p fun s => { portDown s 0 0 with refOff := true }
  else if !d.boxAllows p then d.modPort p fun s => portDown s 0 3
  else if noLanes s.rxMapped.toNat || noLanes s.txMapped.toNat then d.modPort p fun s => portDown s 9 0
  else
    d.modPort p fun s =>
      let s := portDown s 1 0
      let clk := s.txMapped.getLsbD 8
      let load (l : Lane) : Lane := l.start (match l.stored with | some t => t | none => presetTaps 1)
      let s := { s with heldGrant := true, downReason := none, refOff := false, txPwr := 0, rxPwr := 0,
                        txLanes := BitVec.ofNat 8 (laneSetOf s.txMapped.toNat clk), txClkSrc := clk,
                        rxClkSrc := s.rxMapped.getLsbD 8, lane7Clock := clk }
      (upTo 9).foldl (fun s l => s.modLane l load) s

/-- The candidate lanes of a port's receive side; in near-end loopback, those its own transmitter drives (R423). -/
def PortSt.rxWanted (s : PortSt) : List Nat :=
  if s.lstate = 10 then bitsOf 8 s.txLanes.toNat
  else (upTo 8).filter fun l => !s.rxMapped.getLsbD l && !(s.rxClkSrc && l = 7)

/-- Whether every wanted lane has its stored coefficients (R298). -/
def PortSt.haveStored (s : PortSt) : Bool := s.rxWanted.all fun l => (s.lane l).stored.isSome

/-- A WIDTH_REQUEST goes out (R287). -/
def Dev.sendWidth (d : Dev) (p : Nat) (r : WidthReq) : Dev :=
  d.sendCtrl p [0x04, BitVec.ofNat 8 r.seq, r.laneSet, BitVec.ofNat 8 (b2n r.clkSrc), r.failed, BitVec.ofNat 8 (b2n r.failedClk)]

/-- A new lane set is asked of the peer (R286, R287): a newer request carries the FAILED lanes of those not yet applied. -/
def Dev.requestWidth (d : Dev) (p failed : Nat) : Dev :=
  let s := d.port p
  let clk := s.rxMapped.getLsbD 8
  let old := match s.widthOut with | some r => r.failed.toNat + 256 * b2n r.failedClk | none => 0
  let all := old ||| failed
  let r : WidthReq := { seq := (s.widthSeq + 1) % 256, laneSet := BitVec.ofNat 8 (laneSetOf s.rxMapped.toNat clk), clkSrc := clk,
                        failed := BitVec.ofNat 8 all, failedClk := all.testBit 8 }
  (d.modPort p fun s => { s with widthSeq := r.seq, widthOut := some r }).sendWidth p r

/-- Every data lane of a direction loses lock as its clock lane fails (R288): till the fallback is done, it is not in service for LSTAGE. -/
def loseLock (s : PortSt) : PortSt :=
  (upTo 8).foldl (fun s l => s.modLane l fun n => { n with phaseOk := false, commas := 0, lastPeriod := none })
    { s with relock := true }

/-- Lanes of a port's receive side fail for a cause (R278, R286, R288, R294): they are mapped out, and the port narrows, falls back to
lane 7, or leaves service. Lane 8 is the clock lane. -/
def Dev.lanesFail (d : Dev) (p : Nat) (ls : List Nat) (cause : Nat) : Dev :=
  if ls.isEmpty then d else
  let failed := (ls.map fun l => 2 ^ l).foldl (· + ·) 0
  let d := (d.modPort p fun s => ls.foldl (fun s l => s.modLane l fun n => { n with state := 2, cause := cause })
    { s with rxMapped := s.rxMapped ||| BitVec.ofNat 9 failed }).markMapped
  let s := d.port p
  if noLanes s.rxMapped.toNat then
    let d := if s.lstate = 7 then d else d.fault (linkRec d p cause 6)
    d.leaveService p 9 s.hold cause
  else
    let d := if failed.testBit 8 then d.modPort p loseLock else d
    (d.fault (linkRec d p cause (if failed.testBit 8 then 2 else 1))).requestWidth p failed

/-- A perturbation ends by itself or by command: a port under KIND 9 or 10 runs bring-up (R422, R423). -/
def Dev.endPerturb (d : Dev) (i cause : Nat) : Dev :=
  let x := d.perturb i
  let p := x.target.toNat % 2 ^ 24
  let d := d.stopPerturb i cause
  if x.state = 1 && (x.kind = 9 || x.kind = 10) && (d.port p).lstate = 10 && (d.port p).testRuns.isEmpty then d.bringUp p else d

end Sys2Proof.Machine
end

