-- ==== Sys2Proof/Machine/BringUp.lean ====
section
/-!
DEFINITION. Bring-up of a link (R280–R285, R298) and equalization (R274, R432, R433): the stages, the exchange, and their commands.
-/
namespace Sys2Proof.Machine

open Sys2Proof

/-! ### Equalization (R274, R432, R433) -/

/-- The main tap takes the remainder (R432). -/
def mainTap (t : List Nat) : Nat := 64 - (t.getD 0 0 + t.getD 1 0 + t.getD 3 0 + t.getD 4 0)

/-- Tap `i` of a COEF_REQ or TRAIN_STATUS field, two bits each, pre2 first. -/
def tapField (v : BitVec 10) (i : Nat) : Nat := field v.toNat (8 - 2 * i) 2

/-- The taps after one tap's request (R274, R432), and whether it was turned away at the main tap's minimum; the main tap takes the remainder. -/
def tapStep (t : List Nat) (i req : Nat) : List Nat × Bool :=
  let v := t.getD i 0
  let set (n : Nat) : List Nat := let u := t.set i n; u.set 2 (mainTap u)
  if i = 2 || (req ≠ 1 && req ≠ 2) then (t, false)
  else if req = 1 then
    if v = tapMax i then (t, false) else if mainTap t ≤ 32 then (t, true) else (set (v + 1), false)
  else (if v = 0 then t else set (v - 1), false)

/-- TRAIN_STATUS of tap `i` after a period's requests (R274, R432): at a limit of its range, else updated where they have changed it. -/
def tapStatus (before after : List Nat) (i : Nat) : Nat :=
  let v := after.getD i 0
  if i ≠ 2 && v = tapMax i then 1
  else if v = (if i = 2 then 32 else 0) then 2
  else if v = before.getD i 0 then 3 else 0

/-- A request applied to a lane's transmitter with its TRAIN_STATUS (R274, R432, R433). -/
def applyRequest (n : Lane) (req : BitVec 10) (preset : Nat) : Lane :=
  if preset ≠ 0 then { n with taps := presetTaps preset, status := tapWord (presetStatus (presetTaps preset)) }
  else
    let (t, low) := [0, 1, 2, 3, 4].foldl (fun (acc : List Nat × Bool) i =>
        let (t, l) := tapStep acc.1 i (tapField req i)
        (t, acc.2 || l)) (n.taps, false)
    { n with taps := t, status := tapWord fun i => if i = 2 && low then 2 else tapStatus n.taps t i }

/-! ### The exchange (R282–R284) -/

/-- RINGS of a routing object (R147), bytes 4–7. -/
def ringsWord (r : RoutingSt) : Nat := r.nx * 2 ^ 24 + r.ny * 2 ^ 19 + r.nz * 2 ^ 15
/-- DOMAIN of a routing object (R147), bytes 8–11. -/
def domainWord (r : RoutingSt) : Nat :=
  r.x0 * 2 ^ 28 + r.xw * 2 ^ 23 + r.y0 * 2 ^ 19 + r.yw * 2 ^ 14 + r.z0 * 2 ^ 11 + r.zw * 2 ^ 7

/-- The LINK_HELLO of port `p` (R283). -/
def helloBytes (d : Dev) (p : Nat) : List Byte :=
  le 2 d.node ++ le 2 d.rack ++ le 1 d.ident.straps.plane.toNat ++ le 1 (d.port p).role.toNat ++ le 1 p ++ zeros 1 ++
  le 4 (domainWord d.rt) ++ le 4 (ringsWord d.rt) ++ zeros 16

/-- The exchange starts (R280, R282): LINK_HELLO and eight probes. -/
def Dev.startExchange (d : Dev) (p : Nat) : Dev :=
  let d := (d.modPort p fun s => { s with lstate := 6 }).sendLinkLocal p 0x52 (helloBytes d p)
  eachOf (upTo 8) d fun d i => d.sendLinkLocal p 0x54 (le 8 d.now ++ le 1 i ++ zeros 7)

/-- Input staging of a die, in flits (R124). -/
def stagingFlits : Nat := 64 * 2 ^ 20 / 32

/-- Allotment of a data channel for a round trip in ns (R131): 1.25 × RTT × 118.6 GB/s ÷ 32 bytes, at least 264, a multiple of 8, at
most 8,192. The port rate is that of 8 lanes whatever lanes have trained: R131 does not say which rate counts for a narrowed port (DESIGN CHOICE,
log 203). -/
def allotFor (rtt : Nat) : Nat := min 8192 (ceilDiv (max 264 (ceilDiv (rtt * 5930) 1280)) 8 * 8)

/-- The data allotments of a die's inputs lowered, the largest first, in steps of 8 flits on all eight channels of a port until they fit in
`room` flits (R131): all that exceed a common level come down to it, and as many as still fit, those of the highest port numbers, stay one step
above (log 21). -/
def lowerAllots (room : Nat) (as : List (Nat × Nat)) : List (Nat × Nat) :=
  let sum (l : List (Nat × Nat)) : Nat := (l.map fun e => 8 * e.2).foldl (· + ·) 0
  let at' (level : Nat) : List (Nat × Nat) := as.map fun e => (e.1, min e.2 level)
  let level := (((upTo 1025).reverse.map (8 * ·)).find? fun k => sum (at' k) ≤ room).getD 0
  let high := (as.filter fun e => level < e.2).map (·.1)
  let kept := high.drop (high.length - (room - sum (at' level)) / 64)
  as.map fun e => (e.1, if kept.contains e.1 then level + 8 else min e.2 level)

/-- A port's data allotments lowered to `b` flits (R131). LIMIT never goes back: flits released later pay for the difference first. -/
def lowerPort (s : PortSt) (b : Nat) : PortSt :=
  (upTo 8).foldl (fun s v =>
    let k := s.allot.getD v 0 - b
    { s with allot := lmod s.allot v (· - k), released := lmod s.released v fun x => (x + k) % 65536, owed := lmod s.owed v (· + k) }) s

/-- Allotments of a port at its bring-up (R131): where the die's inputs then exceed its staging, the largest are lowered, with an event for each
port lowered. -/
def Dev.setAllotment (d : Dev) (p rtt : Nat) : Dev :=
  let al := List.replicate 8 (allotFor rtt) ++ [264]
  let z := List.replicate 9 0
  let d := d.modPort p fun s => { s with allot := al, rcvd := z, released := z, owed := z, limitSent := al }
  let mine := (d.ports.filter fun e => e.1 < 144 && dieOf e.1 = dieOf p && e.2.allot.getD 8 0 ≠ 0).map fun e => (e.1, e.2.allot.getD 0 0)
  let d := eachOf ((lowerAllots (stagingFlits - 264 * mine.length) mine).filter fun e => e.2 < (d.port e.1).allot.getD 0 0) d fun d e =>
    (d.modPort e.1 fun s => lowerPort s e.2).fault (mkRec 5 0 0 (obj 0x02 e.1))
  -- nothing has been sent under the new port's allotment yet
  d.modPort p fun s => { s with released := z, owed := z, limitSent := s.allot }

/-- NODE_ASSIGN where the port has both a node and a slice and is in service (R284). -/
def Dev.assignNode (d : Dev) (p : Nat) : Dev :=
  let s := d.port p
  match d.edgeNode p with
  | some n => if s.lstate = 7 && s.kind = 1 && s.slice ≠ 0 then d.sendNodeAssign p n s.slice.toNat else d
  | none => d

/-- A port enters service (R282 steps 2 and 3). -/
def Dev.enterService (d : Dev) (p : Nat) : Dev :=
  let d := d.modPort p fun s => laneStates { s with lstate := 7, hold := 0, heldGrant := false }
  let s := d.port p
  let d := d.widthChanged p
  if s.kind = 2 then
    let d := d.modDetour s.dir fun x => { x with started := true }
    if (d.detour s.dir).state = 0 then
      eachOf ((d.dirPorts s.dir).filter fun q => !(q < 144 && d.inService q)) d fun d q => d.moveQueue s.dir q
    else d
  else d.assignNode p

/-- The checks of R150 on a LINK_HELLO of a torus port: 0 when it may enter service, else HOLD. -/
def torusCheck (d : Dev) (p : Nat) (b : List Byte) : Nat :=
  let s := d.port p
  let role := BitVec.ofNat 8 (num b 5 1)
  let members := (d.bundle s.dir).map fun q => (d.port q).member
  if !d.boxAllows p then 3
  else if num b 4 1 % 8 ≠ d.ident.straps.plane.toNat then 1
  else if num b 2 2 % 2048 ≠ stepRack d.rt d.rack s.dir then 1
  else if field role.toNat 6 2 ≠ 2 || field role.toNat 3 3 ≠ (s.dir ^^^ 1) then 1
  else if !inDomain d.rt d.rack || !inDomain d.rt (num b 2 2 % 2048) || num b 8 4 ≠ domainWord d.rt then 1
  else if members ≠ upTo members.length then 1
  else 0

/-- LINK_READY once the peer's credit, the own RTT and the identity checks are there; service once it was sent and received (R282). -/
def Dev.tryReady (d : Dev) (p : Nat) : Dev :=
  let s := d.port p
  if s.lstate ≠ 6 then d
  else
    let d := if !s.readySent && s.creditSeen && s.profileOk && 8 ≤ s.rttSamples.length then
        (d.modPort p fun s => { s with readySent := true }).sendLinkLocal p 0x56 (zeros 8)
      else d
    if (d.port p).readySent && (d.port p).readySeen then
      -- the checks of R150 and R149 hold as the port enters service, whatever was written since LINK_HELLO
      match (if s.kind = 2 then torusCheck d p s.hello else 0) with
      | 0 => d.enterService p
      | 3 => d.leaveService p 0 3 0
      | _ => d.holdPort p 1
    else d

/-- A link-local frame as the port receives it (R117): its checks, then `body` on its payload. It counts as received in class M, which R116 gives
it (R146). -/
def Dev.linkLocal (d : Dev) (p op len : Nat) (f : Frame) (body : Dev → List Byte → Dev) : Dev :=
  if (d.port p).loops then d.loopFrame p f
  else if (d.port p).lstate < 5 || 7 < (d.port p).lstate || (d.port p).discarding then d
  else if !f.hchkOk then d.headerFailure p
  else
  let d := d.countFrame p f
  if !f.checkOk then d.countBadCheck p f
  else if f.opn ≠ op || f.cls ≠ .m || f.hops ≠ 0 || f.payload.length ≠ len then d.countDiscard p discReserved
  else body d f.payload

/-- LINK_HELLO (R283). -/
def linkHelloD (p : ExtPort) (f : Frame) (d : Dev) : Dev :=
  d.linkLocal p 0x52 32 f fun d b =>
    if (d.port p).lstate ≠ 6 then d
    else if (d.port p).kind ≠ 2 then d.holdPort p 1
    else
      match torusCheck d p b with
      | 0 =>
        (d.modPort p fun s => { s with profileOk := true, hello := b }).tryReady p
      | 3 => d.leaveService p 0 3 0
      | _ => d.holdPort p 1

/-- Whether a profile identity meets R86. -/
def profileFits (b : List Byte) : Bool :=
  num b 0 2 = 1 && 256 ≤ num b 2 2 && num b 2 2 ≤ 16384 && 64 ≤ num b 4 2 && 1 ≤ num b 6 1 && num b 6 1 ≤ 64 &&
    21 ≤ num b 7 1 && num b 7 1 ≤ 29 && 16384 ≤ num b 8 4 && 1024 ≤ num b 12 2

/-- PROFILE_IDENT (R86, R283). -/
def profileIdentD (p : ExtPort) (f : Frame) (d : Dev) : Dev :=
  d.linkLocal p 0x50 32 f fun d b =>
    if (d.port p).lstate ≠ 6 then d
    else if (d.port p).kind ≠ 1 then d.holdPort p 1
    else
      let d := d.modPort p fun s => { s with profile := b }
      if profileFits b then (d.modPort p fun s => { s with profileOk := true }).tryReady p else d.holdPort p 2

/-- CREDIT_INIT (R282): LIMIT to the peer's allotments, SENT to 0. -/
def creditInitD (p : ExtPort) (f : Frame) (d : Dev) : Dev :=
  d.linkLocal p 0x53 32 f fun d b =>
    if (d.port p).lstate ≠ 6 then d
    else
      (d.modPort p fun s => { s with creditSeen := true, sent := List.replicate 9 0,
                                     limit := (upTo 9).map fun v => num b (2 * v) 2 }).tryReady p

/-- RTT_PROBE (R282): echoed ahead of every queued frame. -/
def rttProbeD (p : ExtPort) (f : Frame) (d : Dev) : Dev :=
  d.linkLocal p 0x54 16 f fun d b => if 6 ≤ (d.port p).lstate then d.sendLinkLocal p 0x55 b else d

/-- RTT_ECHO (R282): the largest of eight is RTT, which sets the allotments (R131). -/
def rttEchoD (p : ExtPort) (f : Frame) (d : Dev) : Dev :=
  d.linkLocal p 0x55 16 f fun d b =>
    if (d.port p).lstate ≠ 6 || 8 ≤ (d.port p).rttSamples.length then d
    else
      let d := d.modPort p fun s => { s with rttSamples := s.rttSamples ++ [d.now - num b 0 8] }
      let xs := (d.port p).rttSamples
      if xs.length < 8 then d
      else
        let rtt := xs.foldl max 0
        let d := (d.modPort p fun s => { s with rtt := min rtt 65535 }).setAllotment p rtt
        (d.sendLinkLocal p 0x53 (((d.port p).allot.flatMap fun a => le 2 a) ++ zeros 14)).tryReady p

/-- LINK_READY (R282). -/
def linkReadyD (p : ExtPort) (f : Frame) (d : Dev) : Dev :=
  d.linkLocal p 0x56 8 f fun d _ =>
    if (d.port p).lstate = 6 then (d.modPort p fun s => { s with readySeen := true }).tryReady p else d

/-- LINK_DOWN (R282, R289): the port leaves service; its clock detector keeps running (R290). After reason 3 this end returns to clock detect with
LINK_DROP_RESTORE too (R379). -/
def linkDownD (p : ExtPort) (f : Frame) (d : Dev) : Dev :=
  d.linkLocal p 0x57 8 f fun d b => (d.leaveService p 0 0 0).modPort p fun s => { s with dropDrill := num b 0 1 = 3 }

/-! ### Stages (R280) -/

/-- Full training starts (R281): counted, with an event. It starts from preset 1 (R433): the port's transmitter loads it, and its receiver asks the
peer's to, in the next period (DEDUCED, log 22). -/
def Dev.fullTraining (d : Dev) (p : Nat) : Dev :=
  let d := d.modPort p fun s =>
    (upTo 8).foldl (fun s l => s.modLane l fun n =>
        { n with taps := presetTaps 1, status := tapWord (presetStatus (presetTaps 1)) })
      { s with trainedFull := true, trainStart := true, eqSource := 1, fullTrainings := satAdd 32 s.fullTrainings 1 }
  d.fault (linkRec d p 0 0)

/-- Comma lock has passed on every lane: equalization starts (R280, R298). In near-end loopback it runs on preset 2, and no training follows (R433;
DESIGN CHOICE, log 205). -/
def Dev.startEqualization (d : Dev) (p : Nat) : Dev :=
  let d := d.modPort p fun s => s.toStage 4
  if (d.port p).lstate = 10 then d
  else if (d.port p).haveStored then d.modPort p fun s => { s with eqSource := 0 } else d.fullTraining p

/-- CLOCK_DETECT (R280, R290): also the clock that a port switched off by its peer waits for. Bring-up stages pause during a handover (R406). -/
def clockDetectD (p : ExtPort) (d : Dev) : Dev :=
  let s := d.port p
  if d.host.handover then d
  else if s.lstate = 1 then d.modPort p fun s => { s with lstate := 2 }
  else if s.lstate = 0 && s.hold = 0 && s.downReason.isNone && (d.kamro (dieOf p)).up && (s.kind = 1 || s.kind = 2) then
    let d := d.bringUp p
    if (d.port p).lstate = 1 then d.modPort p fun s => { s with lstate := 2 } else d
  else d

/-- CLOCK_DETECT_RETRY (R280): the stage is repeated once per second; no fault is recorded. -/
def clockDetectRetryD (p : ExtPort) (d : Dev) : Dev :=
  if (d.port p).lstate = 1 then d.modPort p fun s => { s with lstate := 1 } else d

/-- PHASE_ALIGNMENT (R280): `inverted` says that the pair which carries the clock arrives inverted, which the receiver corrects here (R431). -/
def phaseAlignmentD (p : ExtPort) (inverted : Bool) (d : Dev) : Dev :=
  if (d.port p).stage = 2 && !d.host.handover then
    d.modPort p fun s =>
      (s.rxWanted.foldl (fun s l => s.modLane l fun n => { n with phaseOk := true }) (s.toStage 3)).modLane (if s.rxClkSrc then 7 else 8)
        fun n => { n with inverted := inverted }
  else d

/-- EQUALIZATION_CHECK (R280): with stored coefficients, full training follows a lane above the limit; under full training a
passing lane is trained and reports RX_READY. -/
def equalizationCheckD (p : ExtPort) (pass : BitVec 8) (d : Dev) : Dev :=
  let s := d.port p
  if s.stage ≠ 4 || d.host.handover then d
  else
    let all := s.rxWanted.all fun l => pass.getLsbD l
    if s.trainedFull then
      d.modPort p fun s =>
        let s := s.rxWanted.foldl (fun s l => if pass.getLsbD l then s.modLane l fun n => { n with rxReady := true } else s) s
        if all then { s with lstate := 5, fecGood := 0 } else s
    else if all then d.modPort p fun s =>
      s.rxWanted.foldl (fun s l => s.modLane l fun n => { n with rxReady := true }) { s.toStage 5 with fecGood := 0 }
    else if s.lstate = 10 then d
    else d.fullTraining p

/-- BRING_UP_STAGE_TIMEOUT (R280): the lanes that have not completed a stage fail, or the port is held. The bound is extended by a handover (R406);
a port in loopback keeps its stage (DESIGN CHOICE, log 205). -/
def bringUpStageTimeoutD (p : ExtPort) (doneLanes : BitVec 8) (d : Dev) : Dev :=
  let s := d.port p
  let late := s.rxWanted.filter fun l => !doneLanes.getLsbD l
  if d.host.handover then d
  else if s.lstate = 2 then
    let d := d.lanesFail p late 2
    if (d.port p).lstate = 2 then d.modPort p fun s => { s with lstate := 3 } else d
  else if s.lstate = 3 then
    let d := d.lanesFail p late 2
    if (d.port p).lstate = 3 then d.startEqualization p else d
  else if s.lstate = 4 then
    if !s.trainedFull then d.fullTraining p
    else
      let d := d.lanesFail p late 3
      if (d.port p).lstate = 4 then d.modPort p fun s => { s with lstate := 5, fecGood := 0 } else d
  else if s.lstate = 5 then d.holdPort p 6
  else if s.lstate = 6 then d.holdPort p 1
  else d

/-- Whether LANE_SET is equal on every lane that carries symbols (R280). -/
def PortSt.lanesAgree (s : PortSt) : Bool := (bitsOf 8 s.rxLanes.toNat).all fun l => (s.lane l).setSeen = s.rxLanes

/-- Corrected symbols on the positions of lane `l` noted, and those of the last 1 µs kept (R278). -/
def noteErrors (now : Nat) (s : PortSt) (l n : Nat) : PortSt :=
  s.modLane l fun x => { x with symErr := (if n = 0 then [] else [(now, n)]) ++ x.symErr.filter fun e => now < e.1 + 1000 }

/-- Whether a lane shows more than 64 corrected symbols in 1 µs (R278). -/
def PortSt.tooMany (s : PortSt) (l : Nat) : Bool := 64 < ((s.lane l).symErr.map (·.2)).foldl (· + ·) 0

/-- The symbol-error detector of the lanes of a port (R278): a lane above its limit fails, and its count starts anew. -/
def Dev.detectErrors (d : Dev) (p : Nat) : Dev :=
  let bad := (bitsOf 8 (d.port p).rxLanes.toNat).filter fun l => (d.port p).tooMany l && !(d.port p).rxMapped.getLsbD l
  (d.modPort p fun s => bad.foldl (fun s l => s.modLane l fun x => { x with symErr := [] }) s).lanesFail p bad 3

/-- The bits of a codeword's message join those of the period received so far, and the whole blocks among them leave (R271, R272, R275): they, and
the port after them. -/
def takeMessage (s : PortSt) (msg : List (BitVec 10)) : List (Option (Bool × BitVec 256)) × PortSt :=
  let (bs, rest, scr) := takeBlocks 6 s.rxScr (s.rxBits ++ msg.flatMap fun x => toBits 10 x.toNat)
  (bs, { s with rxCw := s.rxCw + 1, rxBits := rest, rxScr := scr })

/-- What a codeword's blocks do (R271, R277): a bad one is a header-check failure (R109), counted alone in a loopback, and far-end loopback sends every
good one again (R423). -/
def Dev.takeBlocks (d : Dev) (p : Nat) (bad : Bool) (bs : List (Option (Bool × BitVec 256))) : Dev :=
  let s := d.port p
  let d := if s.loop = 7 then eachOf (bs.filterMap id) d fun d b => d.emit (.block p b.1 b.2) else d
  if !(bad || bs.any (·.isNone)) || s.stage < 6 then d
  else if s.lstate = 10 then d.countDiscard p discHeader
  else d.blockFailure p

/-- The levels of a codeword with the inverted pairs corrected (R431): an inversion turns level `l` into 3 − `l`, of which the two bits are not Gray
coded here. -/
def PortSt.corrected' (s : PortSt) (lanes : List Nat) (levels : List (List (BitVec 2))) : List (List (BitVec 2)) :=
  (levels.zip (upTo levels.length)).map fun e => if (s.lane (lanes.getD e.2 0)).inverted then e.1.map (~~~ ·) else e.1

/-- CODEWORD_DECODE (R271, R275–R277, R280): the levels of one codeword on each lane of LANE_SET, in ascending order. Counters, the detector of
symbol errors, the FEC lock, and the header-check failure of an uncorrectable codeword or of a block with neither header. What a block holds
comes as a command of its own (log 184). The stage that ends here waits for the end of a handover (R406). -/
def codewordDecodeD (p : ExtPort) (levels : List (List (BitVec 2))) (d : Dev) : Dev :=
  let s := d.port p
  if s.stage < 4 || 7 < s.stage || s.rxPwr ≠ 0 then d
  else
    let lanes := bitsOf 8 s.rxLanes.toNat
    let cw := (gatherCodeword lanes.length s.rxCw (s.corrected' lanes levels)).map (·.toNat)
    let detect (d : Dev) : Dev := if s.lstate = 10 then d else d.detectErrors p
    match rsDecode cw with
    | some (n, good) =>
      let wrong (m : Nat) : Nat := ((upTo 136).filter fun j => laneOf lanes.length s.rxCw j = m && cw.getD j 0 ≠ good.getD j 0).length
      let d := d.modPort p fun s => (lanes.zip (upTo lanes.length)).foldl (fun s e => noteErrors d.now s e.1 (wrong e.2))
        { s with corrected := satAdd 64 s.corrected n, fecGood := s.fecGood + 1 }
      let (bs, s') := takeMessage (d.port p) ((good.take 128).map (BitVec.ofNat 10))
      let d := (d.modPort p fun _ => s').takeBlocks p false bs
      let d :=
        if s.stage = 5 && 4 ≤ (d.port p).fecGood && s.lanesAgree && !d.host.handover then
          (if s.lstate = 10 then d.modPort p fun s => s.toStage 6 else d.startExchange p)
        else d
      detect d
    | none =>
      let d := d.modPort p fun s => lanes.foldl (fun s l => noteErrors d.now s l 5)
        { s with uncorrectable := satAdd 64 s.uncorrectable 1, fecGood := 0 }
      let (bs, s') := takeMessage (d.port p) ((cw.take 128).map (BitVec.ofNat 10))
      detect ((d.modPort p fun _ => s').takeBlocks p true bs)

/-- Meaning of LINK_HELLO. -/
def execLinkHello (p : ExtPort) (f : Frame) (s : State) : Host.Outcome State Fault Refusal := .next (s.onDev (linkHelloD p f))
/-- Meaning of PROFILE_IDENT. -/
def execProfileIdent (p : ExtPort) (f : Frame) (s : State) : Host.Outcome State Fault Refusal := .next (s.onDev (profileIdentD p f))
/-- Meaning of CREDIT_INIT. -/
def execCreditInit (p : ExtPort) (f : Frame) (s : State) : Host.Outcome State Fault Refusal := .next (s.onDev (creditInitD p f))
/-- Meaning of RTT_PROBE. -/
def execRttProbe (p : ExtPort) (f : Frame) (s : State) : Host.Outcome State Fault Refusal := .next (s.onDev (rttProbeD p f))
/-- Meaning of RTT_ECHO. -/
def execRttEcho (p : ExtPort) (f : Frame) (s : State) : Host.Outcome State Fault Refusal := .next (s.onDev (rttEchoD p f))
/-- Meaning of LINK_READY. -/
def execLinkReady (p : ExtPort) (f : Frame) (s : State) : Host.Outcome State Fault Refusal := .next (s.onDev (linkReadyD p f))
/-- Meaning of LINK_DOWN. -/
def execLinkDown (p : ExtPort) (f : Frame) (s : State) : Host.Outcome State Fault Refusal := .next (s.onDev (linkDownD p f))
/-- Meaning of CLOCK_DETECT. -/
def execClockDetect (p : ExtPort) (s : State) : Host.Outcome State Fault Refusal := .next (s.onDev (clockDetectD p))
/-- Meaning of CLOCK_DETECT_RETRY. -/
def execClockDetectRetry (p : ExtPort) (s : State) : Host.Outcome State Fault Refusal := .next (s.onDev (clockDetectRetryD p))
/-- Meaning of PHASE_ALIGNMENT. -/
def execPhaseAlignment (p : ExtPort) (s : State) (inverted : Bool := false) : Host.Outcome State Fault Refusal :=
  .next (s.onDev (phaseAlignmentD p inverted))
/-- Meaning of EQUALIZATION_CHECK. -/
def execEqualizationCheck (p : ExtPort) (pass : BitVec 8) (s : State) : Host.Outcome State Fault Refusal :=
  .next (s.onDev (equalizationCheckD p pass))
/-- Meaning of BRING_UP_STAGE_TIMEOUT. -/
def execBringUpStageTimeout (p : ExtPort) (doneLanes : BitVec 8) (s : State) : Host.Outcome State Fault Refusal :=
  .next (s.onDev (bringUpStageTimeoutD p doneLanes))
/-- Meaning of CODEWORD_DECODE. -/
def execCodewordDecode (p : ExtPort) (levels : List (List (BitVec 2))) (s : State) : Host.Outcome State Fault Refusal :=
  .next (s.onDev (codewordDecodeD p levels))

end Sys2Proof.Machine
end

