-- ==== Sys2Proof/Machine/Links.lean ====
section
/-!
DEFINITION. The line in service: control blocks (R118–R120, R287, R291, R292), alignment blocks (R273), lane and clock failures (R278,
R286–R289), quiet and sleep (R290, R291), in-service checks (R293), detour probes and bundle start-up (R159, R161).
-/
namespace Sys2Proof.Machine

open Sys2Proof

/-! ### Control blocks -/

/-- A control block of type `k` as the port receives it (R118): ignored when CCHK fails. A CTYPE above 0x0F, beyond those given to credit,
answers, link power and training, is counted. -/
def Dev.ctrlBlock (d : Dev) (p k : Nat) (b : CtrlBlock) (body : Dev → Dev) : Dev :=
  let s := d.port p
  if s.lstate < 4 || 7 < s.lstate || !cchkOk b then d
  else if ctype b = k then body d
  else if 0x0F < ctype b then d.modPort p fun s => { s with ctypeUnknown := s.ctypeUnknown + 1 }
  else d

/-- LINK_STATE (R119): LIMIT is taken; RESYNC_REQ is answered with SYNC. -/
def linkStateD (p : ExtPort) (b : CtrlBlock) (d : Dev) : Dev :=
  d.ctrlBlock p 0x01 b fun d =>
    let d := d.modPort p fun s => { s with limit := (upTo 9).map fun v => cbNum b (2 + 2 * v) 2 }
    if (cbNum b 1 1).testBit 0 then d.sendSync p else d

/-- LIMIT of a channel (R119): released flits plus the allotment; held while the channel is starved (R420 kind 4). -/
def limitNow (s : PortSt) (v : Nat) : Nat :=
  if v < 8 && s.starved.getLsbD v then s.limitSent.getD v 0 else (s.released.getD v 0 + s.allot.getD v 0) % 65536

/-- Whether a LIMIT has advanced by a quarter of its allotment beyond the value last sent (R291). -/
def quarterAhead (s : PortSt) : Bool :=
  (upTo 9).any fun v =>
    0 < s.allot.getD v 0 && s.allot.getD v 0 ≤ 4 * ((limitNow s v + 65536 - s.limitSent.getD v 0) % 65536)

/-- LINK_STATE_SEND (R119, R291): LIMIT first advances as the throttle level allows (R388). -/
def linkStateSendD (p : ExtPort) (d : Dev) : Dev :=
  let s := (d.port p).advance d.throttle d.now
  if s.lstate < 6 || 7 < s.lstate || (s.txPwr ≠ 0 && !quarterAhead s) then d
  else
    let lim := (upTo 9).map (limitNow s)
    (d.modPort p fun s => { s.advance d.throttle d.now with limitSent := lim }).sendCtrl p
      ([0x01, BitVec.ofNat 8 (b2n s.resyncReq)] ++ lim.flatMap fun n => le 2 n)

/-- SYNC (R119): the flits between the own count and SENT count as received and released. -/
def syncD (p : ExtPort) (b : CtrlBlock) (d : Dev) : Dev :=
  d.ctrlBlock p 0x03 b fun d =>
    d.modPort p fun s =>
      let sent := (upTo 9).map fun v => cbNum b (2 + 2 * v) 2
      let lost (v : Nat) : Nat := (sent.getD v 0 + 65536 - s.rcvd.getD v 0) % 65536
      (upTo 9).foldl (fun s v => payRelease s v (lost v)) { s with discarding := false, resyncReq := false, rcvd := sent }

/-- A WIDTH_REQUEST as a control block carries it. -/
def widthOf' (b : CtrlBlock) : WidthReq :=
  { seq := cbNum b 1 1, laneSet := BitVec.ofNat 8 (cbNum b 2 1), clkSrc := (cbNum b 3 1).testBit 0,
    failed := BitVec.ofNat 8 (cbNum b 4 1), failedClk := (cbNum b 5 1).testBit 0 }

/-- WIDTH_REQUEST (R287, R288, R294): the first copy of a SEQ not yet applied changes the lanes sent; the lanes named as failed are
mapped out. -/
def widthRequestD (p : ExtPort) (b : CtrlBlock) (d : Dev) : Dev :=
  d.ctrlBlock p 0x04 b fun d =>
    let r := widthOf' b
    let s := d.port p
    if (s.widthApplied.map (·.seq)) = some r.seq || r.laneSet = 0 then d
    else
      let fallback := r.clkSrc && !s.txClkSrc
      let lost := r.failed.toNat + 256 * b2n r.failedClk
      let d := d.modPort p fun s =>
        { s with txLanes := r.laneSet, txClkSrc := r.clkSrc, txMapped := s.txMapped ||| BitVec.ofNat 9 lost,
                 widthApplied := some r, narrowings := satAdd 32 s.narrowings 1, lane7Clock := r.clkSrc,
                 heldGrant := s.heldGrant || fallback, fallbackHold := s.fallbackHold || fallback }
      let d := if lost = 0 then d else (d.markMapped).fault (linkRec d p 0 (if r.failedClk then 2 else 1))
      let d := (d.modPort p fun s => { s with txPwr := 0 }).sendAlign p true
      let d := if fallback then d.emit (.pattern p 0) else d
      (d.sendSync p).widthChanged p

/-- WIDTH_REQUEST_REPEAT (R287): every 64 blocks until the alignment blocks asked for arrive. -/
def widthRequestRepeatD (p : ExtPort) (d : Dev) : Dev :=
  match (d.port p).widthOut with | some r => d.sendWidth p r | none => d

/-- WIDTH_REQUEST_UNANSWERED (R289): 4 µs without the alignment blocks asked for. -/
def widthRequestUnansweredD (p : ExtPort) (d : Dev) : Dev :=
  if (d.port p).widthOut.isSome then d.leaveService p 9 (d.port p).hold 0 else d

/-- POWER (R291): the peer announces quiet or sleep. -/
def powerD (p : ExtPort) (b : CtrlBlock) (d : Dev) : Dev :=
  d.ctrlBlock p 0x05 b fun d =>
    let st := field (cbNum b 1 1) 0 2
    if st = 1 || st = 2 then d.modPort p fun s => { s with rxPwr := st } else d

/-- WAKE (R292): the transmitter resumes at once. -/
def wakeD (p : ExtPort) (b : CtrlBlock) (d : Dev) : Dev := d.ctrlBlock p 0x07 b fun d => d.resumeTx p

/-- PACER_ANSWER_REPEAT (R120): a block that holds the repeats alone. -/
def pacerAnswerRepeatD (p : ExtPort) (d : Dev) : Dev :=
  let es := (d.port p).repeats
  if es.isEmpty then d
  else (d.modPort p fun s => { s with repeats := es.drop 5 }).sendAnswers p (es.take 5)

/-! ### Quiet and sleep (R290, R291) -/

/-- Whether a frame is queued for an output. -/
def Dev.hasQueued (d : Dev) (p : Nat) : Bool :=
  (upTo 25).any fun q => let Q := d.queue p q; !(Q.sram.isEmpty && Q.spilled.isEmpty && Q.spillOpen.isEmpty)

/-- Whether a valid reservation names a port as its output (R137). -/
def Dev.reservedOutput (d : Dev) (p : Nat) : Bool := d.resvs.any fun e => e.2.fields.valid && e.2.fields.output = p

/-- QUIET_ENTRY (R290, R291). -/
def quietEntryD (p : ExtPort) (d : Dev) : Dev :=
  let s := d.port p
  if s.lstate = 7 && s.txPwr = 0 && 1 ≤ s.pwrPolicy && !d.hasQueued p && !d.reservedOutput p then
    (d.emit (.ctrl p (mkCtrl [0x05, 0x01]))).modPort p fun s => { s with txPwr := 1 }
  else d

/-- SLEEP_ENTRY (R290, R291). -/
def sleepEntryD (p : ExtPort) (d : Dev) : Dev :=
  let s := d.port p
  if s.lstate = 7 && s.txPwr = 1 && s.pwrPolicy = 2 && !d.hasQueued p && !d.reservedOutput p then
    (d.emit (.ctrl p (mkCtrl [0x05, 0x02]))).modPort p fun s => { s with txPwr := 2 }
  else d

/-- POWER_RESUME (R291): credit, an answer, a width request or a frame is to be sent. -/
def powerResumeD (p : ExtPort) (d : Dev) : Dev :=
  let s := d.port p
  if quarterAhead s || !s.repeats.isEmpty || s.widthOut.isSome || d.hasQueued p || d.reservedOutput p then d.resumeTx p else d

/-! ### Alignment blocks (R273, R287, R288) -/

/-- What a lane's receiver keeps of an alignment block that names it (R273): a comma follows another where its PERIOD is the next. -/
def takeComma (n : Lane) (b : AlignBlock) : Lane :=
  let period := BitVec.ofNat 16 (field b.toNat 96 16)
  { n with commas := if n.lastPeriod = some (period - 1) then n.commas + 1 else 1, lastPeriod := some period,
           setSeen := BitVec.ofNat 8 (field b.toNat 80 8), clkSeen := b.getLsbD 88, peerReady := b.getLsbD 137 }

/-- Whether the comma stands in an alignment block (R273). -/
def commaOk (b : AlignBlock) : Bool := field b.toNat 0 64 = commaBits

/-- Lanes that lost lock with the clock lane are phase-aligned to lane 7, with the stored phases, once the new set is sent under it (R288 step 3). -/
def realign (s : PortSt) : PortSt :=
  if s.rxClkSrc then (bitsOf 8 s.rxLanes.toNat).foldl (fun s l => s.modLane l fun n => { n with phaseOk := true }) s else s

/-- Whether every wanted lane has taken comma lock: two consecutive commas. -/
def PortSt.allLocked (s : PortSt) : Bool := s.rxWanted.all fun l => 2 ≤ (s.lane l).commas

/-- An alignment block whose pair arrives inverted (R431): level `l` comes as 3 − `l`, which under the Gray code of R268 inverts the high bit of each
symbol. -/
def invertBlock (b : AlignBlock) : AlignBlock := b ^^^ BitVec.ofNat 260 ((4 ^ 130 - 1) / 3 * 2)

/-- Whether a block is an alignment block that its lane takes: its comma stands and its ACHK holds (R273). -/
def blockOk (b : AlignBlock) : Bool := achkOk b && commaOk b

/-- Whether lane `l` of a port corrects an inversion once a block has come in (R431): comma lock finds the polarity, which then stays. -/
def PortSt.polarity (s : PortSt) (l : Nat) (b : AlignBlock) : Bool :=
  let inv := (s.lane l).inverted
  if s.stage = 3 && !blockOk (if inv then invertBlock b else b) && blockOk (if inv then b else invertBlock b) then !inv else inv

/-- ALIGNMENT_BLOCK (R273, R276): a mapped-out lane is ignored (R294). A block without its comma, or whose ACHK fails, breaks the run of commas of a
lane that has no lock yet and does nothing else. The codewords of a new period follow, under the scrambler's start (R272). The stage that ends here
waits for the end of a handover (R406). -/
def alignmentBlockD (p : ExtPort) (lane : Fin 8) (b : AlignBlock) (d : Dev) : Dev :=
  let s := d.port p
  if s.stage < 3 || 7 < s.stage || s.rxMapped.getLsbD lane then d
  else
    let inv := s.polarity lane b
    let b := if inv then invertBlock b else b
    let d := d.modPort p fun s => s.modLane lane fun n => { n with inverted := inv }
    if !blockOk b then
      if s.stage = 3 then d.modPort p fun s => s.modLane lane fun n => { n with commas := 0, lastPeriod := none } else d
    else if field b.toNat 64 4 ≠ lane.val then
      if s.lstate = 3 then
        let d := d.lanesFail p [lane.val] 2
        if (d.port p).lstate = 3 && (d.port p).allLocked && !d.host.handover then d.startEqualization p else d
      else d
    else
      let set := BitVec.ofNat 8 (field b.toNat 80 8)
      let clk := b.getLsbD 88
      let restart := b.getLsbD 89
      let d := d.modPort p fun s =>
        let s := s.modLane lane fun n => applyRequest (takeComma n b)
          (BitVec.ofNat 10 (field b.toNat 124 10)) (field b.toNat 134 3)
        { s with rxPeriod := BitVec.ofNat 16 (field b.toNat 96 16), peerLstage := field b.toNat 90 2,
                 rxPwr := if restart then 0 else s.rxPwr, wakeSent := if restart then false else s.wakeSent,
                 rxCw := 0, rxBits := [], rxScr := scrStart }
      let d :=
        if s.fallbackHold && field b.toNat 90 2 = 2 then
          d.modPort p fun s => { s with fallbackHold := false, heldGrant := false }
        else d
      if s.stage = 3 then
        let d := d.modPort p fun s => { s with rxLanes := set, rxClkSrc := clk }
        if (d.port p).allLocked && !d.host.handover then d.startEqualization p else d
      else
        match s.widthOut with
        | some r =>
          if r.laneSet = set && r.clkSrc = clk then
            let d := d.modPort p fun s =>
              laneStates (realign { s with widthOut := none, rxLanes := set, rxClkSrc := clk, relock := s.relock && !clk,
                                           discarding := s.lstate = 7, resyncReq := s.lstate = 7 })
            (d.dropOpenFrames p).widthChanged p
          else d
        | none => if s.stage < 7 then d.modPort p fun s => { s with rxLanes := set, rxClkSrc := clk } else d

/-- The coefficient requests of a port's receiver in full training, which starts from preset 1 (R433): after that its equalizer decides, and nothing
fixes them (R274; log 22). The value 0b11 is reserved and never sent, and preset 2 serves near-end loopback only (R433). -/
def Dev.chooseRequests (d : Dev) (p : Nat) : Dev :=
  if (d.port p).trainStart then
    d.modPort p fun s => s.rxWanted.foldl (fun s l => s.modLane l fun n => { n with reqCoef := 0, reqPreset := 1 }) { s with trainStart := false }
  else
  eachOf (d.port p).rxWanted d fun d l =>
    let (v, d) := d.draw
    let pair (i : Nat) : Nat := let x := field v.toNat (2 * i) 2; (if x = 3 then 0 else x) * 2 ^ (2 * i)
    let req := ((upTo 5).map pair).foldl (· + ·) 0
    let pre := field v.toNat 10 3
    d.modPort p fun s => s.modLane l fun n => { n with reqCoef := BitVec.ofNat 10 req, reqPreset := BitVec.ofNat 3 (if pre = 2 then 0 else pre) }

/-- PERIOD_START (R273): the transmitter's next period, with the lane errors of a perturbation in service (R420 kind 8); in quiet only the period
count runs on (R290). -/
def periodStartD (p : ExtPort) (d : Dev) : Dev :=
  let s := d.port p
  if s.stage < 1 || 7 < s.stage then d
  else if s.txPwr = 0 then
    let d := if s.lstate = 4 && s.trainedFull then d.chooseRequests p
             else d.modPort p fun s => s.rxWanted.foldl (fun s l => s.modLane l fun n => { n with reqCoef := 0, reqPreset := 0 }) s
    let d := d.sendAlign p false
    if s.lstate = 7 then d.laneErrors p else d
  else if s.txPwr = 1 then d.modPort p fun s => { s with period := s.period + 1 }
  else d

/-! ### Lane and clock failures (R278, R286, R288, R289) -/

/-- Whether a direction's detectors report: not in quiet, sleep or off (R278). -/
def PortSt.detects (s : PortSt) : Bool := 2 ≤ s.lstate && s.lstate ≤ 7 && s.rxPwr = 0

/-- LANE_LOSS_OF_SIGNAL (R278). -/
def laneLossOfSignalD (p : ExtPort) (lane : Fin 8) (d : Dev) : Dev :=
  let s := d.port p
  if s.detects && !s.rxMapped.getLsbD lane then
    (d.modPort p fun s => s.modLane lane fun n => { n with losEvents := satAdd 32 n.losEvents 1 }).lanesFail p [lane.val] 1
  else d

/-- LANE_LOSS_OF_LOCK (R278). -/
def laneLossOfLockD (p : ExtPort) (lane : Fin 8) (d : Dev) : Dev :=
  let s := d.port p
  if s.detects && !s.rxMapped.getLsbD lane then
    (d.modPort p fun s => s.modLane lane fun n => { n with lolEvents := satAdd 32 n.lolEvents 1, commas := 0 }).lanesFail p [lane.val] 2
  else d

/-- SYMBOL_ERRORS (R278). -/
def symbolErrorsD (p : ExtPort) (lane : Fin 8) (d : Dev) : Dev :=
  let s := d.port p
  if s.detects && !s.rxMapped.getLsbD lane then d.lanesFail p [lane.val] 3 else d

/-- CLOCK_LOSS_OF_SIGNAL (R288). -/
def clockLossOfSignalD (p : ExtPort) (d : Dev) : Dev :=
  let s := d.port p
  if s.detects && !s.rxMapped.getLsbD 8 then
    (d.modPort p fun s => s.modLane 8 fun n => { n with losEvents := satAdd 32 n.losEvents 1 }).lanesFail p [8] 1
  else d

/-- CLOCK_FALLBACK_TIMEOUT (R288, R289). -/
def clockFallbackTimeoutD (p : ExtPort) (d : Dev) : Dev :=
  let s := d.port p
  if s.fallbackHold then d.leaveService p 9 s.hold (s.lane 8).cause else d

/-- CREDIT_STALL (R289): a frame of a channel has waited for credit, with no power state in force. -/
def creditStallD (p : ExtPort) (vc : Fin 9) (d : Dev) : Dev :=
  let s := d.port p
  let waits := (upTo 25).any fun q => match (d.queue p q).sram with
    | x :: _ => x.f.vc = vc.val && !d.creditCovers p x.f
    | [] => false
  if s.lstate = 7 && s.txPwr = 0 && s.rxPwr = 0 && waits then d.leaveService p 9 s.hold 0 else d

/-! ### In-service checks (R293, R424) -/

/-- The fp32 nearest to a ratio, ties to even (R296; log 23). -/
def ratioFp32 (n m : Nat) : BitVec 32 :=
  if m = 0 || n = 0 then 0
  else
    -- q = ⌊n·2^k / m⌋ with 24 to 25 significant bits
    let k := 26 + m.log2 - n.log2
    let q := n * 2 ^ k / m
    let sticky := decide (n * 2 ^ k % m ≠ 0)
    let e := q.log2
    let low := q % 2 ^ (e - 23)
    let half := 2 ^ (e - 24)
    let m0 := q / 2 ^ (e - 23)
    let up := half < low || (low = half && (sticky || m0 % 2 = 1))
    let r := m0 + b2n up
    BitVec.ofNat 32 ((e + 127 - k) * 2 ^ 23 + r - 2 ^ 23)

/-- Whether a perturbation suspends the checks of a port (R424). -/
def Dev.checksSuspended (d : Dev) (p : Nat) : Bool :=
  d.test.perturbs.any fun e => e.2.state = 1 && (
    ((e.2.kind = 7 || e.2.kind = 10) && e.2.target = obj 0x02 p) ||
    (e.2.kind = 8 && (upTo 9).any fun l => e.2.target = obj 0x03 (16 * p + l)))

/-- IN_SERVICE_CHECK_START (R293). -/
def inServiceCheckStartD (p : ExtPort) (d : Dev) : Dev :=
  if (d.port p).lstate = 7 && !d.checksSuspended p then d.modPort p fun s => { s with checkRunning := true } else d

/-- IN_SERVICE_CHECK_END (R278, R293): a lane above 1 × 10^−6 fails, one above 5 × 10^−7 is recorded. In quiet and sleep the check ends with its
LAST_BER, and reports nothing (R278). -/
def inServiceCheckEndD (p : ExtPort) (errs : List Nat) (bits : Nat) (d : Dev) : Dev :=
  let s := d.port p
  if !s.checkRunning then d
  else
    let used := bitsOf 8 s.rxLanes.toNat
    let d := d.modPort p fun s =>
      used.foldl (fun s l => s.modLane l fun n => { n with lastBer := ratioFp32 (errs.getD l 0) bits }) { s with checkRunning := false }
    let bad := used.filter fun l => bits < errs.getD l 0 * 1000000
    if s.rxPwr ≠ 0 then d
    else
    let d := if (used.any fun l => bits < errs.getD l 0 * 2000000 && errs.getD l 0 * 1000000 ≤ bits) then d.fault (linkRec d p 0 0) else d
    if bad.isEmpty then d else d.lanesFail p bad 4

/-! ### Probes and start-up of bundles (R159, R161) -/

/-- BUNDLE_STARTUP_TIMEOUT (R159): no member entered service within 200 ms. -/
def bundleStartupTimeoutD (dir : Dir) (d : Dev) : Dev :=
  if (d.detour dir).started then d else d.checkBundle dir

/-- Meaning of LINK_STATE. -/
def execLinkState (p : ExtPort) (b : CtrlBlock) (s : State) : Host.Outcome State Fault Refusal := .next (s.onDev (linkStateD p b))
/-- Meaning of LINK_STATE_SEND. -/
def execLinkStateSend (p : ExtPort) (s : State) : Host.Outcome State Fault Refusal := .next (s.onDev (linkStateSendD p))
/-- Meaning of SYNC. -/
def execSync (p : ExtPort) (b : CtrlBlock) (s : State) : Host.Outcome State Fault Refusal := .next (s.onDev (syncD p b))
/-- Meaning of WIDTH_REQUEST. -/
def execWidthRequest (p : ExtPort) (b : CtrlBlock) (s : State) : Host.Outcome State Fault Refusal := .next (s.onDev (widthRequestD p b))
/-- Meaning of WIDTH_REQUEST_REPEAT. -/
def execWidthRequestRepeat (p : ExtPort) (s : State) : Host.Outcome State Fault Refusal := .next (s.onDev (widthRequestRepeatD p))
/-- Meaning of WIDTH_REQUEST_UNANSWERED. -/
def execWidthRequestUnanswered (p : ExtPort) (s : State) : Host.Outcome State Fault Refusal := .next (s.onDev (widthRequestUnansweredD p))
/-- Meaning of POWER. -/
def execPower (p : ExtPort) (b : CtrlBlock) (s : State) : Host.Outcome State Fault Refusal := .next (s.onDev (powerD p b))
/-- Meaning of WAKE. -/
def execWake (p : ExtPort) (b : CtrlBlock) (s : State) : Host.Outcome State Fault Refusal := .next (s.onDev (wakeD p b))
/-- Meaning of PACER_ANSWER_REPEAT. -/
def execPacerAnswerRepeat (p : ExtPort) (s : State) : Host.Outcome State Fault Refusal := .next (s.onDev (pacerAnswerRepeatD p))
/-- Meaning of QUIET_ENTRY. -/
def execQuietEntry (p : ExtPort) (s : State) : Host.Outcome State Fault Refusal := .next (s.onDev (quietEntryD p))
/-- Meaning of SLEEP_ENTRY. -/
def execSleepEntry (p : ExtPort) (s : State) : Host.Outcome State Fault Refusal := .next (s.onDev (sleepEntryD p))
/-- Meaning of POWER_RESUME. -/
def execPowerResume (p : ExtPort) (s : State) : Host.Outcome State Fault Refusal := .next (s.onDev (powerResumeD p))
/-- Meaning of ALIGNMENT_BLOCK. -/
def execAlignmentBlock (p : ExtPort) (lane : Fin 8) (b : AlignBlock) (s : State) : Host.Outcome State Fault Refusal :=
  .next (s.onDev (alignmentBlockD p lane b))
/-- Meaning of PERIOD_START. -/
def execPeriodStart (p : ExtPort) (s : State) : Host.Outcome State Fault Refusal := .next (s.onDev (periodStartD p))
/-- Meaning of LANE_LOSS_OF_SIGNAL. -/
def execLaneLossOfSignal (p : ExtPort) (lane : Fin 8) (s : State) : Host.Outcome State Fault Refusal :=
  .next (s.onDev (laneLossOfSignalD p lane))
/-- Meaning of LANE_LOSS_OF_LOCK. -/
def execLaneLossOfLock (p : ExtPort) (lane : Fin 8) (s : State) : Host.Outcome State Fault Refusal :=
  .next (s.onDev (laneLossOfLockD p lane))
/-- Meaning of SYMBOL_ERRORS. -/
def execSymbolErrors (p : ExtPort) (lane : Fin 8) (s : State) : Host.Outcome State Fault Refusal := .next (s.onDev (symbolErrorsD p lane))
/-- Meaning of CLOCK_LOSS_OF_SIGNAL. -/
def execClockLossOfSignal (p : ExtPort) (s : State) : Host.Outcome State Fault Refusal := .next (s.onDev (clockLossOfSignalD p))
/-- Meaning of CLOCK_FALLBACK_TIMEOUT. -/
def execClockFallbackTimeout (p : ExtPort) (s : State) : Host.Outcome State Fault Refusal := .next (s.onDev (clockFallbackTimeoutD p))
/-- Meaning of CREDIT_STALL. -/
def execCreditStall (p : ExtPort) (vc : Fin 9) (s : State) : Host.Outcome State Fault Refusal := .next (s.onDev (creditStallD p vc))
/-- Meaning of IN_SERVICE_CHECK_START. -/
def execInServiceCheckStart (p : ExtPort) (s : State) : Host.Outcome State Fault Refusal := .next (s.onDev (inServiceCheckStartD p))
/-- Meaning of IN_SERVICE_CHECK_END. -/
def execInServiceCheckEnd (p : ExtPort) (errs : List Nat) (bits : Nat) (s : State) : Host.Outcome State Fault Refusal :=
  .next (s.onDev (inServiceCheckEndD p errs bits))
/-- Meaning of BUNDLE_STARTUP_TIMEOUT. -/
def execBundleStartupTimeout (d : Dir) (s : State) : Host.Outcome State Fault Refusal := .next (s.onDev (bundleStartupTimeoutD d))

end Sys2Proof.Machine
end

