-- ==== Sys2Proof/Machine/Pool.lean ====
section
/-!
DEFINITION. The pool's memory: where an offset lies (R249), lines with their metadata (R256–R258), errors (R257), repair rows and
mapped-out pages (R260, R261), regions (R33).
-/
namespace Sys2Proof.Machine

open Sys2Proof

/-! ### Lines -/

/-- Metadata of a line: OWNER 0 and no POISON where nothing is listed (R266). -/
def PoolSt.lineMeta (p : PoolSt) (line : Nat) : LineMeta := tget p.lmeta line {}

/-- Metadata of a line set; the entry goes where it is that of a fresh line. -/
def PoolSt.setMeta (p : PoolSt) (line : Nat) (m : LineMeta) : PoolSt :=
  { p with lmeta := if m = {} then tdel p.lmeta line else tset p.lmeta line m }

/-- The 64 bytes of a line. -/
def PoolSt.line (p : PoolSt) (line : Nat) : List Byte := memReads p.mem (64 * line) 64

/-- A line written under a slice and an XTS key, none for plaintext: OWNER the slice, POISON 0 (R258, R262). `mem` holds the plaintext, `cipher`
the key under which the line is stored. -/
def PoolSt.writeLine (p : PoolSt) (line : Nat) (bs : List Byte) (owner : BitVec 10) (key : List Byte) : PoolSt :=
  { p with mem := memWrites p.mem (64 * line) bs }.setMeta line { owner := owner, poison := false, cipher := key }

/-- A line as its channel stores it: AES-256-XTS under its key, the tweak being its number, offset >> 6 (R262). -/
def PoolSt.stored (p : PoolSt) (line : Nat) : List Byte :=
  let k := (p.lineMeta line).cipher
  if k = [] then p.line line else padTo 64 (Config.xtsEncrypt k line (p.line line))

/-- A line decrypted under a key, none for plaintext (R262): its plaintext under the key it was stored with, else what XTS makes of it. -/
def PoolSt.opened (p : PoolSt) (line : Nat) (key : List Byte) : List Byte :=
  if (p.lineMeta line).cipher = key then p.line line
  else if key = [] then p.stored line
  else padTo 64 (Config.xtsDecrypt key line (p.stored line))

/-- What a step under slice `sl` and a key sees of a line (R258, R262): zeros of a line another slice owns, decided before decryption. -/
def PoolSt.seen (p : PoolSt) (line : Nat) (sl : BitVec 10) (key : List Byte) : List Byte :=
  if (p.lineMeta line).owner = sl then p.opened line key else zeros 64

/-- The 8 metadata bytes of a line whose checks hold (R256): CHECK over what is stored, MCHK over OWNER and POISON. Bit errors are the finding that
comes with a command that reads the line (log 10). -/
def PoolSt.metaWord (p : PoolSt) (line : Nat) : BitVec 64 :=
  let m := p.lineMeta line
  let top := b2n m.poison + m.owner.toNat * 4
  let check (k : Nat) : Nat := (Config.secDed9 (BitVec.ofNat 128 (unle (cut (p.stored line) (16 * k) 16)))).toNat
  BitVec.ofNat 64 (((upTo 4).map fun k => check k * 2 ^ (9 * k)).foldl (· + ·) 0 + top * 2 ^ 36 +
    (Config.secDed6 (BitVec.ofNat 12 top)).toNat * 2 ^ 48)

/-! ### Faults of the pool (R257, R260, R261) -/

/-- Key of a bank. -/
def bankKey (chan bank : Nat) : Nat := chan * 2 ^ 16 + bank

/-- A page mapped out for a line (R261): kept in the configuration while the list of 256 has room, else until the next power-up. The record names the
line's channel and address, and the page by its offset; of the line's own page, the line. -/
def Dev.mapOutPage (d : Dev) (line page : Nat) : Dev :=
  if d.pool.isMappedOut page then d
  else
    let d := if d.pool.mappedOut.length < 256 then d.modPool fun p => { p with mappedOut := p.mappedOut ++ [page] }
             else d.modPool fun p => { p with mappedExtra := p.mappedExtra ++ [page], state := if p.state = 1 then 2 else p.state }
    if page = pageOfLine line then d.fault (poolRec 0x04 6 line)
    else d.fault (mkRec 4 0x04 6 (obj 0x18 0) [(32, 2, chanOf (64 * line)), (40, 8, addrOf (64 * line)), (48, 8, page * 2 ^ 29)])

/-- The row of a line needs repair (R260, R261): it waits its turn on its channel, or its pages, that of the line among at most three, are mapped
out where the bank has no spare row. -/
def Dev.needRepair (d : Dev) (line : Nat) : Dev :=
  let chan := chanOf (64 * line)
  let bank := bankOfLine line
  let row := rowOfLine line
  if d.pool.repairing.any fun r => r.chan = chan && r.bank = bank && r.row = row then d
  else
    let queued := (d.pool.repairing.filter fun r => r.chan = chan && r.bank = bank).length
    if tget d.pool.usedRows (bankKey chan bank) 0 + queued < Config.spareRows chan bank then
      (d.modPool fun p => { p with repairing := p.repairing ++ [⟨chan, bank, row⟩] }).fault (poolRec 0x00 0 line)
    else
      let d := d.modPool fun p => { p with exhausted := if p.exhausted.contains (chan, bank) then p.exhausted else p.exhausted ++ [(chan, bank)] }
      eachOf (pagesOfRow line) d fun d p => d.mapOutPage line p

/-- Nanoseconds in 24 h. -/
def dayNs : Nat := 24 * 3600 * 10 ^ 9

/-- A corrected error on a line (R257): the row is repaired at its 16th correction in 24 h. -/
def Dev.correctedError (d : Dev) (line : Nat) : Dev :=
  let chan := chanOf (64 * line)
  let bank := bankOfLine line
  let key := bank * 2 ^ 32 + rowOfLine line
  let old := ((d.pool.rowErrors.find? fun e => e.1 = chan && e.2.1 = key).map (·.2.2)).getD []
  let now := d.now :: old.filter fun t => d.now < t + dayNs
  let rest := d.pool.rowErrors.filter fun e => !(e.1 = chan && e.2.1 = key)
  let d := d.modPool fun p => { p with corrected := satAdd 64 p.corrected 1, rowErrors := (chan, key, now.take 16) :: rest }
  if 16 ≤ now.length then d.needRepair line else d

/-- An uncorrectable error on a line (R257): POISON is set, a fault recorded, the row repaired. -/
def Dev.uncorrectableError (d : Dev) (line : Nat) : Dev :=
  let d := d.modPool fun p => { p with uncorrectable := satAdd 64 p.uncorrectable 1 }.setMeta line { p.lineMeta line with poison := true }
  (d.fault (poolRec 0x04 0 line)).needRepair line

/-- What the checks find as a line is read under slice `sl` (R257): an uncorrectable MCHK makes the accessing slice its owner. -/
def Dev.readChecks (d : Dev) (line : Nat) (sl : BitVec 10) (ecc : Option Ecc) : Dev :=
  match ecc with
  | none => d
  | some .corrected => d.correctedError line
  | some .uncorrectable => d.uncorrectableError line
  | some .mchkBad =>
    (d.modPool fun p => p.setMeta line { p.lineMeta line with owner := sl }).uncorrectableError line

/-- Whether a line's bank is held for a repair (R260): the first row of each channel is under repair. -/
def PoolSt.bankHeld (p : PoolSt) (line : Nat) : Bool :=
  let chan := chanOf (64 * line)
  match p.repairing.find? fun r => r.chan = chan with
  | some r => r.bank = bankOfLine line
  | none => false

/-- Whether a line's pool die is lost (R267). -/
def Dev.dieLost (d : Dev) (line : Nat) : Bool := d.pool.diesLost.contains (homeOfLine line)

/-- A line as an engine of the module reads it under a slice and a key (R257, R258, R261, R266, R267), with what the checks find (log 10): FUNCTION_DISABLED
until the pool is ready and while the line's die is lost, POISONED on a mapped-out page, with a pool fault outside the user range, and where the
line is its own slice's and known bad. -/
def Dev.readLine (d : Dev) (slice : BitVec 10) (key : List Byte) (ecc : List (Nat × Ecc)) (line : Nat) : Except Nat (List Byte) × Dev :=
  if d.pool.state = 0 || d.dieLost line then (.error 0x07, d)
  else if d.pool.isMappedOut (pageOfLine line) then
    (.error 0x04, if d.pool.userPages ≤ pageOfLine line then d.areaFault (64 * line) else d)
  else
    let d := d.readChecks line slice (tfind ecc line)
    let m := d.pool.lineMeta line
    (if m.owner = slice && m.poison then .error 0x04 else .ok (d.pool.seen line slice key), d)

/-- Lines read one after the other, up to the first that is refused. -/
def Dev.readLines (d : Dev) (slice : BitVec 10) (key : List Byte) (ecc : List (Nat × Ecc)) (lines : List Nat) : Except Nat (List Byte) × Dev :=
  match lines with
  | [] => (.ok [], d)
  | l :: r =>
    match d.readLine slice key ecc l with
    | (.error s, d) => (.error s, d)
    | (.ok bs, d) =>
      match Dev.readLines d slice key ecc r with
      | (.error s, d) => (.error s, d)
      | (.ok more, d) => (.ok (bs ++ more), d)

/-- The lines of a range of bytes. -/
def linesOf (off n : Nat) : List Nat := if n = 0 then [] else (upTo ((off + n + 63) / 64 - off / 64)).map (off / 64 + ·)

/-- The line pieces of a range: offset and length. -/
def linePieces (off n : Nat) : List (Nat × Nat) :=
  (linesOf off n).map fun l =>
    let lo := max off (64 * l)
    (lo, min (off + n) (64 * l + 64) - lo)

/-- Bytes written in line steps under a slice and a key (R258, R262). -/
def PoolSt.storeBytes (p : PoolSt) (slice : BitVec 10) (key : List Byte) (off : Nat) (bs : List Byte) : PoolSt :=
  (linePieces off bs.length).foldl (fun p e =>
    p.writeLine (e.1 / 64) (overwrite (p.seen (e.1 / 64) slice key) (e.1 % 64) (cut bs (e.1 - off) e.2)) slice key) p

/-- Bytes that an engine writes in line steps under a slice and a key: where a step covers part of a line, it reads the line (R257), and nothing is
written if one of those is refused. -/
def Dev.writeBytes (d : Dev) (slice : BitVec 10) (key : List Byte) (ecc : List (Nat × Ecc)) (off : Nat) (bs : List Byte) : Option Nat × Dev :=
  let parts := ((linePieces off bs.length).filter fun e => e.2 < 64).map fun e => e.1 / 64
  let gone := (linesOf off bs.length).find? fun l => d.pool.state = 0 || d.dieLost l
  let out := (linesOf off bs.length).find? fun l => d.pool.isMappedOut (pageOfLine l)
  match gone, out with
  | some _, _ => (some 0x07, d)
  | none, some l => (some 0x04, if d.pool.userPages ≤ pageOfLine l then d.areaFault (64 * l) else d)
  | none, none =>
    match d.readLines slice key ecc parts with
    | (.error s, d) => (some s, d)
    | (.ok _, d) => (none, d.modPool fun p => p.storeBytes slice key off bs)

/-! ### Regions (R33–R35) -/

/-- The valid region entry whose range holds an offset (R34 step 1). -/
def Dev.regionOf (d : Dev) (off : Nat) : Option (Nat × Region) :=
  d.prot.regions.find? fun e => e.2.valid && e.2.base.toNat ≤ pageOf off && pageOf off < e.2.base.toNat + e.2.length.toNat

/-- The XTS key of a region's lines (R262): that of its slice's slot where ENC is 0b01, none for plaintext. -/
def Dev.regionCipher (d : Dev) (r : Region) : List Byte :=
  if r.enc = 1 then ((d.slotOf r.slice.toNat).map poolKey).getD [] else []

/-- A refusal counted against a region (R33, R63). -/
def Dev.countRefusal (d : Dev) (r : Nat) : Dev := d.modRegion r fun e => { e with refusals := satAdd 32 e.refusals 1 }

/-- Rights an operation needs: R, W, A (R35). -/
def rightsOf (op : Nat) : Bool × Bool × Bool :=
  if op = opLOAD then (true, false, false)
  else if op = opSTORE || op = opSTORE_POSTED || op = opSTORE_MASKED || op = opSTORE_MASKED_POSTED then (false, true, false)
  else if op = opCAS || (0x14 ≤ op && op ≤ 0x16) then (true, false, true)
  else (false, false, true)

/-- Steps 1 to 4 of R34 on an operation of `n` bytes at `off`: the region, or the refusal with the region where one was found. -/
def Dev.judge (d : Dev) (f : Frame) (n : Nat) : Except (Nat × Option Nat) (Nat × Region) :=
  let off := f.offset.toNat
  match d.regionOf off with
  | none => .error (0x03, none)
  | some (i, r) =>
    let (nr, nw, na) := rightsOf f.opn
    if pageOf (off + max 1 n - 1) ≥ r.base.toNat + r.length.toNat then .error (0x03, some i)
    else if r.key ≠ f.key || r.slice ≠ f.slice then .error (0x01, some i)
    else if r.enc = 1 && !d.attested f r.slice.toNat then .error (0x0A, some i)
    else if (nr && !r.r) || (nw && !r.w) || (na && !r.a) then .error (0x02, some i)
    else .ok (i, r)

end Sys2Proof.Machine
end

