-- ==== Sys2Proof/Machine/CheckUnit.lean ====
section
/-!
DEFINITION. The polynomials and contexts of the check-value units (R263, R265), and their modes on a stream (R264).
-/
namespace Sys2Proof.Machine

open Sys2Proof

/-- One bit of CRC-64/ECMA-182, most significant bit first. -/
def crc64Bit (c : Nat) : Nat := if c.testBit 63 then ((c * 2) ^^^ 0x42F0E1EBA9EA3693) % 2 ^ 64 else (c * 2) % 2 ^ 64

/-- One byte of a polynomial of R263, on the register. -/
def checkByte (poly c : Nat) (b : Byte) : Nat :=
  match poly with
  | 0 => crcByte 0x82F63B78 c b
  | 1 => crcByte 0xEDB88320 c b
  | 2 => (upTo 8).foldl (fun c _ => crc64Bit c) (c ^^^ (b.toNat * 2 ^ 56))
  | _ => (upTo 8).foldl (fun c _ => crc16Bit c) (c ^^^ (b.toNat * 256))

/-- Initial value of a polynomial. -/
def checkInit (poly : Nat) : Nat := match poly with | 0 => 0xFFFFFFFF | 1 => 0xFFFFFFFF | 2 => 0 | _ => 0xFFFF
/-- Final XOR of a polynomial. -/
def checkXor (poly : Nat) : Nat := match poly with | 0 => 0xFFFFFFFF | 1 => 0xFFFFFFFF | _ => 0
/-- Bytes of a polynomial's value. -/
def checkWidth (poly : Nat) : Nat := match poly with | 0 => 4 | 1 => 4 | 2 => 8 | _ => 2

/-- Context `i` (16 × pool die + context). -/
def Dev.checkCtx (d : Dev) (i : Nat) : CheckCtx := tget d.pool.contexts i {}

/-- Context `i` changed. -/
def Dev.modCheck (d : Dev) (i : Nat) (f : CheckCtx → CheckCtx) : Dev :=
  d.modPool fun p => { p with contexts := tmod p.contexts i {} f }

/-- The value of a polynomial over bytes (R263). -/
def checkValue (poly : Nat) (bs : List Byte) : Nat := bs.foldl (checkByte poly) (checkInit poly) ^^^ checkXor poly

/-- What a unit makes of a stream that passes through it (R264): the bytes it delivers, the value, and MATCH. APPEND places the value after the last
byte; CHECK takes the last bytes off and compares them. -/
def checkStream (poly mode : Nat) (bs : List Byte) : List Byte × Nat × Bool :=
  let w := checkWidth poly
  if mode = 1 then let v := checkValue poly bs; (bs ++ le w v, v, false)
  else if mode = 2 then
    let body := bs.take (bs.length - w)
    let v := checkValue poly body
    (body, v, decide (unle (bs.drop (bs.length - w)) = v))
  else (bs, checkValue poly bs, false)

/-- The context by which an internal agent passes its streams: context 8 of pool die 0. R264 lets internal agents use 8 to 15 and does not say which
(DESIGN CHOICE, log 99). -/
def streamCtx : Nat := 8

/-- A job of an internal agent on a stream (R264, R265): the bytes delivered and MATCH; the context shows the job. -/
def Dev.streamJob (d : Dev) (slice : BitVec 10) (poly mode : Nat) (bs : List Byte) : List Byte × Bool × Dev :=
  let (out, v, same) := checkStream poly mode bs
  (out, same, d.modCheck streamCtx fun x =>
    { x with state := 2, status := 0, done := bs.length, mode := mode, cont := false, poly := poly, slice := slice, offset := 0,
             length := bs.length, key := 0, running := BitVec.ofNat 64 v, isMatch := same })

end Sys2Proof.Machine
end

