-- ==== Sys2Proof/Machine/Home.lean ====
section
/-!
DEFINITION. The pool homes (R34, R57–R63, R72–R76, R251, R252): judging, line steps, multi-line writes, completions, refusals, the
stream table, the posted-store buffer.
-/
namespace Sys2Proof.Machine

open Sys2Proof

/-! ### Forms (R55–R57, R59) -/

/-- Whether OP and LENGTH name an operation a pool home performs (R55, R56). -/
def formOk (f : Frame) : Bool :=
  let op := f.opn
  let n := f.length.toNat
  if op = opLOAD || op = opSTORE || op = opSTORE_POSTED then 1 ≤ n && n ≤ 2048
  else if op = opSTORE_MASKED || op = opSTORE_MASKED_POSTED then n % 72 = 0 && 72 ≤ n && n ≤ 28 * 72
  else if op = opFLUSH then n = 0
  else if isAtomicOp op then dtypeOk op f.dtype.toNat && n = dtSize f.dtype.toNat
  else if op = opCAS then f.dtype = 0 && (n = 4 || n = 8 || n = 16)
  else if op = opREDUCE_STORE then dtypeOk op f.dtype.toNat && 4 ≤ n && n ≤ 2048
  else false

/-- Whether an operation is aligned (R57). -/
def alignedOk (f : Frame) : Bool :=
  let op := f.opn
  let off := f.offset.toNat
  let n := f.length.toNat
  if op = opSTORE_MASKED || op = opSTORE_MASKED_POSTED then off % 64 = 0
  else if isAtomicOp op || op = opCAS then off % n = 0
  else if op = opREDUCE_STORE then off % dtSize f.dtype.toNat = 0 && n % dtSize f.dtype.toNat = 0
  else true

/-- Whether an operation is idempotent for R72: LOAD and FLUSH, and the posted forms, which carry no completion. -/
def leavesEntry (op : Nat) : Bool := op = opSTORE || op = opSTORE_MASKED || isAtomicOp op || op = opCAS || op = opREDUCE_STORE

/-- The lines an operation touches, ascending (R60). -/
def opLines (f : Frame) : List Nat :=
  let a := f.offset.toNat / 64
  if f.opn = opFLUSH then []
  else
    let z := (f.offset.toNat + max 1 (touched f) - 1) / 64
    (upTo (z + 1 - a)).map (a + ·)

/-- Whether an operation writes more than one line, all or nothing (R252). -/
def isMultiWrite (f : Frame) : Bool :=
  let op := f.opn
  (op = opSTORE || op = opSTORE_POSTED || op = opSTORE_MASKED || op = opSTORE_MASKED_POSTED || op = opREDUCE_STORE) && 1 < (opLines f).length

/-- The mask of a line of a masked store (R59). -/
def lineMask (f : Frame) (line : Nat) : Nat := num f.payload (8 * (line - f.offset.toNat / 64)) 8

/-- The part of a line an operation covers: first byte and count. -/
def lineSpan (f : Frame) (line : Nat) : Nat × Nat :=
  let lo := max f.offset.toNat (64 * line)
  let hi := min (f.offset.toNat + touched f) (64 * line + 64)
  (lo - 64 * line, hi - lo)

/-- Whether a line step needs the line's old contents (R257). -/
def needsOld (f : Frame) (line : Nat) : Bool :=
  let op := f.opn
  if op = opSTORE || op = opSTORE_POSTED then (lineSpan f line).2 < 64
  else if op = opSTORE_MASKED || op = opSTORE_MASKED_POSTED then lineMask f line ≠ 2 ^ 64 - 1 && lineMask f line ≠ 0
  else true

/-- Bytes of `new` where the mask has a 1, of `old` elsewhere (R59). -/
def maskMerge (mask : Nat) (old new : List Byte) : List Byte :=
  match old, new with
  | o :: os, n :: ns => (if mask % 2 = 1 then n else o) :: maskMerge (mask / 2) os ns
  | os, _ => os

/-- REDUCE_STORE on consecutive elements (R58). -/
def reduceBytes (dt : Nat) (old new : List Byte) : List Byte :=
  let n := dtSize dt
  ((chunksOf n old).zip (chunksOf n new)).flatMap fun e => le n (reduceElem dt (unle e.1) (unle e.2))

/-- What a step does to a line's 64 bytes, if it writes, and the bytes it returns (R58–R60). -/
def lineEffect (f : Frame) (line : Nat) (old : List Byte) : Option (List Byte) × List Byte :=
  let op := f.opn
  let (lo, n) := lineSpan f line
  let skip := 64 * line + lo - f.offset.toNat
  let len := f.length.toNat
  if op = opLOAD then (none, cut old lo n)
  else if op = opSTORE || op = opSTORE_POSTED then (some (overwrite old lo (cut f.payload skip n)), [])
  else if op = opSTORE_MASKED || op = opSTORE_MASKED_POSTED then
    let m := lineMask f line
    if m = 0 then (none, [])
    else (some (maskMerge m old (cut f.payload (len / 72 * 8 + 64 * (line - f.offset.toNat / 64)) 64)), [])
  else if op = opREDUCE_STORE then (some (overwrite old lo (reduceBytes f.dtype.toNat (cut old lo n) (cut f.payload skip n))), [])
  else
    let v := cut old lo len
    if op = opCAS then (if v = cut f.payload 0 len then some (overwrite old lo (cut f.payload len len)) else none, v)
    else
      let r := atomicOp (atomicKind op) f.dtype.toNat (unle v) (unle f.payload)
      (some (overwrite old lo (le len r)), if atomicFetches op then v else [])

/-! ### Operations in progress -/

/-- Operation `id` of home `h`. -/
def Dev.hop (d : Dev) (h id : Nat) : Option HomeOp := (d.home h).ops.find? fun o => o.id = id

/-- Operation `id` of home `h` changed by `f`. -/
def Dev.modOp (d : Dev) (h id : Nat) (f : HomeOp → HomeOp) : Dev :=
  d.modHome h fun s => { s with ops := s.ops.map fun o => if o.id = id then f o else o }

/-- Whether every line step of an operation has been accepted (R251). -/
def HomeOp.accepted (o : HomeOp) : Bool := (opLines o.f).length ≤ o.issued

/-- Whether two operations belong to one (source node, stream). -/
def sameStream (a b : Frame) : Bool := a.src = b.src && tagStream a.tag = tagStream b.tag

/-- Whether tag `a` comes before `b` in their stream's order: sequence numbers are taken in issue order, modulo 2^18 (R65). -/
def tagBefore (a b : BitVec 32) : Bool :=
  let n := (b.toNat + 2 ^ 32 - a.toNat) % 2 ^ 18
  0 < n && n < 2 ^ 17

/-! ### The stream table (R74) -/

/-- Entry of a (source node, stream). -/
def Dev.streamEntry (d : Dev) (src : BitVec 16) (st : BitVec 14) : Option StreamEntry :=
  d.pool.streams.find? fun e => e.src = src && e.stream = st

/-- The stream of a frame as the table keys it. -/
def frameStream (f : Frame) : BitVec 14 := BitVec.ofNat 14 (tagStream f.tag)

/-- Whether a frame's stream is blocked. -/
def Dev.isBlocked (d : Dev) (f : Frame) : Bool := ((d.streamEntry f.src (frameStream f)).map (·.blocked)).getD false

/-- The stream table changed. -/
def Dev.setStreams (d : Dev) (l : List StreamEntry) : Dev := d.modPool fun p => { p with streams := l }

/-- The entry of a frame's stream changed. -/
def Dev.modStream (d : Dev) (f : Frame) (g : StreamEntry → StreamEntry) : Dev :=
  d.setStreams (d.pool.streams.map fun e => if e.src = f.src && e.stream = frameStream f then g e else e)

/-- An operation of a stream is performed: its count returns to 0 (R74). The entry frees once it neither blocks nor keeps a refused operation that
posted stores must follow (log 186). -/
def Dev.streamPerformed (d : Dev) (f : Frame) : Dev :=
  let d := d.modStream f fun e => { e with count := 0, backoff := 0 }
  d.setStreams (d.pool.streams.filter fun e => !(e.src = f.src && e.stream = frameStream f && !e.blocked && e.refused.isEmpty))

/-- The block of a stream ends at the first arrival with RESEND (R74). -/
def Dev.streamResent (d : Dev) (f : Frame) : Dev := d.modStream f fun e => { e with blocked := false }

/-- An operation of a stream has been refused with RETRY_LATER and will be re-sent (R75): posted stores behind it wait for it (R97). -/
def Dev.noteRefused (d : Dev) (f : Frame) : Dev :=
  d.modStream f fun e => { e with refused := if e.refused.contains f.tag then e.refused else e.refused ++ [f.tag] }

/-- A refused operation has come again. -/
def Dev.noteAgain (d : Dev) (f : Frame) : Dev := d.modStream f fun e => { e with refused := e.refused.filter fun t => t ≠ f.tag }

/-- Whether a refused operation that comes before a frame in its stream has not come again. -/
def Dev.awaitsRefused (d : Dev) (f : Frame) : Bool :=
  ((d.streamEntry f.src (frameStream f)).map fun e => e.refused.any fun t => tagBefore t f.tag).getD false

/-- Whether the block of its stream refuses an operation (R74). A re-sent operation is judged, but one of class G or O for which an operation before
it has been refused again: it would be performed ahead of that one (R97; DESIGN CHOICE, log 195). -/
def Dev.blockRefuses (d : Dev) (f : Frame) : Bool :=
  if f.resend then f.cls ≠ .b && d.awaitsRefused f else d.isBlocked f

/-! ### Order and waiting -/

/-- Whether an operation of a stream comes before another in the stream's order (R97): in the order of arrival, or of their tags where one of them
has been re-sent after the other arrived. -/
def HomeOp.before (x o : HomeOp) : Bool :=
  sameStream x.f o.f && (if x.f.resend || o.f.resend then tagBefore x.f.tag o.f.tag else x.id < o.id)

/-- The line steps of an operation leave every queue. -/
def Dev.dropSteps (d : Dev) (h id : Nat) : Dev :=
  d.modPool fun p =>
    { p with lineQ := (tmap p.lineQ fun _ q => q.filter fun s => !(s.home = h && s.op = id)).filter fun e => !e.2.isEmpty,
             lineHeld := p.lineHeld.filter fun e => !(e.2.home = h && e.2.op = id) }

/-- FLUSHes that wait for a posted store no longer wait for it; those that wait for none complete (R61). -/
def Dev.settleFlushes (d : Dev) (h id : Nat) : Dev :=
  eachOf (upTo 4) d fun d k =>
    let fs := (d.home k).flushes.map fun w => { w with left := w.left.filter fun e => e ≠ (h, id) }
    let d := d.modHome k fun s => { s with flushes := fs.filter fun w => !w.left.isEmpty }
    eachOf (fs.filter fun w => w.left.isEmpty) d fun d w => (d.streamPerformed w.f).reply (144 + w.pp) w.f 0 0 none

/-- An operation leaves its home, with its line steps and its place in the posted-store buffer. -/
def Dev.endOp (d : Dev) (h id : Nat) : Dev :=
  let d := d.dropSteps h id
  let keep (o : HomeOp) : Bool := o.id ≠ id
  let d := d.modHome h fun s =>
    { s with ops := s.ops.filter keep, posted := s.posted.filter keep, heldIn := s.heldIn.filter keep }
  (d.modHome h fun s => { s with withheld := decide (8192 ≤ s.posted.length) }).settleFlushes h id

/-! ### Fates -/

/-- A refusal is counted against the region that was found (R33). -/
def Dev.countFound (d : Dev) (region : Option Nat) : Dev := match region with | some r => d.countRefusal r | none => d

/-- The event of a refused posted store: at most one per source node per 1 ms (R63; log 24). -/
def Dev.postedEvent (d : Dev) (h : Nat) (f : Frame) (code : Nat) (region : Option Nat) : Dev :=
  if d.pool.postedEvAt.any fun e => e.1 = h && e.2.1 = f.src && d.now < e.2.2 + 1000000 then d
  else
    let d := d.modPool fun p =>
      { p with postedEvAt := (h, f.src, d.now) :: p.postedEvAt.filter fun e => !(e.1 = h && e.2.1 = f.src) }
    d.fault { mkRec 11 code 0 (match region with | some r => obj 0x07 r | none => obj 0x18 0) [(32, 2, tagStream f.tag)] with
              node := f.src, slice := f.slice }

/-- An operation is refused at its home (R62, R63). -/
def Dev.refuseOp (d : Dev) (h : Nat) (o : HomeOp) (code backoff : Nat) (region : Option Nat) : Dev :=
  let d := (d.endOp h o.id).countFound region
  if isPosted o.f.opn then d.postedEvent h o.f code region else d.reply (144 + o.pp) o.f code backoff none

/-- RETRY_LATER (R74): BACKOFF grows with each consecutive refusal and the stream is blocked. With no free entry in the table the
request is held in the input buffer of its pool port. -/
def Dev.retryLater (d : Dev) (h : Nat) (o : HomeOp) (region : Option Nat) : Dev :=
  match d.streamEntry o.f.src (frameStream o.f) with
  | some e =>
    let b := min 10 e.count
    let d := d.setStreams (d.pool.streams.map fun x =>
      if x.src = e.src && x.stream = e.stream then { x with count := x.count + 1, backoff := b, blocked := true } else x)
    (d.noteRefused o.f).refuseOp h o 0x08 b region
  | none =>
    if d.pool.streams.length < 16384 then
      (d.setStreams (d.pool.streams ++ [⟨o.f.src, frameStream o.f, 1, 0, true, [o.f.tag]⟩])).refuseOp h o 0x08 0 region
    else
      let d := d.endOp h o.id
      d.modHome h fun s => { s with heldIn := s.heldIn ++ [{ o with issued := 0, held := [], got := [], fail := some 0x08 }] }

/-- A posted store waits in the posted-store buffer, in arrival order (R76); beyond 8,192 entries in the pool port's input buffer. -/
def Dev.bufferPosted (d : Dev) (h : Nat) (o : HomeOp) : Dev :=
  let d := (d.dropSteps h o.id).modHome h fun s => { s with ops := s.ops.filter fun x => x.id ≠ o.id }
  let o := { o with issued := 0, held := [], got := [], fail := none }
  let at' (l : List HomeOp) : List HomeOp := (l.takeWhile fun x => x.id < o.id) ++ [o] ++ l.dropWhile fun x => x.id < o.id
  d.modHome h fun s =>
    if s.posted.length < 8192 then { s with posted := at' s.posted, withheld := decide (8191 ≤ s.posted.length) }
    else { s with heldIn := s.heldIn ++ [o], withheld := true }

/-- The congestion notice for a marked posted store: at most one per source node per 2 µs (R83, R111). -/
def Dev.congNotice (d : Dev) (h : Nat) (o : HomeOp) : Dev :=
  if !o.f.cm || (d.pool.noticeAt.any fun e => e.1 = h && e.2.1 = o.f.src && d.now < e.2.2 + 2000) then d
  else
    let d := d.modPool fun p => { p with noticeAt := (h, o.f.src, d.now) :: p.noticeAt.filter fun e => !(e.1 = h && e.2.1 = o.f.src) }
    let n : Frame := { dst := o.f.src, src := BitVec.ofNat 16 d.node, op := BitVec.ofNat 8 opCONG_NOTICE, cls := .o, tag := o.f.tag,
                       offset := o.f.offset, slice := o.f.slice, conf := o.f.conf }
    let (n, d) := if n.conf then d.conceal n else (n, d)
    d.originate (144 + o.pp) n

/-- An operation has been performed (R62, R72, R74): its completion, its dedupe entry, its stream's count. -/
def Dev.completeOp (d : Dev) (h : Nat) (o : HomeOp) (data : List Byte) : Dev :=
  let d := (d.endOp h o.id).streamPerformed o.f
  if isPosted o.f.opn then d
  else
    let d := if leavesEntry o.f.opn then d.modHome h fun s => { s with dedupe := s.dedupe ++ [⟨o.f.src, o.f.tag, data.take 16⟩] } else d
    let returns := o.f.opn = opLOAD || o.f.opn = opCAS || (isAtomicOp o.f.opn && atomicFetches o.f.opn)
    d.reply (144 + o.pp) o.f 0 0 (if returns then some data else none)

/-! ### Mirror STOREs (R31, R376) -/

/-- Whether an operation is a mirror STORE this module's homes perform. -/
def Dev.isMirror (d : Dev) (f : Frame) : Bool :=
  let lo := d.pool.logBase + d.pool.logHalf
  f.opn = opSTORE && f.slice = 0 && d.mirrorSourceOf = some f.src.toNat && lo ≤ f.offset.toNat &&
    f.offset.toNat + f.length.toNat ≤ lo + d.pool.logHalf

/-- The held mirror's records after a mirror STORE (R374): the first piece of a record names it, the last completes it. -/
def Dev.mirrorStored (d : Dev) (f : Frame) : Dev :=
  let at' := f.offset.toNat - (d.pool.logBase + d.pool.logHalf)
  let n := f.length.toNat
  let s := d.faults
  let tail (l : List LogRec) : Nat := (l.head?.map fun (x : LogRec) => x.seq).getD s.mirrorHead
  match s.mirrorRing.getLast? with
  | some r =>
    if r.at' < at' && at' < r.at' + r.len then
      { d with faults := { s with mirrorHead := if r.at' + r.len ≤ at' + n then r.seq + 1 else s.mirrorHead } }
    else
      let flen := num f.payload 18 2
      let len := if flen = 0 then d.pool.logHalf - at' else ceilDiv (32 + flen) 64 * 64
      let l := ringPut s.mirrorRing ⟨num f.payload 0 8, at', len⟩
      { d with faults := { s with mirrorRing := l, mirrorTail := tail l,
                                  mirrorHead := if len ≤ n || flen = 0 then num f.payload 0 8 + 1 else s.mirrorHead } }
  | none =>
    let flen := num f.payload 18 2
    let len := if flen = 0 then d.pool.logHalf - at' else ceilDiv (32 + flen) 64 * 64
    { d with faults := { s with mirrorRing := [⟨num f.payload 0 8, at', len⟩], mirrorTail := num f.payload 0 8,
                                mirrorHead := if len ≤ n || flen = 0 then num f.payload 0 8 + 1 else s.mirrorHead } }

/-! ### Line steps (R251, R252) -/

/-- Entries used in the shared queue store of a home (R73). -/
def Dev.storeUsed (d : Dev) (h : Nat) : Nat :=
  (d.pool.lineQ.map fun e => if homeOfLine e.1 = h then e.2.length else 0).foldl (· + ·) 0

/-- Whether a line's queue takes another step (R73). -/
def Dev.lineTakes (d : Dev) (line : Nat) : Bool :=
  (tget d.pool.lineQ line []).length < 64 && d.storeUsed (homeOfLine line) < 32768

/-- Whether a FORCE_RETRY perturbation of a region selects an operation (R420 kind 6). -/
def Dev.forceRetry (d : Dev) (r : Nat) : Bool × Dev :=
  (d.active 6 (obj 0x07 r)).foldl (fun (acc : Bool × Dev) i =>
    let (hit, d) := acc.2.chance (d.perturb i).paramA.toNat
    if hit then (true, d.applied i) else (acc.1, d)) (false, d)

/-- A block refusal (R74): RETRY_LATER at the entry's current BACKOFF, which adds nothing to the count. KEY_MISMATCH, RIGHTS and the other codes of
R34 come first (R11); FLUSH and mirror STOREs are not judged. -/
def Dev.refuseBlocked (d : Dev) (h : Nat) (o : HomeOp) : Dev :=
  let backoff := ((d.streamEntry o.f.src (frameStream o.f)).map (·.backoff)).getD 0
  match (if o.f.opn = opFLUSH || d.isMirror o.f then .ok none else (d.judge o.f (touched o.f)).map fun x => some x.1) with
  | .error (code, r) => d.refuseOp h o code 0 r
  | .ok r => (d.noteRefused o.f).refuseOp h o 0x08 backoff r

/-- Entries of the dedupe table that are taken or promised to an operation being performed (R72). -/
def Dev.dedupeUsed (d : Dev) (h : Nat) : Nat :=
  (d.home h).dedupe.length + ((d.home h).ops.filter fun o => leavesEntry o.f.opn && 0 < o.issued).length

/-- How an admitted operation goes on: its region, the slice and the XTS key of its line steps. -/
structure Admission where
  region : Option Nat
  slice  : BitVec 10
  cipher : List Byte

/-- An operation with its admission. -/
def HomeOp.admitted (o : HomeOp) (a : Admission) : HomeOp := { o with region := a.region, slice := a.slice, cipher := a.cipher }

/-- The judgement an operation gets as its first line step is issued (R37, R251): none when it may not go on. -/
def Dev.admitOp (d : Dev) (h : Nat) (o : HomeOp) : Option Admission × Dev :=
  if d.tornDown o.f.slice.toNat then (none, (d.endOp h o.id).countSlice o.f.slice.toNat)
  else if d.blockRefuses o.f then
    if isPosted o.f.opn then (none, d.bufferPosted h o) else (none, d.refuseBlocked h o)
  else if d.isMirror o.f then
    if 65536 ≤ d.dedupeUsed h then (none, d.retryLater h o none) else (some ⟨none, 0, []⟩, d)
  else
    match d.judge o.f (touched o.f) with
    | .error (code, r) => (none, d.refuseOp h o code 0 r)
    | .ok (i, r) =>
      let (hit, d) := if isPosted o.f.opn then (false, d) else d.forceRetry i
      if hit || (leavesEntry o.f.opn && 65536 ≤ d.dedupeUsed h) then (none, d.retryLater h o (some i))
      else (some ⟨some i, r.slice, d.regionCipher r⟩, d)

/-- The next line step is issued to its line's queue (R251, R73). -/
def Dev.pushStep (d : Dev) (h : Nat) (o : HomeOp) : Dev :=
  match (opLines o.f)[o.issued]? with
  | none => d
  | some line =>
    if d.dieLost line then
      if isMultiWrite o.f then d.modOp h o.id fun o => { o with fail := some 0x07 } else d.refuseOp h o 0x07 0 o.region
    else if !d.lineTakes line then
      if isPosted o.f.opn then d.bufferPosted h o
      else if isMultiWrite o.f then d.modOp h o.id fun o => { o with fail := some 0x08 }
      else d.retryLater h o o.region
    else
      let d := d.modPool fun p => { p with lineQ := tmod p.lineQ line [] fun q => q ++ [⟨h, o.id⟩] }
      d.modOp h o.id fun o => { o with issued := o.issued + 1 }

/-- Whether an operation waits in the input buffers of a home's pool ports that comes before `o` in its stream (R74, R97). -/
def Dev.heldAhead (d : Dev) (h : Nat) (o : HomeOp) : Bool := (d.home h).heldIn.any fun x => x.id ≠ o.id && x.before o

/-- Whether posted stores, or operations held in an input buffer, that come before an operation in its stream wait at its home (R97). -/
def Dev.postedAhead (d : Dev) (h : Nat) (o : HomeOp) : Bool :=
  d.heldAhead h o || (d.home h).posted.any fun x => x.id ≠ o.id && x.before o

/-- Whether the next line step of an operation may be issued (R251, R252): the steps of each earlier operation of its stream have been accepted, and
nothing of its stream ahead of it still waits (R97). -/
def Dev.stepReady (d : Dev) (h : Nat) (o : HomeOp) : Bool :=
  !o.accepted && o.fail.isNone &&
    !((d.home h).ops.any fun x => x.id < o.id && sameStream x.f o.f && !x.accepted) && !d.postedAhead h o &&
    (!isMultiWrite o.f || o.held.length = o.issued)

/-- The next line step of an operation issued by its receiving home, judged at the first (R251). -/
def Dev.issueStep (d : Dev) (h id : Nat) : Dev :=
  match d.hop h id with
  | none => d
  | some o =>
    if !d.stepReady h o then d
    else if o.issued = 0 then
      match d.admitOp h o with
      | (none, d) => d
      | (some a, d) => (d.modOp h id fun o => o.admitted a).pushStep h (o.admitted a)
    else d.pushStep h o

/-- The step at the head of a line's queue leaves it. -/
def Dev.popLine (d : Dev) (line : Nat) : Dev :=
  d.modPool fun p =>
    let q := (tget p.lineQ line []).drop 1
    { p with lineQ := if q.isEmpty then tdel p.lineQ line else tset p.lineQ line q,
             lineHeld := p.lineHeld.filter fun e => e.1 ≠ line }

/-- A line written, with its owner (R258), unless the step leaves it as it is. -/
def Dev.storeLine (d : Dev) (o : HomeOp) (line : Nat) : Dev × List Byte :=
  let (new, ret) := lineEffect o.f line (d.pool.seen line o.slice o.cipher)
  match new with
  | some bs => (d.modPool fun p => p.writeLine line bs o.slice o.cipher, ret)
  | none => (d, ret)

/-- The bytes of a load from its lines' parts. -/
def joinParts (parts : List (Nat × List Byte)) (lines : List Nat) : List Byte :=
  lines.flatMap fun l => ((parts.find? fun e => e.1 = l).map (·.2)).getD []

/-- The step at the head of a line's queue is performed (R60, R257, R258), or its line held for a multi-line write (R252); a
step beyond its channel's limit waits (R388). -/
def Dev.performLine (d : Dev) (line : Nat) (ecc : Option Ecc) : Dev :=
  match tget d.pool.lineQ line [] with
  | [] => d
  | s :: _ =>
    if d.pool.lineHeld.any (fun e => e.1 = line) || d.pool.bankHeld line || !d.mayStep (chanOf (64 * line)) 1 then d
    else
      let d := d.countSteps (chanOf (64 * line)) 1
      match d.hop s.home s.op with
      | none => d.popLine line
      | some o =>
        let reads := needsOld o.f line
        let d := if reads then d.readChecks line o.slice ecc else d
        let m := d.pool.lineMeta line
        let out := d.pool.isMappedOut (pageOfLine line)
        let d := if out && o.region.isNone then d.areaFault (64 * line) else d
        let bad := out || (reads && m.owner = o.slice && m.poison)
        if isMultiWrite o.f then
          if bad then d.modOp s.home o.id fun o => { o with fail := some 0x04 }
          else
            let d := d.modPool fun p => { p with lineHeld := p.lineHeld ++ [(line, s)] }
            d.modOp s.home o.id fun o => { o with held := o.held ++ [line] }
        else if bad then d.refuseOp s.home o 0x04 0 o.region
        else
          let (d, ret) := d.storeLine o line
          let d := d.popLine line
          let got := o.got ++ [(line, ret)]
          if got.length = (opLines o.f).length then
            let d := if o.region.isNone then d.mirrorStored o.f else d
            d.completeOp s.home o (joinParts got (opLines o.f))
          else d.modOp s.home o.id fun o => { o with got := got }

/-- A multi-line write commits once every line is held, or releases its lines and is refused (R252). -/
def Dev.commitOp (d : Dev) (h id : Nat) : Dev :=
  match d.hop h id with
  | none => d
  | some o =>
    match o.fail with
    | some code =>
      if code = 0x08 then d.retryLater h o o.region else d.refuseOp h o code 0 o.region
    | none =>
      if isMultiWrite o.f && o.held.length = (opLines o.f).length then
        let d := eachOf o.held d fun d line => ((d.storeLine o line).1).popLine line
        let d := if o.region.isNone then d.mirrorStored o.f else d
        d.completeOp h o []
      else d

/-- The operations of a slice that are queued at the homes and not yet performed are discarded and counted against it, without a completion (R43):
those whose first line step has not been issued (R251), and the FLUSHes that wait. -/
def Dev.dropSliceOps (d : Dev) (sl : Nat) : Dev :=
  eachOf d.homes d fun d e =>
    let mine (f : Frame) : Bool := f.slice.toNat = sl
    let ops := (e.2.ops ++ e.2.posted ++ e.2.heldIn).filter fun o => mine o.f && o.issued = 0
    let flushes := (e.2.flushes.filter fun w => mine w.f).map fun _ => sl
    let d := d.modHome e.1 fun s => { s with flushes := s.flushes.filter fun w => !mine w.f }
    let d := eachOf flushes d Dev.countSlice
    eachOf ops d fun d o => (d.endOp e.1 o.id).countSlice sl

/-- Everything an operation still needs, when nothing is ahead of it (log 9). -/
def Dev.runOp (d : Dev) (h id : Nat) (ecc : List (Nat × Ecc)) : Dev :=
  match d.hop h id with
  | none => d
  | some o =>
    let lines := opLines o.f
    let find (l : Nat) : Option Ecc := (ecc.find? fun e => e.1 = l).map (·.2)
    let d := eachOf lines d fun d l =>
      let d := d.issueStep h id
      if isMultiWrite o.f || lines.length = 1 then d.performLine l (find l) else d
    if isMultiWrite o.f then d.commitOp h id
    else if lines.length = 1 then d
    else eachOf lines d fun d l => d.performLine l (find l)

/-- Whether nothing is queued ahead of an operation at its home and its lines. -/
def Dev.clearAhead (d : Dev) (h : Nat) (o : HomeOp) : Bool :=
  !((d.home h).ops.any fun x => x.id < o.id && sameStream x.f o.f) && !d.postedAhead h o &&
    (opLines o.f).all fun l => (tget d.pool.lineQ l []).isEmpty && !d.pool.bankHeld l

end Sys2Proof.Machine
end

