-- ==== Sys2Proof/Machine/HomeOps.lean ====
section
/-!
DEFINITION. Operations arriving at a pool home (R34, R55–R63, R72–R76) and the homes' own events.
-/
namespace Sys2Proof.Machine

open Sys2Proof

/-- Whether OP uses DTYPE (R56, R108). -/
def usesDtype (op : Nat) : Bool := isAtomicOp op || op = opCAS || op = opREDUCE_STORE

/-- The posted stores a FLUSH waits for: those of its source node and stream that reached the module before it (R61). -/
def Dev.postedBefore (d : Dev) (f : Frame) : List (Nat × Nat) :=
  (upTo 4).flatMap fun h =>
    (((d.home h).ops ++ (d.home h).posted ++ (d.home h).heldIn).filter fun o => isPosted o.f.opn && sameStream o.f f).map fun o => (h, o.id)

/-- An operation that passed the checks of its form joins the home's operations (R73), or the posted-store buffer (R74, R76). -/
def Dev.startOp (d : Dev) (h : Nat) (o : HomeOp) (e : HomeEnv) : Dev :=
  let behind := (d.home h).posted.any fun x => sameStream x.f o.f
  if d.heldAhead h o then d.modHome h fun s => { s with heldIn := s.heldIn ++ [o] }
  else if isPosted o.f.opn && (d.isBlocked o.f || behind || d.awaitsRefused o.f) then d.bufferPosted h o
  else if d.blockRefuses o.f then d.refuseBlocked h o
  else
    let d := (d.noteAgain o.f).modHome h fun s => { s with ops := s.ops ++ [o] }
    if e.atOnce && d.clearAhead h o then d.runOp h o.id e.ecc else d

/-- Requests held in the input buffers of pool ports go on in order, as soon as the stream table or a posted-store buffer has room (R74, R76): one that
would have been refused is refused now, what stands behind it in its stream is taken up after it. -/
def Dev.serveHeld (d : Dev) : Dev :=
  eachOf (upTo 4) d fun d h =>
    let all := (d.home h).heldIn
    let d := d.modHome h fun s => { s with heldIn := [] }
    eachOf all d fun d o =>
      if o.fail.isSome then d.retryLater h o o.region
      else if d.heldAhead h o then d.modHome h fun s => { s with heldIn := s.heldIn ++ [o] }
      else if isPosted o.f.opn then d.bufferPosted h o
      else d.startOp h o { atOnce := false, ecc := [] }

/-- An operation delivered to pool port `pp` (R34, R72, R74). -/
def Dev.homeArrive (d : Dev) (pp : Nat) (f0 : Frame) (e : HomeEnv) : Dev :=
  let h := pp / 4
  let port := 144 + pp
  if !(d.home h).up then d
  else
    match d.takeIn port f0 with
    | (none, d) => d
    | (some f, d) =>
      if usesDtype f.opn && 8 ≤ f.dtype.toNat then d.countDiscard port discReserved
      else
        match (d.home h).dedupe.find? fun x => x.src = f.src && x.tag = f.tag with
        | some x => d.reply port f 0 0 (if isAtomicOp f.opn && atomicFetches f.opn || f.opn = opCAS then some x.data else none)
        | none =>
          let here := ((d.home h).ops ++ (d.home h).heldIn).map (·.f) ++ (d.home h).flushes.map (·.f)
          if f.retry && here.any fun g => g.src = f.src && g.tag = f.tag then d
          else
            let id := (d.home h).nextOp
            let d := d.modHome h fun s => { s with nextOp := id + 1 }
            let o : HomeOp := { id := id, pp := pp, f := f }
            let d := if isPosted f.opn then d.congNotice h o else d
            let d := if f.resend then d.streamResent f else d
            let pool := inPool f.offset.toNat
            if pool && d.pool.state = 0 then d.refuseOp h o 0x07 0 none
            else if pool && f.opn ≠ opFLUSH && d.disabled f.slice.toNat 3 then d.refuseOp h o 0x07 0 none
            else if inEntry f.offset.toNat || inRelay f.offset.toNat || !formOk f then d.refuseOp h o 0x09 0 none
            else if f.opn = opFLUSH then
              let left := d.postedBefore f
              if !pool then d.refuseOp h o 0x03 0 none
              else if d.blockRefuses f then d.refuseBlocked h o
              else
                let d := d.noteAgain f
                if left.isEmpty then (d.streamPerformed f).reply port f 0 0 none
                else d.modHome h fun s => { s with flushes := s.flushes ++ [{ f := f, pp := pp, left := left }] }
            else if !alignedOk f then d.refuseOp h o 0x0B 0 none
            else (d.startOp h o e).serveHeld

/-- LINE_STEP (R251): the receiving home issues the next line step of an operation. -/
def lineStepD (h : PoolDie) (id : Nat) (d : Dev) : Dev := (d.issueStep h id).serveHeld

/-- LINE_PERFORM (R60). -/
def linePerformD (line : Nat) (ecc : Option Ecc) (d : Dev) : Dev := (d.performLine line ecc).serveHeld

/-- MULTILINE_COMMIT (R252). -/
def multilineCommitD (h : PoolDie) (id : Nat) (d : Dev) : Dev := (d.commitOp h id).serveHeld

/-- Whether a buffered posted store can be performed now (R76): its stream is not blocked, nothing of its stream is ahead of it, and its
first line's queue takes a step. -/
def Dev.postedReady (d : Dev) (h : Nat) (o : HomeOp) : Bool :=
  !d.isBlocked o.f && !d.awaitsRefused o.f && !d.heldAhead h o &&
    !((d.home h).ops.any fun x => x.before o && !x.accepted) &&
    !((d.home h).posted.any fun x => sameStream x.f o.f && x.id < o.id) &&
    match opLines o.f with | l :: _ => d.lineTakes l && !d.pool.bankHeld l | [] => true

/-- POSTED_BUFFER_RELEASE (R76). -/
def postedBufferReleaseD (h : PoolDie) (e : HomeEnv) (d : Dev) : Dev :=
  match (d.home h).posted.find? fun o => d.postedReady h o with
  | none => d
  | some o =>
    let d := d.modHome h fun s =>
      let rest := s.posted.filter fun x => x.id ≠ o.id
      { s with posted := rest, ops := s.ops ++ [o], withheld := decide (8192 ≤ rest.length) }
    let d := if e.atOnce && d.clearAhead h o then d.runOp h o.id e.ecc else d
    d.serveHeld

/-- DEDUPE_ENTRY_EXPIRY (R72). -/
def dedupeEntryExpiryD (h : PoolDie) (src : BitVec 16) (tag : BitVec 32) (d : Dev) : Dev :=
  d.modHome h fun s => { s with dedupe := s.dedupe.filter fun x => !(x.src = src && x.tag = tag),
                                relayDedupe := s.relayDedupe.filter fun x => !(x.src = src && x.tag = tag) }

/-- STREAM_TABLE_TIMEOUT (R74): 131 µs after the last refusal that was not a block refusal. -/
def streamTableTimeoutD (src : BitVec 16) (stream : BitVec 14) (d : Dev) : Dev :=
  (d.setStreams (d.pool.streams.filter fun e => !(e.src = src && e.stream = stream))).serveHeld

/-- What the checks of lines find as their row is read for repair, a patrol or a sweep passes (R257, R259, R260): corrected, or poisoned with a
pool fault; no operation is refused. -/
def Dev.takeFindings (d : Dev) (ecc : List (Nat × Ecc)) : Dev :=
  eachOf ecc d fun d e => d.readChecks e.1 (d.pool.lineMeta e.1).owner (some e.2)

/-- ROW_REPAIR_DONE (R260): the row's lines read, with what their checks find, and a soft repair; the next row of the channel begins. A finding
on a line of another row is no part of this repair. -/
def rowRepairDoneD (ch : Fin 384) (ecc : List (Nat × Ecc)) (d : Dev) : Dev :=
  match d.pool.repairing.find? fun r => r.chan = ch.val with
  | none => d
  | some r =>
    let mine (l : Nat) : Bool := chanOf (64 * l) = r.chan && bankOfLine l = r.bank && rowOfLine l = r.row
    (d.takeFindings (ecc.filter fun e => mine e.1)).modPool fun p =>
      let used := tget p.usedRows (bankKey r.chan r.bank) 0 + 1
      let full := Config.spareRows r.chan r.bank ≤ used
      { p with repairing := removeFirst (fun (x : RowRepair) => x.chan = ch.val) p.repairing, softRepairs := p.softRepairs ++ [r],
               usedRows := tset p.usedRows (bankKey r.chan r.bank) used, repairs := p.repairs + 1,
               exhausted := if full && !p.exhausted.contains (r.chan, r.bank) then p.exhausted ++ [(r.chan, r.bank)] else p.exhausted }

/-- PATROL_READ (R259): corrects or poisons; no operation is refused. -/
def patrolReadD (line : Nat) (ecc : Option Ecc) (passEnds : Bool) (d : Dev) : Dev :=
  let d := d.readChecks line (d.pool.lineMeta line).owner ecc
  if passEnds then d.modPool fun p => { p with patrolDone := d.now } else d

/-- SWEEP_LAP (R258): the pass has come round to where the slices `done` joined it, with what the checks of the lines it passed found (R257). The
pending sweeps of those slices end: their lines hold zeros and OWNER 0, and the slices are free. A slice joins the pass at its teardown, whatever
part of the pool the pass is at then (log 187). A sweep pauses during a handover (R406). -/
def sweepLapD (ends : List (BitVec 10)) (ecc : List (Nat × Ecc)) (d : Dev) : Dev :=
  if d.host.handover then d
  else
  let d := d.takeFindings ecc
  let done := d.pool.sweeping.filter fun s => ends.contains (BitVec.ofNat 10 s)
  let lines := (d.pool.lmeta.filter fun e => done.contains e.2.owner.toNat).map (·.1)
  let d := d.modPool fun p =>
    let p := { p with mem := p.mem.filter fun (c : Host.Cell) => !lines.contains (c.1 / 64), lmeta := p.lmeta.filter fun e => !lines.contains e.1 }
    { p with sweeping := p.sweeping.filter fun s => !done.contains s }
  eachOf done d fun d i =>
    if (d.slice i).state = 3 then
      d.modSlice i fun s => { discards := s.discards, tornDown := s.tornDown }
    else d

/-- POOL_INIT_DONE (R266): every line written with zeros; the pool is ready. -/
def poolInitDoneD (d : Dev) : Dev :=
  if d.pool.state ≠ 0 || d.power.releaseStep < 2 then d
  else d.modPool fun p => { p with state := 1, mem := [], lmeta := [], sweeping := [], contexts := [], softRepairs := [] }

/-- Meaning of LINE_STEP. -/
def execLineStep (h : PoolDie) (id : Nat) (s : State) : Host.Outcome State Fault Refusal := .next (s.onDev (lineStepD h id))
/-- Meaning of LINE_PERFORM. -/
def execLinePerform (line : Nat) (ecc : Option Ecc) (s : State) : Host.Outcome State Fault Refusal :=
  .next (s.onDev (linePerformD line ecc))
/-- Meaning of MULTILINE_COMMIT. -/
def execMultilineCommit (h : PoolDie) (id : Nat) (s : State) : Host.Outcome State Fault Refusal := .next (s.onDev (multilineCommitD h id))
/-- Meaning of POSTED_BUFFER_RELEASE. -/
def execPostedBufferRelease (h : PoolDie) (e : HomeEnv) (s : State) : Host.Outcome State Fault Refusal :=
  .next (s.onDev (postedBufferReleaseD h e))
/-- Meaning of DEDUPE_ENTRY_EXPIRY. -/
def execDedupeEntryExpiry (h : PoolDie) (src : BitVec 16) (tag : BitVec 32) (s : State) : Host.Outcome State Fault Refusal :=
  .next (s.onDev (dedupeEntryExpiryD h src tag))
/-- Meaning of STREAM_TABLE_TIMEOUT. -/
def execStreamTableTimeout (src : BitVec 16) (stream : BitVec 14) (s : State) : Host.Outcome State Fault Refusal :=
  .next (s.onDev (streamTableTimeoutD src stream))
/-- Meaning of ROW_REPAIR_DONE. -/
def execRowRepairDone (ch : Fin 384) (s : State) (ecc : List (Nat × Ecc) := []) : Host.Outcome State Fault Refusal :=
  .next (s.onDev (rowRepairDoneD ch ecc))
/-- Meaning of PATROL_READ. -/
def execPatrolRead (line : Nat) (ecc : Option Ecc) (passEnds : Bool) (s : State) : Host.Outcome State Fault Refusal :=
  .next (s.onDev (patrolReadD line ecc passEnds))
/-- Meaning of SWEEP_LAP. -/
def execSweepLap (s : State) (ends : List (BitVec 10) := []) (ecc : List (Nat × Ecc) := []) : Host.Outcome State Fault Refusal :=
  .next (s.onDev (sweepLapD ends ecc))
/-- Meaning of POOL_INIT_DONE. -/
def execPoolInitDone (s : State) : Host.Outcome State Fault Refusal := .next (s.onDev poolInitDoneD)

end Sys2Proof.Machine
end

