-- ==== Sys2Proof/Machine/Relay.lean ====
section
/-!
DEFINITION. Relay engines, the parts that do not move data: groups and their geometry (R167–R174), reservations and slots of a launch
(R172, R176), member records (R177) and their order behind results, aborts (R184).
-/
namespace Sys2Proof.Machine

open Sys2Proof

/-! ### Groups (R167–R169) -/

/-- Element size of a DTYPE (R169). -/
def relaySize (dt : Nat) : Nat := match dt with | 0 => 4 | 1 => 2 | 2 => 2 | 3 => 1 | 4 => 1 | _ => 4

/-- Floating format of a DTYPE (R169); 5 is int32. -/
def relayFmt (dt : Nat) : FFmt :=
  match dt with | 0 => fmtFp32 | 1 => fmtBf16 | 2 => fmtFp16 | 3 => fmtE4m3 | _ => fmtE5m2

/-- Axes of an AXIS_ORDER (R167). -/
def axesOf (o : Nat) : List Nat :=
  match o with | 0 => [0, 1, 2] | 1 => [0, 2, 1] | 2 => [1, 0, 2] | 3 => [1, 2, 0] | 4 => [2, 0, 1] | _ => [2, 1, 0]

/-- The set of an axis. -/
def Group.axisSet (g : Group) (a : Nat) : Nat := if a = 0 then g.xSet.toNat else if a = 1 then g.ySet.toNat else g.zSet.toNat

/-- Whether a collective moves bytes without adding them: all-gather, broadcast, all-to-all (R169, R175). -/
def Group.copies (g : Group) : Bool := 2 ≤ g.coll

/-- Chunks of a plane share (R172). -/
def Group.chunkCount (g : Group) : Nat := ceilDiv g.elements 8192

/-- Elements of chunk `c`. -/
def Group.chunkLen (g : Group) (c : Nat) : Nat := min 8192 (g.elements - 8192 * c)

/-- B of R174. -/
def Group.blockLen (g : Group) : Nat := ceilDiv g.elements g.members.length

/-- The block of member `j` (R174). -/
def Group.block (g : Group) (j : Nat) : Nat × Nat := (j * g.blockLen, min ((j + 1) * g.blockLen) g.elements)

/-- The group a frame names (R170). A revoked KEY finds none. -/
def Dev.groupOf (d : Dev) (key : BitVec 64) (slice : BitVec 10) : Option Nat :=
  (d.relay.groups.find? fun e => e.2.state ≠ 0 && e.2.key ≠ 0 && e.2.key = key && e.2.slice = slice).map (·.1)

/-- The members attached to this module (R167): index, entry and edge port. -/
def Dev.localMembers (d : Dev) (g : Group) : List (Nat × MemberEntry × Nat) :=
  (g.members.zip (upTo g.members.length)).filterMap fun e =>
    match tfind d.rt.nodes e.1.node.toNat with
    | some n => if n.valid && n.edgePort.toNat < 144 then some (e.2, e.1, n.edgePort.toNat) else none
    | none => none

/-- Index of a node among the local members. -/
def Dev.localIndex (d : Dev) (g : Group) (node : BitVec 16) : Option Nat :=
  ((d.localMembers g).find? fun m => m.2.1.node = node).map (·.1)

/-- Rack of a member. -/
def Dev.memberRack (d : Dev) (m : MemberEntry) : Nat := (tget d.rt.nodes m.node.toNat {}).rack.toNat

/-- The racks of a group (R168). -/
def Group.racks (g : Group) : List Nat :=
  (bitsOf 16 g.xSet.toNat).flatMap fun x => (bitsOf 16 g.ySet.toNat).flatMap fun y => (bitsOf 8 g.zSet.toNat).map fun z => mkRack x y z

/-- The other modules of a group. -/
def Dev.otherModules (d : Dev) (g : Group) : List Nat :=
  (g.racks.filter fun r => r ≠ d.rack).map (moduleNode d.ident.straps.plane.toNat)

/-- A ring of a group at this module (R173): its position in AXIS_ORDER, its axis, members, own position, neighbours. -/
structure RingAx where
  pos  : Nat
  axis : Nat
  n    : Nat
  r    : Nat
  down : Nat
  up   : Nat
deriving DecidableEq, Repr

/-- Coordinates of an axis's ring, in ascending coordinate from the domain start (R173). -/
def Dev.ringCoords (d : Dev) (g : Group) (a : Nat) : List Nat :=
  ((upTo (d.rt.n a)).map fun k => (d.rt.s a + k) % d.rt.n a).filter fun c => (g.axisSet a).testBit c

/-- The rings with more than one member (R173). -/
def Dev.rings (d : Dev) (g : Group) : List RingAx :=
  ((axesOf g.axisOrder).zip [0, 1, 2]).filterMap fun e =>
    let cs := d.ringCoords g e.1
    let n := cs.length
    if n ≤ 1 then none
    else
      let r := cs.findIdx fun c => c = coord d.rack e.1
      let at' (k : Nat) : Nat := moduleNode d.ident.straps.plane.toNat (setCoord d.rack e.1 (cs.getD (k % n) 0))
      some ⟨e.2, e.1, n, r, at' (r + 1), at' (r + n - 1)⟩

/-- A pass over a ring: reduce or gather (R175). -/
structure Pass where
  gather : Bool
  ring   : RingAx
deriving DecidableEq, Repr

/-- The passes of a chunk in order (R175). -/
def Dev.passes (d : Dev) (g : Group) : List Pass :=
  let rs := d.rings g
  if g.coll = 4 then []
  else (if g.copies then [] else rs.map fun r => ⟨false, r⟩) ++ rs.reverse.map fun r => ⟨true, r⟩

/-! ### Accumulation (R169, R175) -/

/-- An element widened into the accumulator. -/
def widen (dt v : Nat) : BitVec 64 :=
  if dt = 5 then BitVec.ofInt 64 (toSigned 4 v) else BitVec.ofNat 64 (fconv (relayFmt dt) fmtFp32 v)

/-- A contribution accumulated: sum and mean add, min and max by R58. The first is stored as it is, so that a sum of −0 alone stays −0: R175 does not
say whether a slot starts empty or at +0 (DESIGN CHOICE, log 201). -/
def accumulate (g : Group) (acc : Option (BitVec 64)) (v : BitVec 64) : Option (BitVec 64) :=
  match acc with
  | none => some v
  | some a =>
    if g.dtype = 5 then
      if g.reduce = 1 then some (if a.toInt < v.toInt then a else v)
      else if g.reduce = 2 then some (if a.toInt < v.toInt then v else a)
      else some (a + v)
    else if g.reduce = 1 || g.reduce = 2 then some (BitVec.ofNat 64 (minmaxFp32 (g.reduce = 2) a.toNat v.toNat))
    else some (BitVec.ofNat 64 (addFp32 a.toNat v.toNat))

/-- An fp32 divided by a positive integer, to nearest even (R169). -/
def divFp32 (a n : Nat) : Nat :=
  match fdecode fmtFp32 a with
  | .fin neg m e =>
    let q := (m <<< 64) / n
    let sticky := b2n ((m <<< 64) % n ≠ 0)
    fround fmtFp32 (.fin neg (2 * q + sticky) (e - 65))
  | v => fround fmtFp32 v

/-- A result element and whether it saturated at the int32 limits (R169, R175 step 3). -/
def resultOf (g : Group) (acc : Option (BitVec 64)) : Nat × Bool :=
  let a := acc.getD 0
  if g.dtype = 5 then
    let v : Int := if g.reduce = 3 then Int.tdiv a.toInt g.members.length else a.toInt
    (intSat .int32 v, v < -2147483648 || 2147483647 < v)
  else
    let v := if g.reduce = 3 then divFp32 a.toNat g.members.length else a.toNat
    (if g.dtype = 0 then v else fconv fmtFp32 (relayFmt g.dtype) v, false)

/-! ### Frames of an engine -/

/-- Offset of a relay frame of engine `lane` (R179). -/
def relayOffset (lane : Nat) : BitVec 48 := BitVec.ofNat 48 (0x800100000000 + lane * 2 ^ 28)

/-- A relay frame (R179). -/
def relayFrame (d : Dev) (g : Group) (dst lane op : Nat) (payload : List Byte) : Frame :=
  { dst := BitVec.ofNat 16 dst, src := BitVec.ofNat 16 d.node, offset := relayOffset lane, key := g.key, op := BitVec.ofNat 8 op,
    cls := .g, slice := g.slice, length := BitVec.ofNat 12 payload.length, payload := payload }

/-- The first 16 bytes of a relay payload (R179): LAUNCH_SEQ, CHUNK, bytes 5 to 7, bytes 8 to 15. -/
def relayHead (q c b5 b6 b7 : Nat) (rest : List Byte) : List Byte :=
  le 2 q ++ le 3 c ++ le 1 b5 ++ le 1 b6 ++ le 1 b7 ++ padTo 8 rest

/-- An engine sends a relay frame, in the envelope for a confidential slice (R343). -/
def Dev.sendRelay (d : Dev) (lane : Nat) (f : Frame) : Dev :=
  let (f, d) := if d.isConf f.slice.toNat then d.conceal f else (f, d)
  d.originate (144 + lane) f

/-! ### Reservations and slots (R172, R176) -/

/-- The output a frame of engine `lane` to a module takes on its pinned path. -/
def Dev.pinnedOut (d : Dev) (g : Group) (dst lane : Nat) : Option Nat :=
  match d.rackOf dst with
  | none => none
  | some rd =>
    match (d.routeFrame (144 + lane) { relayFrame d g dst lane 0x60 [] with inter := BitVec.ofNat 11 rd }).1 with
    | .out p _ => some p
    | .hold p _ => some p
    | _ => none

/-- The torus port on which frames of engine `lane` from a ring neighbour along axis `a` arrive (R156, R159). -/
def Dev.pinnedIn (d : Dev) (src lane a : Nat) : Option Nat :=
  match d.rackOf src with
  | none => none
  | some rs =>
    let dir := dirToward d.rt a (coord rs a) (coord d.rack a)
    some (d.pickMember (dir ^^^ 1) (field (pathHash src d.node (pageOf (relayOffset lane).toNat)) 0 8) .g)

/-- The reservations of a launch (R176 step 1): input, output, flits. -/
def Dev.launchPairs (d : Dev) (g : Group) : List (Nat × Nat × Nat) :=
  let edges := (d.localMembers g).flatMap fun m => (upTo 16).flatMap fun e =>
    [(m.2.2, 144 + e, g.rate / 16), (144 + e, m.2.2, g.rate / 16)]
  let two (lane a : Nat) (out inn : Nat) : List (Nat × Nat × Nat) :=
    (match d.pinnedOut g out lane with | some p => [(144 + lane, p, g.torusRate)] | none => []) ++
    (match d.pinnedIn inn lane a with | some p => [(p, 144 + lane, g.torusRate)] | none => [])
  -- an all-to-all runs no rings: of the ring frames it has the READY batons alone, whose first hops are among its own
  let ringPairs := (d.rings g).flatMap fun r => (upTo 16).flatMap fun e =>
    if g.coll = 4 then (match d.pinnedIn r.down e r.axis with | some p => [(p, 144 + e, g.torusRate)] | none => [])
    else two e r.axis r.down r.up ++ two e r.axis r.up r.down
  let all2all := if g.coll ≠ 4 then [] else (upTo 16).flatMap fun e =>
    (((d.otherModules g).filterMap fun m => d.pinnedOut g m e).eraseDups).map fun p => (144 + e, p, g.torusRate)
  edges ++ ringPairs ++ all2all

/-- Reservations taken one after the other; none when one cannot be had. -/
def Dev.reserveAll (d : Dev) (owner inst slice : Nat) (l : List (Nat × Nat × Nat)) : Option Dev :=
  match l with
  | [] => some d
  | (i, o, n) :: r =>
    match d.reserve owner inst i o slice n with
    | some (_, d) => Dev.reserveAll d owner inst slice r
    | none => none

/-- Reservations and slots of a launch taken, all or none (R172, R176). -/
def Dev.takeLaunch (d : Dev) (gi : Nat) : Option Dev :=
  let g := d.group gi
  let need := g.depth / 8
  if (upTo 16).any fun e => 128 < tget d.relay.slots e 0 + need then none
  else
    match d.reserveAll 1 gi g.slice.toNat (d.launchPairs g) with
    | none => none
    | some d =>
      some { d with relay := { d.relay with slots := (upTo 16).foldl (fun t e => tmod t e 0 (· + need)) d.relay.slots } }

/-- Reservations and slots of a running launch released (R183, R184). -/
def Dev.dropLaunch (d : Dev) (gi : Nat) : Dev :=
  let d := d.releaseOwner 1 gi
  let need := (d.group gi).depth / 8
  { d with relay := { d.relay with slots := (upTo 16).foldl (fun t e => tmod t e 0 (· - need)) d.relay.slots } }

/-! ### Member records (R177) -/

/-- A group's stream context has nothing outstanding: no operation, and no posted stores that a drain is still to follow. -/
def Dev.groupIdle (d : Dev) (gi n : Nat) : Bool :=
  !(d.req.ops.any fun o => tagStream o.tag = n) && !(d.sw.gWait.any fun w => tagStream w.f.tag = n) &&
    ((d.group gi).state ≠ 3 || ((d.ctx n).map fun c => c.postedOn.isEmpty).getD true)

/-- A stream context of a pool die's engines opened for a group. Where none is free, one that another write of a group has left idle gives way. -/
def Dev.drawContext (d : Dev) (gi lane : Nat) (cls : TClass) : Option (Nat × Dev) :=
  let open' (d : Dev) : Option (Nat × Dev) := d.openStream (lane / 4) cls (d.group gi).slice.toNat 20 4 (lane % 4)
  match open' d with
  | some r => some r
  | none =>
    match (d.relay.groups.flatMap fun e => e.2.streams.map fun s => (e.1, s.2.2.2)).find? fun x => x.2 % 4 = lane % 4 && d.groupIdle x.1 x.2 with
    | none => none
    | some (gj, n) =>
      open' ((d.closeStream n).modGroup gj fun g => { g with streams := g.streams.filter fun s => s.2.2.2 ≠ n })

/-- The stream context of a group towards a member from engine `lane` in a class (R64), drawn from the module's 16,384 (R19) at its first use
and kept till the group is deleted or a write of another finds none free: the spec gives the total and not how many a group draws (DESIGN
CHOICE, log 66). -/
def Dev.groupStream (d : Dev) (gi lane : Nat) (node : BitVec 16) (cls : TClass) : Option (Nat × Dev) :=
  match (d.group gi).streams.find? fun s => s.1 = lane && s.2.1 = node && s.2.2.1 = cls with
  | some s => some (s.2.2.2, d)
  | none =>
    match d.drawContext gi lane cls with
    | none => none
    | some (n, d) => some (n, d.modGroup gi fun g => { g with streams := g.streams ++ [(lane, node, cls, n)] })

/-- A write of a group to a member (R175, R177). While no stream context is free it waits, behind the earlier ones to the member from its engine
(DESIGN CHOICE, log 66). -/
def Dev.groupWrite (d : Dev) (w : WaitWrite) : Dev :=
  let same (x : WaitWrite) : Bool := x.group = w.group && x.lane = w.lane && x.node = w.node && x.cls = w.cls
  let wait : Dev := { d with relay := { d.relay with waitWrites := d.relay.waitWrites ++ [w] } }
  if d.relay.waitWrites.any same then wait
  else
    match d.groupStream w.group w.lane w.node w.cls with
    | none => wait
    | some (st, d) => d.issue st w.f w.why

/-- The writes that wait for a stream context are tried again, in order. -/
def Dev.serveWrites (d : Dev) : Dev :=
  let all := d.relay.waitWrites
  eachOf all { d with relay := { d.relay with waitWrites := [] } } Dev.groupWrite

/-- Whether results of a group wait for a stream context. -/
def Dev.resultsWait (d : Dev) (gi : Nat) : Bool := d.relay.waitWrites.any fun w => w.group = gi && w.cls = .g

/-- RATE of a local member (R177): EFFECTIVE of its records to the engines, summed. -/
def Dev.memberRate (d : Dev) (gi edge : Nat) : Nat :=
  (d.resvs.map fun e => if e.2.owner = 1 && e.2.ownerInst = gi && e.2.cur.valid && e.2.cur.input = edge then e.2.effective
    else 0).foldl (· + ·) 0

/-- The rates of the local members, in order. -/
def Dev.memberRates (d : Dev) (gi : Nat) : List Nat := (d.localMembers (d.group gi)).map fun m => d.memberRate gi m.2.2

/-- The 64 bytes of a member record (R177). -/
def recordBytes (q state status progress rate cause time : Nat) : List Byte :=
  le 2 q ++ le 1 state ++ le 1 status ++ le 4 progress ++ le 2 (min rate 65535) ++ le 1 cause ++ zeros 5 ++ le 8 time ++ zeros 40

/-- Every local member's record is written: an acknowledged STORE, release at fabric scope, class O (R177). -/
def Dev.writeRecords (d : Dev) (gi state status cause : Nat) : Dev :=
  let g := d.group gi
  let progress := (g.launch.map (·.drained)).getD 0
  let d := d.modGroup gi fun g => { g with launch := g.launch.map fun l => { l with rates := d.memberRates gi } }
  eachOf (d.localMembers g) d fun d m =>
    let bs := recordBytes g.launchSeq.toNat state status progress (d.memberRate gi m.2.2) cause d.now
    d.groupWrite ⟨gi, 0, m.2.1.node, .o,
      { dst := m.2.1.node, offset := m.2.1.record, op := BitVec.ofNat 8 opSTORE, length := 64, key := m.2.1.key, ord := .release,
        scope := .fabric, payload := bs }, .memberRecord gi g.launchSeq.toNat⟩

/-- A drain ends (R177, R99 pair C): the chunks complete when it began are now covered by the records. -/
def Dev.drainEnds (d : Dev) (gi progress : Nat) : Dev :=
  let d := d.modGroup gi fun g => { g with launch := g.launch.map fun l => { l with drained := progress, draining := none } }
  let g := d.group gi
  if g.state = 3 && progress < g.chunkCount then d.writeRecords gi 1 0 0 else d

/-- The results written so far are drained by a FLUSH on every path that carried them. -/
def Dev.startDrain (d : Dev) (gi : Nat) : Dev :=
  let g := d.group gi
  match g.launch with
  | none => d
  | some l =>
    let todo := (g.streams.filter fun s => s.2.2.1 = .g).flatMap fun s => 
      (((d.ctx s.2.2.2).map d.postedPaths).getD []).map fun p => (s.2.2.2, p)
    if todo.isEmpty then d.drainEnds gi l.lowest
    else
      let d := d.modGroup gi fun g => { g with launch := g.launch.map fun l => { l with draining := some (l.lowest, todo.length) } }
      eachOf todo d fun d x => d.issue x.1 (flushFrame x.2) (.drain gi g.launchSeq.toNat)

/-- A drain starts when PROGRESS has advanced by DEPTH ÷ 4 chunks, or every chunk is complete (R177). -/
def Dev.maybeDrain (d : Dev) (gi : Nat) : Dev :=
  let g := d.group gi
  match g.launch with
  | none => d
  | some l =>
    if g.state = 3 && l.draining.isNone && !d.resultsWait gi && l.drained < l.lowest && (l.lowest = g.chunkCount || l.drained + g.depth / 4 ≤ l.lowest)
    then d.startDrain gi else d

/-- Writes of groups that waited go out as stream contexts come free, and the drains that waited for them start. -/
def Dev.settleWrites (d : Dev) : Dev :=
  if d.relay.waitWrites.isEmpty then d
  else eachOf ((d.relay.waitWrites.map fun w => w.group).eraseDups) d.serveWrites Dev.maybeDrain

/-- A FLUSH of a drain has ended. -/
def Dev.drained (d : Dev) (gi launch : Nat) : Dev :=
  let g := d.group gi
  match g.launch with
  | some l =>
    match l.draining with
    | some (p, n) =>
      if g.state ≠ 3 || g.launchSeq.toNat ≠ launch then d
      else if n ≤ 1 then (d.drainEnds gi p).maybeDrain gi
      else d.modGroup gi fun g => { g with launch := g.launch.map fun l => { l with draining := some (p, n - 1) } }
    | none => d
  | none => d

/-! ### Abort (R184) -/

/-- Frames of a group that the engines still hold stop (R184 step 1): relay frames but GROUP_ABORT, and results. -/
def Dev.stopSending (d : Dev) (gi : Nat) : Dev :=
  let g := d.group gi
  let mine := (g.streams.filter fun s => s.2.2.1 = .g).map fun s => s.2.2.2
  let keep (w : GWait) : Bool :=
    !(isRelay w.f.opn && w.f.opn ≠ 0x62 && w.f.key = g.key && w.f.slice = g.slice) && !(mine.contains (tagStream w.f.tag))
  let d : Dev := { d with sw := { d.sw with gWait := d.sw.gWait.filter keep },
                          relay := { d.relay with waitWrites := d.relay.waitWrites.filter fun w => !(w.group = gi && w.cls = .g) } }
  d.dropOps fun o => mine.contains (tagStream o.tag)

/-- GROUP_ABORT to every other module of the group (R184). -/
def Dev.tellAbort (d : Dev) (gi status cause : Nat) : Dev :=
  let g := d.group gi
  eachOf (d.otherModules g) d fun d m =>
    d.sendRelay 0 (relayFrame d g m 0 0x62 (relayHead g.launchSeq.toNat 0 0 0 status (le 1 cause)))

/-- A RELAY record (R355, R356). -/
def relayRec (g : Group) (gi cause : Nat) : FaultRec :=
  { mkRec 8 cause 7 (obj 0x0B gi) [(32, 2, gi), (34, 2, g.launchSeq.toNat)] with slice := g.slice }

/-- A launch aborts (R184 steps 1 to 4). -/
def Dev.abortLaunch (d : Dev) (gi cause status : Nat) (tell : Bool) : Dev :=
  let g := d.group gi
  if g.state ≠ 2 && g.state ≠ 3 then d
  else
    let d := (if tell then d.tellAbort gi status cause else d).stopSending gi
    let d := if g.state = 3 then d.dropLaunch gi else d
    let d := d.writeRecords gi 3 status cause
    (d.modGroup gi fun g =>
      { g with state := 5, lastStatus := status, lastCause := cause, aborts := satAdd 32 g.aborts 1, launch := none }).fault
        (relayRec g gi cause)

/-- Whether a member's node, or a module of the group, is dead (R184, R185). -/
def Dev.groupDead (d : Dev) (g : Group) : Bool :=
  (g.members.any fun m => (tget d.rt.nodes m.node.toNat {}).dead) || g.racks.any fun r => d.deadNeighbour r

/-- A group is deleted: its slot is free and its streams close. -/
def Dev.dropGroup (d : Dev) (gi : Nat) : Dev :=
  let g := d.group gi
  let d := d.stopSending gi
  let d := if g.state = 3 then d.dropLaunch gi else d
  let d := eachOf g.streams d fun d s => d.closeStream s.2.2.2
  { d with relay := { d.relay with groups := tdel d.relay.groups gi, waitWrites := d.relay.waitWrites.filter fun w : WaitWrite => w.group ≠ gi } }

/-- The groups of a slice deleted without records (R184, R366). -/
def Dev.teardownGroups (d : Dev) (sl : Nat) : Dev :=
  eachOf (tkeys d.relay.groups fun _ g => g.state ≠ 0 && g.slice.toNat = sl) d fun d gi => d.dropGroup gi

/-! ### Residuals (R182) -/

/-- Bytes of a residual area (R182). -/
def residSize (elements : Nat) : Nat := ceilDiv (12 * elements + ceilDiv (3 * ceilDiv elements 8192) 8) 4096 * 4096

/-- The key under which a group's residual area is stored: that of a confidential slice, none for plaintext (R182, R262). -/
def Dev.residKey (d : Dev) (g : Group) : List Byte :=
  if d.isConf g.slice.toNat then ((d.slotOf g.slice.toNat).map poolKey).getD [] else []

/-- Whether a line of a residual area cannot be used: its page is mapped out, it is known bad, or its die is not there (R257, R261, R267). -/
def Dev.residOut (d : Dev) (at' : Nat) : Bool :=
  d.pool.isMappedOut (pageOf at') || (d.pool.lineMeta (at' / 64)).poison || d.dieLost (at' / 64)

/-- Bytes of a residual area inside one line; an access that is refused (R257, R261) reads as 0 (DESIGN CHOICE, log 185). -/
def Dev.residual (d : Dev) (g : Group) (at' n : Nat) : Nat :=
  if d.residOut at' then 0 else unle (cut (d.pool.seen (at' / 64) 0 (d.residKey g)) (at' % 64) n)

/-- Bytes of a residual area inside one line written under the slice's key, but for an access that is refused. -/
def Dev.putResidual (d : Dev) (g : Group) (at' : Nat) (bs : List Byte) : Dev :=
  if d.residOut at' then d else d.modPool fun p => p.storeBytes 0 (d.residKey g) at' bs

/-- Bytes of a residual area zeroed, line by line; a whole line loses its POISON with them (R257). -/
def Dev.zeroResiduals (d : Dev) (g : Group) (off n : Nat) : Dev :=
  let key := d.residKey g
  d.modPool fun p => (linePieces off n).foldl (fun p e =>
    let line := e.1 / 64
    if p.isMappedOut (pageOf e.1) || p.diesLost.contains (homeOfLine line) || ((p.lineMeta line).poison && e.2 < 64) then p
    else p.storeBytes 0 key e.1 (zeros e.2)) p

/-- The bitmap of a group's residual area cleared. -/
def Dev.clearResiduals (d : Dev) (g : Group) : Dev :=
  if g.transport = 0 then d else d.zeroResiduals g (g.residual.toNat + 12 * g.elements) (ceilDiv (3 * g.chunkCount) 8)

/-- The relay function of a slice is disabled at the end of its drain (R368): launches abort with cause DISABLED, KEYs are 0, residual
bitmaps are cleared. -/
def Dev.disableGroups (d : Dev) (sl : Nat) : Dev :=
  eachOf (tkeys d.relay.groups fun _ g => g.state ≠ 0 && g.slice.toNat = sl) d fun d gi =>
    let d := d.modGroup gi fun g => { g with queued := none, early := [] }
    let d := d.abortLaunch gi 0x0A 0x07 true
    (d.clearResiduals (d.group gi)).modGroup gi fun g => { g with key := 0 }

end Sys2Proof.Machine
end

