-- ==== Sys2Proof/Machine/RelayFlow.lean ====
section
/-!
DEFINITION. The flow of chunks through the relay engines (R170–R185): member data, the star sum, the ring passes with their batons,
compressed transport, all-to-all, results, launches.
-/
namespace Sys2Proof.Machine

open Sys2Proof

/-! ### Parts and ranges (R173–R175), in elements of a chunk -/

/-- Part `k` of `n` of a piece (R173). -/
def partOf (piece : Nat × Nat) (n k : Nat) : Nat × Nat :=
  let l := piece.2 - piece.1
  let s := 32 * ceilDiv l (32 * n)
  (piece.1 + min (k * s) l, piece.1 + min ((k + 1) * s) l)

/-- The piece a module holds after the first rings of `rs` (R175 step 2). -/
def pieceAfter (rs : List RingAx) (l : Nat) : Nat × Nat := rs.foldl (fun p x => partOf p x.n x.r) (0, l)

/-- The elements of chunk `c` that member `j` sends (R174). Of a broadcast whose root index is MEMBERS or more no member sends any: R176 refuses no
root, and such a launch completes with zero bytes (DESIGN CHOICE, log 199). -/
def memberPart (g : Group) (root c j : Nat) : Nat × Nat :=
  let l := g.chunkLen c
  if g.coll ≤ 1 || g.coll = 4 then (0, l)
  else
    let b := if g.coll = 3 then (if j = root then (0, g.elements) else (0, 0)) else g.block j
    let lo := b.1 - 8192 * c
    let hi := min (b.2 - 8192 * c) l
    if lo < hi then (lo, hi) else (0, 0)

/-- Whether two racks agree in an axis. -/
def sameCoord (a r s : Nat) : Bool := coord r a = coord s a

/-- Elements that overlap or touch joined; the ranges come in ascending order. -/
def joinRanges (l : List (Nat × Nat)) : List (Nat × Nat) :=
  l.foldl (fun acc x =>
    if x.1 ≥ x.2 then acc
    else match acc.getLast? with
      | some y => if x.1 ≤ y.2 then acc.dropLast ++ [(y.1, max y.2 x.2)] else acc ++ [x]
      | none => [x]) []

/-- What a copying collective's module at ring position `k` holds as pass number `i` begins (R175): the bytes of the members whose
racks agree with it in this axis and in the axes still to come. -/
def Dev.heldBy (d : Dev) (g : Group) (root c : Nat) (ps : List Pass) (i k : Nat) : List (Nat × Nat) :=
  match ps[i]? with
  | none => []
  | some p =>
    let rack := setCoord d.rack p.ring.axis ((d.ringCoords g p.ring.axis).getD k 0)
    let axes := (ps.drop i).map fun q => q.ring.axis
    joinRanges ((g.members.zip (upTo g.members.length)).filterMap fun m =>
      if axes.all fun a => sameCoord a (d.memberRack m.1) rack then some (memberPart g root c m.2) else none)

/-- The elements that travel as part `k` of pass number `i` of chunk `c` (R175). -/
def Dev.travel (d : Dev) (g : Group) (root c : Nat) (ps : List Pass) (i k : Nat) : List (Nat × Nat) :=
  match ps[i]? with
  | none => []
  | some p =>
    if g.copies then d.heldBy g root c ps i k
    else
      let rs := (d.rings g).takeWhile fun r => r.pos ≠ p.ring.pos
      let x := partOf (pieceAfter rs (g.chunkLen c)) p.ring.n k
      if x.1 < x.2 then [x] else []

/-- The element numbers of ranges. -/
def elementsOf (rs : List (Nat × Nat)) : List Nat := rs.flatMap fun r => (upTo (r.2 - r.1)).map (r.1 + ·)

/-! ### Formats on the rings (R179, R181) -/

/-- Element format of a transport (R181). -/
def mxFmt (transport : Nat) : FFmt := if transport = 1 then fmtE4m3 else fmtE2m1

/-- Bytes of an MX block (R181). -/
def mxBlock (transport : Nat) : Nat := if transport = 1 then 33 else 17

/-- Bytes of one unit of a step's data: an element, or an MX block of 32. -/
def unitBytes (g : Group) (gather : Bool) : Nat :=
  if gather then relaySize g.dtype else if g.transport ≠ 0 then mxBlock g.transport else if g.dtype = 5 then 8 else 4

/-- Data bytes of a full frame (R179). -/
def frameRoom (g : Group) (gather : Bool) : Nat := 2032 / unitBytes g gather * unitBytes g gather

/-- An MX block as bytes. -/
def mxBytes (transport : Nat) (scale : Nat) (qs : List Nat) : List Byte :=
  le 1 scale ++ (if transport = 1 then qs.flatMap fun q => le 1 q
    else (upTo 16).flatMap fun i => le 1 (qs.getD (2 * i) 0 + 16 * qs.getD (2 * i + 1) 0))

/-- Elements of an MX block. -/
def mxElems (transport : Nat) (bs : List Byte) : List Nat :=
  if transport = 1 then (upTo 32).map fun i => num bs (1 + i) 1
  else (upTo 32).map fun i => field (num bs (1 + i / 2) 1) (4 * (i % 2)) 4

/-- Residuals of chunk `c` at axis position `a` made to exist (R182): where their bit is clear they are zero, and the bit is set. -/
def Dev.openResiduals (d : Dev) (g : Group) (a c : Nat) : Dev :=
  let bit := a * g.chunkCount + c
  let at' := g.residual.toNat + 12 * g.elements + bit / 8
  let first := g.residual.toNat + 4 * (a * g.elements + 8192 * c)
  let b := d.residual g at' 1
  let d := if d.pool.touchesOut first (4 * g.chunkLen c) then d.areaFault first else if d.pool.touchesOut at' 1 then d.areaFault at' else d
  if b.testBit (bit % 8) then d
  else (d.zeroResiduals g first (4 * g.chunkLen c)).putResidual g at' [BitVec.ofNat 8 (b ||| 2 ^ (bit % 8))]

/-- One block quantized with its residuals (R181, R182). A short last block is filled with zeros. -/
def Dev.quantize (d : Dev) (g : Group) (a c : Nat) (ch : Chunk) (ks : List Nat) : List Byte × Dev :=
  let f := mxFmt g.transport
  let at' (k : Nat) : Nat := g.residual.toNat + 4 * (a * g.elements + 8192 * c + k)
  let vs := ks.map fun k => addFp32 ((ch.acc.getD k none).getD 0).toNat (d.residual g (at' k) 4)
  let xs := (vs ++ List.replicate (32 - vs.length) 0).map (fdecode fmtFp32)
  let (scale, qs, _) := quantBlock f .rne [] xs
  let left (v q : Nat) : Nat :=
    match fdecode fmtFp32 v with
    | .fin s m e => if scale = 0xFF then 0 else fround fmtFp32 (faddX (.fin s m e) (blockElem f scale q).neg).1
    | _ => 0
  let put (d : Dev) (k v q : Nat) : Dev := d.putResidual g (at' k) (le 4 (left v q))
  let d := (ks.zip (vs.zip qs)).foldl (fun d x => put d x.1 x.2.1 x.2.2) d
  (mxBytes g.transport scale qs, d)

/-- Pieces of `n` of a list. -/
def piecesOf (n : Nat) (l : List Nat) : List (List Nat) := (upTo (ceilDiv l.length n)).map fun i => (l.drop (n * i)).take n

/-- The data of a step (R179, R181). -/
def Dev.stepData (d : Dev) (g : Group) (c : Nat) (ch : Chunk) (p : Pass) (ks : List Nat) : List Byte × Dev :=
  if p.gather then
    let n := relaySize g.dtype
    (ks.flatMap fun k => cut ch.bytes (n * k) n, d)
  else if g.transport = 0 then
    (ks.flatMap fun k => le (unitBytes g false) ((ch.acc.getD k none).getD 0).toNat, d)
  else
    (piecesOf 32 ks).foldl (fun (acc : List Byte × Dev) b =>
      let (bs, d) := acc.2.quantize g p.ring.pos c ch b
      (acc.1 ++ bs, d)) ([], d.openResiduals g p.ring.pos c)

/-! ### Launch state -/

/-- The launch of a group changed by `f`. -/
def Dev.modLaunch (d : Dev) (gi : Nat) (f : Launch → Launch) : Dev := d.modGroup gi fun g => { g with launch := g.launch.map f }

/-- The current launch of a group. -/
def Dev.launch (d : Dev) (gi : Nat) : Launch := (d.group gi).launch.getD {}

/-- A chunk in flight, fresh where it has not been touched. -/
def Dev.chunk (d : Dev) (gi c : Nat) : Chunk :=
  let g := d.group gi
  match tfind (d.launch gi).chunks c with
  | some ch => ch
  | none => { acc := if g.copies then [] else List.replicate (g.chunkLen c) none, bytes := zeros (g.chunkLen c * relaySize g.dtype) }

/-- Chunk `c` set. -/
def Dev.setChunk (d : Dev) (gi c : Nat) (ch : Chunk) : Dev := d.modLaunch gi fun l => { l with chunks := tset l.chunks c ch }

/-- The 64-byte granules member `j` sends for chunk `c` (R171, R174). -/
def granulesOf (g : Group) (root c j : Nat) : List Nat :=
  let (lo, hi) := memberPart g root c j
  let n := relaySize g.dtype
  if lo < hi then (upTo ((hi * n - 1) / 64 + 1)).drop (lo * n / 64) else []

/-- Whether every local member's bytes of a chunk have arrived (R175 step 1). -/
def Dev.starDone (d : Dev) (gi c : Nat) (ch : Chunk) : Bool :=
  let g := d.group gi
  (d.localMembers g).all fun m => (granulesOf g (d.launch gi).root c m.1).all fun x => ch.granules.contains (m.1, x)

/-! ### Results (R174, R175 step 5) -/

/-- Bytes written to a local member as class G posted stores on its stream from the chunk's engine. -/
def Dev.writeResult (d : Dev) (gi c : Nat) (m : MemberEntry) (at' : Nat) (bs : List Byte) : Dev :=
  let ps := chunksOf 2048 bs
  eachOf (ps.zip (upTo ps.length)) d fun d x =>
    d.groupWrite ⟨gi, c % 16, m.node, .g,
      { dst := m.node, offset := BitVec.ofNat 48 (at' + 2048 * x.2), op := BitVec.ofNat 8 opSTORE_POSTED,
        length := BitVec.ofNat 12 x.1.length, key := m.key, payload := x.1 }, .result gi c⟩

/-- A chunk's result goes to every local member (R174, R175). -/
def Dev.writeResults (d : Dev) (gi c : Nat) (ch : Chunk) : Dev :=
  let g := d.group gi
  let n := relaySize g.dtype
  eachOf (d.localMembers g) d fun d m =>
    if g.coll = 1 then
      let b := g.block m.1
      let lo := max b.1 (8192 * c)
      let hi := min b.2 (8192 * c + g.chunkLen c)
      if lo < hi then d.writeResult gi c m.2.1 (m.2.1.result.toNat + (lo - b.1) * n) (cut ch.bytes ((lo - 8192 * c) * n) ((hi - lo) * n)) else d
    else d.writeResult gi c m.2.1 (m.2.1.result.toNat + 8192 * c * n) ch.bytes

/-- A chunk is complete: its data is let go and PROGRESS advances over complete chunks. Which granules it took stays known, so that one that comes
again is refused while the chunk is in the window (R171). -/
def Dev.completeChunk (d : Dev) (gi c : Nat) (ch : Chunk) : Dev :=
  let d := d.setChunk gi c { ch with done := true, acc := [], bytes := [] }
  let l := d.launch gi
  let n := ((upTo ((d.group gi).chunkCount)).drop l.lowest).takeWhile fun k => ((tfind l.chunks k).map (·.done)).getD false
  (d.modLaunch gi fun l => { l with lowest := l.lowest + n.length }).maybeDrain gi

/-- The final piece converted into the result format (R169, R175 step 3). -/
def Dev.convertChunk (d : Dev) (gi c : Nat) (ch : Chunk) : Chunk × Dev :=
  let g := d.group gi
  if ch.conv || g.copies then ({ ch with conv := true }, d)
  else
    let (lo, hi) := pieceAfter (d.rings g) (g.chunkLen c)
    let n := relaySize g.dtype
    let rs := ((ch.acc.drop lo).take (hi - lo)).map (resultOf g)
    let sat := (rs.filter (·.2)).length
    ({ ch with conv := true, bytes := overwrite ch.bytes (lo * n) (rs.flatMap fun r => le n r.1) },
     d.modGroup gi fun g => { g with saturations := satAdd 32 g.saturations sat })

/-! ### Ring steps (R175, R180) -/

/-- A step of a chunk is sent to the downstream neighbour, kept until its baton comes (R180). -/
def Dev.sendStep (d : Dev) (gi c : Nat) (ch : Chunk) (ps : List Pass) (p : Pass) : Dev :=
  let g := d.group gi
  let l := d.launch gi
  let k := (p.ring.r + p.ring.n - ch.step + b2n p.gather) % p.ring.n
  let (data, d) := d.stepData g c ch p (elementsOf (d.travel g l.root c ps ch.phase k))
  let parts := if data.isEmpty then [[]] else chunksOf (frameRoom g p.gather) data
  let fs := (parts.zip (upTo parts.length)).map fun x =>
    relayFrame d g p.ring.down (c % 16) 0x60
      (relayHead g.launchSeq.toNat c (p.ring.pos * 64 + b2n p.gather * 32 + x.2) (ch.step * 16) parts.length [] ++ x.1)
  let s : RingStep := { id := l.nextStep, dst := BitVec.ofNat 16 p.ring.down, chunk := c, axis := p.ring.pos, gather := p.gather,
                        step := ch.step, frames := fs }
  let d := d.modLaunch gi fun l => { l with steps := l.steps ++ [s], nextStep := l.nextStep + 1 }
  eachOf fs (d.setChunk gi c { ch with sent := true, acked := false }) fun d f => d.sendRelay (c % 16) f

/-- Whether a step has been received whole. -/
def Chunk.received (ch : Chunk) (p : Pass) : Bool :=
  ch.recv.any fun r => r.axis = p.ring.pos && r.gather = p.gather && r.step = ch.step && r.bits = 2 ^ r.total - 1

/-- A step complete in both directions gives way to the next (R180). -/
def Chunk.advance (ch : Chunk) (ps : List Pass) : Chunk :=
  match ps[ch.phase]? with
  | some p =>
    if ch.sent && ch.acked && ch.received p then
      let last := p.ring.n ≤ ch.step + 1
      { ch with sent := false, acked := false, step := if last then 1 else ch.step + 1, phase := if last then ch.phase + 1 else ch.phase }
    else ch
  | none => ch

/-! ### All-to-all (R174, R175, R179) -/

/-- The elements of chunk `c` in the block for member `j`. -/
def a2aPart (g : Group) (c j : Nat) : Nat × Nat :=
  let b := g.block j
  let lo := max b.1 (8192 * c)
  let hi := min b.2 (8192 * c + g.chunkLen c)
  if lo < hi then (lo, hi) else (0, 0)

/-- Frames of a block's part of a chunk. -/
def a2aFrames (g : Group) (c j : Nat) : Nat :=
  let (lo, hi) := a2aPart g c j
  ceilDiv ((hi - lo) * relaySize g.dtype) (frameRoom g true)

/-- The blocks a member's bytes of a chunk make up are sent to the modules of their members, or written here. -/
def Dev.sendBlocks (d : Dev) (gi c : Nat) (bytes : List (Nat × List Byte)) : Dev :=
  let g := d.group gi
  let n := relaySize g.dtype
  let mine := d.localMembers g
  eachOf bytes d fun d src =>
    eachOf (g.members.zip (upTo g.members.length)) d fun d dm =>
      let (lo, hi) := a2aPart g c dm.2
      let data := cut src.2 ((lo - 8192 * c) * n) ((hi - lo) * n)
      let off := (lo - (g.block dm.2).1) * n
      if lo = hi then d
      else if mine.any fun m => m.1 = dm.2 then
        d.writeResult gi c dm.1 (dm.1.result.toNat + src.1 * g.blockLen * n + off) data
      else
        let parts := chunksOf (frameRoom g true) data
        let nd := moduleNode d.ident.straps.plane.toNat (d.memberRack dm.1)
        eachOf (parts.zip (upTo parts.length)) d fun d x =>
          let f := relayFrame d g nd (c % 16) 0x63
            (relayHead g.launchSeq.toNat c x.2 0 parts.length (le 2 src.1 ++ le 2 dm.2 ++ le 4 (off + x.2 * frameRoom g true)) ++ x.1)
          let s : RingStep := { id := (d.launch gi).nextStep, dst := BitVec.ofNat 16 nd, chunk := c, axis := 0, gather := false, step := 0,
                                frames := [f], block := some x.2 }
          (d.modLaunch gi fun l => { l with steps := l.steps ++ [s], nextStep := l.nextStep + 1 }).sendRelay (c % 16) f

/-- Whether every frame due to this module's members from elsewhere has come for a chunk. -/
def Dev.blocksDone (d : Dev) (gi c : Nat) (ch : Chunk) : Bool :=
  let g := d.group gi
  let mine := (d.localMembers g).map (·.1)
  (upTo g.members.length).all fun i => mine.contains i || mine.all fun j => (upTo (a2aFrames g c j)).all fun f => ch.blocks.contains (i, j, f)

/-! ### A chunk goes on -/

/-- A chunk does what its state allows (R175, R180). In an all-to-all chunk `sent` says that its blocks have gone out. -/
def Dev.goOn (d : Dev) (gi c : Nat) : Dev :=
  let g := d.group gi
  let ch0 := d.chunk gi c
  if g.state ≠ 3 || ch0.done || !d.starDone gi c ch0 then d
  else if g.coll = 4 then
    let d := if ch0.sent then d else
      let n := g.chunkLen c * relaySize g.dtype
      let rows := ((d.localMembers g).zip (upTo (d.localMembers g).length)).map fun x => (x.1.1, cut ch0.bytes (x.2 * n) n)
      (d.setChunk gi c { ch0 with sent := true, bytes := [] }).sendBlocks gi c rows
    let ch := d.chunk gi c
    if d.blocksDone gi c ch && !((d.launch gi).steps.any fun s => s.chunk = c) then d.completeChunk gi c ch else d
  else
    let ps := d.passes g
    let ch := ch0.advance ps
    let gatherNow := match ps[ch.phase]? with | some p => p.gather | none => true
    let (ch, d) := if gatherNow then d.convertChunk gi c ch else (ch, d)
    let d := d.setChunk gi c ch
    match ps[ch.phase]? with
    | none => (d.writeResults gi c ch).completeChunk gi c ch
    | some p =>
      if !ch.sent && (d.launch gi).ready.contains p.ring.pos then d.sendStep gi c ch ps p else d

/-- Every chunk of the window goes on, those that wait for no local bytes among them. -/
def Dev.goOnAll (d : Dev) (gi : Nat) : Dev :=
  let g := d.group gi
  let l := d.launch gi
  eachOf (((upTo (min g.chunkCount (l.lowest + 2 * g.depth))).drop l.lowest)) d fun d c => d.goOn gi c

/-! ### Launches (R176) -/

/-- CRC of a group (R176): object bytes 14–19 and 22–43, then the member table. -/
def groupCrc (g : Group) : Nat :=
  let obj :=
    le 2 g.slice.toNat ++ le 1 (g.coll * 16 + g.reduce * 4 + g.transport) ++ le 1 (g.dtype * 16 + g.axisOrder) ++ le 2 g.members.length ++
    le 2 g.depth ++ le 4 g.elements ++ le 2 g.rate ++ le 2 g.torusRate ++ le 4 g.timeout ++ le 2 g.xSet.toNat ++ le 2 g.ySet.toNat ++
    le 1 g.zSet.toNat ++ zeros 3
  let entry (m : MemberEntry) : List Byte :=
    le 6 m.result.toNat ++ le 2 m.node.toNat ++ le 8 m.key.toNat ++ le 6 m.record.toNat ++ zeros 2 ++ zeros 8
  crc32c (obj ++ g.members.flatMap entry)

/-- A READY baton for the current launch (R176): a differing CRC, or root of a broadcast, aborts it. -/
def Dev.readyBaton (d : Dev) (gi axis crc root : Nat) : Dev :=
  let g := d.group gi
  if g.state ≠ 2 && g.state ≠ 3 then d
  else if crc ≠ groupCrc g || (g.coll = 3 && root ≠ (d.launch gi).root) then d.abortLaunch gi 0x08 0x09 true
  else
    let d := d.modLaunch gi fun l => { l with ready := if l.ready.contains axis then l.ready else l.ready ++ [axis] }
    if g.state = 3 then d.goOnAll gi else d

/-- A launch whose resources are free runs (R176 steps 1 to 4). -/
def Dev.tryLaunch (d : Dev) (gi : Nat) : Dev :=
  match d.takeLaunch gi with
  | none => d
  | some d =>
    let d := (d.modGroup gi fun g => { g with state := 3 }).writeRecords gi 1 0 0
    let g := d.group gi
    let d := eachOf (d.rings g) d fun d r =>
      d.sendRelay 0 (relayFrame d g r.up 0 0x61
        (relayHead g.launchSeq.toNat 0 (r.pos * 64) 0 0 (le 4 (groupCrc g) ++ le 2 (d.launch gi).root)))
    d.goOnAll gi

/-- A launch starts, or waits for its resources in STATE 2; READY batons that came for it while it was queued count (R176). -/
def Dev.startLaunch (d : Dev) (gi : Nat) (q : BitVec 16) (root : Nat) : Dev :=
  let early := (d.group gi).early
  let d := d.modGroup gi fun g =>
    { g with launchSeq := q, state := 2, launches := satAdd 32 g.launches 1, queued := none, early := [],
             launch := some { root := root, turn := d.relay.waitTick } }
  let d := { d with relay := { d.relay with waitTick := d.relay.waitTick + 1 } }
  eachOf early (d.tryLaunch gi) fun d e => d.readyBaton gi e.1 e.2.1 e.2.2

/-- A queued launch starts once its group is done or aborted (R183 step 4, R184 step 5). -/
def Dev.startQueued (d : Dev) (gi : Nat) : Dev :=
  let g := d.group gi
  match g.queued with
  | some (q, root) => if g.state = 4 || g.state = 5 then d.startLaunch gi q root else d
  | none => d

/-- A launch is asked for (R176): the status, and BACKOFF with RETRY_LATER. -/
def Dev.askLaunch (d : Dev) (gi : Nat) (q : BitVec 16) (root : Nat) : (Nat × Nat) × Dev :=
  let g := d.group gi
  if d.disabled g.slice.toNat 0 then ((0x07, 0), d)
  else if q = g.launchSeq + 1 && (g.state = 1 || g.state = 4 || g.state = 5) then ((0, 0), d.startLaunch gi q root)
  else if q = g.launchSeq && g.launches ≠ 0 then
    if g.coll = 3 && (g.state = 2 || g.state = 3) && root ≠ (d.launch gi).root then
      ((0, 0), (d.abortLaunch gi 0x08 0x09 true).startQueued gi)
    else ((0, 0), d)
  else if q = g.launchSeq + 1 && (g.state = 2 || g.state = 3) then
    if g.queued.isSome then ((0x08, 4), d) else ((0, 0), d.modGroup gi fun g => { g with queued := some (q, root) })
  else ((0x03, 0), d)

/-- An abort followed by the launch that is queued. -/
def Dev.abortAndGo (d : Dev) (gi cause status : Nat) (tell : Bool) : Dev := (d.abortLaunch gi cause status tell).startQueued gi

/-- Running launches with a dead member or module abort (R184 DEAD). -/
def Dev.abortDead (d : Dev) : Dev :=
  eachOf (tkeys d.relay.groups fun _ g => (g.state = 2 || g.state = 3) && d.groupDead g) d fun d gi => d.abortAndGo gi 0x06 0x06 true

/-! ### Member data (R170, R171) -/

/-- Chunk index of a data frame (R170): the value in [P, P + 512) with its lane and CHI. -/
def chunkOf (lowest w : Nat) : Nat :=
  let x := field w 28 4 + 16 * field w 23 5
  lowest + (x + 512 - lowest % 512) % 512

/-- A data frame whose group was found (R171): status, and the device after it. -/
def Dev.memberData (d : Dev) (gi : Nat) (f : Frame) : Nat × Dev :=
  let g := d.group gi
  let l := d.launch gi
  let w := f.offset.toNat - 0x800100000000
  let n := relaySize g.dtype
  let c := chunkOf l.lowest w
  let at' := field w 0 15
  let fin := at' + f.length.toNat
  let size := if c < g.chunkCount then g.chunkLen c * n else 0
  let me := d.localIndex g f.src
  let misaligned := at' % 64 ≠ 0 || (fin % 64 ≠ 0 && (size = 0 || fin / 64 ≠ (size - 1) / 64))
  let part := match me with | some j => memberPart g l.root c j | none => (0, 0)
  let ch := d.chunk gi c
  let grans := (upTo (ceilDiv fin 64)).drop (at' / 64)
  let st :=
    if g.state ≠ 3 then 0x07
    else if misaligned then 0x0B
    else if field w 16 7 ≠ 0 || c < l.lowest || min (l.lowest + 2 * g.depth) g.chunkCount ≤ c || size < fin then 0x03
    else match me with
      | none => 0x02
      | some j => if at' < part.1 * n || part.2 * n < fin || grans.any fun x => ch.granules.contains (j, x) then 0x03 else 0
  if st ≠ 0 then
    (st, if (st = 0x0B || st = 0x03) && me.isSome then d.abortAndGo gi 0x03 st true else d)
  else
    let j := me.getD 0
    let ch := { ch with granules := ch.granules ++ grans.map fun x => (j, x) }
    let ch :=
      if g.coll = 4 then
        let row := ((d.localMembers g).findIdx fun m => m.1 = j) * (g.chunkLen c * n)
        let bytes := if ch.bytes.length < (d.localMembers g).length * (g.chunkLen c * n) then
          padTo ((d.localMembers g).length * (g.chunkLen c * n)) ch.bytes else ch.bytes
        { ch with bytes := overwrite bytes (row + at') f.payload }
      else if g.copies then { ch with bytes := overwrite ch.bytes at' f.payload }
      else
        let vs := (chunksOf n f.payload).map fun e => widen g.dtype (unle e)
        { ch with acc := (vs.zip (upTo vs.length)).foldl (fun acc x => lmod acc (at' / n + x.2) fun a => accumulate g a x.1) ch.acc }
    (0, (d.setChunk gi c ch).goOn gi c)

/-- A discard counted against a group (R144). -/
def Dev.countGroup (d : Dev) (gi : Nat) : Dev := d.modGroup gi fun g => { g with discards := g.discards + 1 }

/-- An operation in the relay window judged and carried out (R30, R170, R171, R176): the group found, status, BACKOFF, in the order of R11: a group
that is not running comes before the form of a data frame, and the reserved bits of OFFSET stand among the rows of R171 where its group is found;
of a launch word, whose sender need not be a local member to learn that its number is out of range. A FLUSH is answered OK whatever those bits hold:
R170 refuses them of any operation, R171 lets none of its rows apply to a FLUSH (DESIGN CHOICE, log 200). -/
def Dev.relayJudge (d : Dev) (f : Frame) : Option Nat × (Nat × Nat) × Dev :=
  let op := f.opn
  let w := f.offset.toNat - 0x800100000000
  let ctl := w.testBit 15
  let gi := d.groupOf f.key f.slice
  let live := match gi with | some i => (d.group i).state = 3 | none => false
  if op = opFLUSH then (none, (0, 0), d)
  else if d.disabled f.slice.toNat 0 && (ctl || !live) then (gi, (0x07, 0), d)
  else if op ≠ opSTORE && op ≠ opSTORE_POSTED then (gi, (0x09, 0), d)
  else if !ctl && gi.isSome && !live then (gi, (0x07, 0), d)
  else if f.length = 0 || 2048 < f.length.toNat then (gi, (0x09, 0), d)
  else if ctl && field w 0 15 = 0 && (op ≠ opSTORE || f.length ≠ 8 || (f.cls ≠ .g && f.cls ≠ .o) || num f.payload 4 4 ≠ 0) then
    (gi, (0x09, 0), d)
  else if !ctl && f.cls ≠ .g then (gi, (0x09, 0), d)
  else if (field w 16 7 ≠ 0 && (ctl || gi.isNone)) || (ctl && field w 0 15 ≠ 0) then (gi, (0x03, 0), d)
  else
    match gi with
    | none => (none, (0x01, 0), d)
    | some i =>
      if ctl then
        let word := num f.payload 0 8
        let (st, d') := d.askLaunch i (BitVec.ofNat 16 word) (field word 16 16)
        if st.1 ≠ 0x07 && st.1 ≠ 0x03 && (d.localIndex (d.group i) f.src).isNone then (gi, (0x02, 0), d)
        else (gi, st, d')
      else
        let (st, d) := d.memberData i f
        (gi, (st, 0), d)

/-! ### Relay frames (R179, R180) -/

/-- A STEP baton to the upstream neighbour (R180). -/
def Dev.sendBaton (d : Dev) (gi dst c b5 b6 bits : Nat) : Dev :=
  let g := d.group gi
  d.sendRelay (c % 16) (relayFrame d g dst (c % 16) 0x61 (relayHead g.launchSeq.toNat c b5 b6 1 (le 4 bits)))

/-- The data of a ring frame taken into a chunk (R175, R181). -/
def Dev.takeRing (d : Dev) (gi c : Nat) (ch : Chunk) (ps : List Pass) (i step frame : Nat) (data : List Byte) : Chunk :=
  let g := d.group gi
  match ps[i]? with
  | none => ch
  | some p =>
    let k := (p.ring.r + 2 * p.ring.n - step - b2n (!p.gather)) % p.ring.n
    let u := unitBytes g p.gather
    let per := frameRoom g p.gather / u
    let ks := elementsOf (d.travel g (d.launch gi).root c ps i k)
    let add (acc : List (Option (BitVec 64))) (k : Nat) (v : Nat) : List (Option (BitVec 64)) :=
      lmod acc k fun a => accumulate g a (BitVec.ofNat 64 v)
    if p.gather then
      let es := chunksOf u data
      { ch with bytes := ((ks.drop (frame * per)).zip es).foldl (fun b x => overwrite b (x.1 * u) x.2) ch.bytes }
    else if g.transport = 0 then
      let es := chunksOf u data
      { ch with acc := ((ks.drop (frame * per)).zip es).foldl (fun acc x => add acc x.1 (unle x.2)) ch.acc }
    else
      let f := mxFmt g.transport
      let vs := (chunksOf u data).flatMap fun b => (mxElems g.transport b).map fun q => fround fmtFp32 (blockElem f (num b 0 1) q)
      { ch with acc := ((ks.drop (frame * per * 32)).zip vs).foldl (fun acc x => add acc x.1 x.2) ch.acc }

/-- RING_DATA of the current launch (R180). -/
def Dev.ringFrame (d : Dev) (gi : Nat) (f : Frame) : Dev :=
  let g := d.group gi
  let b := f.payload
  let c := num b 2 3
  let axis := num b 5 1 / 64
  let gather := (num b 5 1).testBit 5
  let fr := num b 5 1 % 32
  let step := num b 6 1 / 16
  let total := num b 7 1
  let ps := d.passes g
  let i := ps.findIdx fun p => p.ring.pos = axis && p.gather = gather
  match ps[i]? with
  | none => d.countGroup gi
  | some p =>
    if step = 0 || p.ring.n ≤ step || total = 0 || 31 < total || total ≤ fr || g.chunkCount ≤ c then d.countGroup gi
    else
      let ch := d.chunk gi c
      let mine (r : RingRecv) : Bool := r.axis = axis && r.gather = gather && r.step = step
      let full := 2 ^ total - 1
      let b5 := axis * 64 + b2n gather * 32
      match ch.recv.find? mine with
      | some r =>
        if r.bits.testBit fr then
          let again := r.again ||| 2 ^ fr
          let whole := r.bits = full && again = full
          let recv := ch.recv.map fun x => if mine x then { x with again := if whole then 0 else again } else x
          let d := (d.setChunk gi c { ch with recv := recv }).countGroup gi
          if whole then d.sendBaton gi p.ring.up c b5 (step * 16) full else d
        else
          let bits := r.bits ||| 2 ^ fr
          let ch := d.takeRing gi c { ch with recv := ch.recv.map fun x => if mine x then { x with bits := bits } else x } ps i step fr (b.drop 16)
          let d := d.setChunk gi c ch
          if bits = full then (d.sendBaton gi p.ring.up c b5 (step * 16) full).goOn gi c else d
      | none =>
        let r : RingRecv := { axis := axis, gather := gather, step := step, total := total, bits := 2 ^ fr }
        let ch := d.takeRing gi c { ch with recv := ch.recv ++ [r] } ps i step fr (b.drop 16)
        let d := d.setChunk gi c ch
        if r.bits = full then (d.sendBaton gi p.ring.up c b5 (step * 16) full).goOn gi c else d

/-- BATON of kind STEP of the current launch (R180). -/
def Dev.stepBaton (d : Dev) (gi : Nat) (f : Frame) : Dev :=
  let b := f.payload
  let c := num b 2 3
  let axis := num b 5 1 / 64
  let gather := (num b 5 1).testBit 5
  let step := num b 6 1 / 16
  let bits := num b 8 4
  let mine (s : RingStep) : Bool :=
    s.chunk = c && s.dst = f.src && match s.block with
      | some k => step = 0 && bits = 2 ^ k
      | none => s.axis = axis && s.gather = gather && s.step = step && bits = 2 ^ s.frames.length - 1
  match (d.launch gi).steps.find? mine with
  | none => d
  | some s =>
    let d := d.modLaunch gi fun l => { l with steps := l.steps.filter fun x => x.id ≠ s.id }
    let d := if s.block.isSome then d else d.setChunk gi c { d.chunk gi c with acked := true }
    d.goOn gi c

/-- A2A_DATA of the current launch (R175, R179, R180): answered frame by frame, written once. -/
def Dev.a2aFrame (d : Dev) (gi : Nat) (f : Frame) : Dev :=
  let g := d.group gi
  let b := f.payload
  let c := num b 2 3
  let fr := num b 5 1 % 32
  let i := num b 8 2
  let j := num b 10 2
  match (d.localMembers g).find? fun m => m.1 = j with
  | none => d.countGroup gi
  | some m =>
    if g.coll ≠ 4 || g.chunkCount ≤ c || a2aFrames g c j ≤ fr || g.members.length ≤ i then d.countGroup gi
    else
      let ch := d.chunk gi c
      let d := d.sendBaton gi f.src.toNat c 0 0 (2 ^ fr)
      if ch.blocks.contains (i, j, fr) then d.countGroup gi
      else
        let d := d.setChunk gi c { ch with blocks := ch.blocks ++ [(i, j, fr)] }
        (d.writeResult gi c m.2.1 (m.2.1.result.toNat + i * g.blockLen * relaySize g.dtype + num b 12 4) (b.drop 16)).goOn gi c

/-- A relay frame that reached its engine (R179, R180, R183, R184). -/
def Dev.relayFrameIn (d : Dev) (pp : Nat) (f : Frame) : Dev :=
  let op := f.opn
  if 0x63 < op then d.countDiscard (144 + pp) discReserved
  else
    match d.groupOf f.key f.slice with
    | none => d.countDiscard (144 + pp) discReserved
    | some gi =>
      let g := d.group gi
      let q := BitVec.ofNat 16 (num f.payload 0 2)
      let axis := num f.payload 5 1 / 64
      let near := (d.rings g).any fun r => r.pos = axis && (r.down = f.src.toNat || r.up = f.src.toNat)
      let ready := op = 0x61 && num f.payload 7 1 = 0 && near
      let crc := num f.payload 8 4
      let root := num f.payload 12 2
      if q = g.launchSeq && (g.state = 2 || g.state = 3) then
        if op = 0x62 then d.abortAndGo gi 0x09 (num f.payload 7 1) false
        else if ready then (d.readyBaton gi axis crc root).startQueued gi
        else if g.state = 2 then d.countGroup gi
        else if op = 0x60 then d.ringFrame gi f
        else if op = 0x61 then (if num f.payload 7 1 = 1 then d.stepBaton gi f else d.countGroup gi)
        else d.a2aFrame gi f
      else if ready && q = g.launchSeq + 1 then
        let keep (d : Dev) : Dev := d.modGroup gi fun g => { g with early := g.early ++ [(axis, crc, root)] }
        match g.queued with
        | some _ => keep d
        | none =>
          let (st, d) := d.askLaunch gi q root
          if st.1 ≠ 0 then d.countGroup gi
          else if (d.group gi).launchSeq = q then d.readyBaton gi axis crc root
          else keep d
      else d.countGroup gi

/-! ### The relay window at a pool port -/

/-- A relay frame, or an operation in the relay window, delivered to a pool port (R170, R171, R179). -/
def Dev.relayArrive (d : Dev) (pp : Nat) (f0 : Frame) : Dev :=
  let h := pp / 4
  if !(d.home h).up then d
  else
    match d.takeIn (144 + pp) f0 with
    | (none, d) => d
    | (some f, d) =>
      if isRelay f.opn then d.relayFrameIn pp f
      else if isPosted f.opn then
        match d.relayJudge f with
        | (gi, st, d) =>
          if st.1 = 0 then d
          else match gi with | some i => d.countGroup i | none => d.countDiscard (144 + pp) discReserved
      else
        match (d.home h).relayDedupe.find? fun x => x.src = f.src && x.tag = f.tag with
        | some _ => d.reply (144 + pp) f 0 0 none
        | none =>
          match d.relayJudge f with
          | (_, st, d) =>
            let keep := st.1 = 0 && f.opn = opSTORE && (d.home h).relayDedupe.length < 65536
            let d := if keep then d.modHome h fun s => { s with relayDedupe := s.relayDedupe ++ [⟨f.src, f.tag, []⟩] } else d
            d.reply (144 + pp) f st.1 st.2 none

/-- A frame delivered to a pool port: relay frames and the relay window go to the engine behind the port, all else to the home. -/
def Dev.poolArrive (d : Dev) (pp : Nat) (f : Frame) (e : HomeEnv) : Dev :=
  if isRelay f.opn || inRelay f.offset.toNat then d.relayArrive pp f else d.homeArrive pp f e

/-! ### Commands -/

/-- LAUNCH_WORD (R176). -/
def launchWordD (pp : PoolPort) (f : Frame) (d : Dev) : Dev := d.poolArrive pp f {}
/-- RELAY_DATA (R171). -/
def relayDataD (pp : PoolPort) (f : Frame) (d : Dev) : Dev := d.poolArrive pp f {}
/-- RELAY_FLUSH (R171): every earlier posted store of the stream was carried out on its arrival. -/
def relayFlushD (pp : PoolPort) (f : Frame) (d : Dev) : Dev := d.poolArrive pp f {}
/-- RING_DATA (R180). -/
def ringDataD (pp : PoolPort) (f : Frame) (d : Dev) : Dev := d.poolArrive pp { f with op := 0x60 } {}
/-- BATON (R180). -/
def batonD (pp : PoolPort) (f : Frame) (d : Dev) : Dev := d.poolArrive pp { f with op := 0x61 } {}
/-- A2A_DATA (R175). -/
def a2aDataD (pp : PoolPort) (f : Frame) (d : Dev) : Dev := d.poolArrive pp { f with op := 0x63 } {}
/-- GROUP_ABORT as a frame (R184). -/
def groupAbortFrameD (pp : PoolPort) (f : Frame) (d : Dev) : Dev := d.poolArrive pp { f with op := 0x62 } {}

/-- RING_STEP_RESEND (R180): 20 µs after the step's last frame. -/
def ringStepResendD (gi : GroupSlot) (id : Nat) (d : Dev) : Dev :=
  match (d.launch gi).steps.find? fun s => s.id = id && !s.resent with
  | none => d
  | some s =>
    let d := d.modLaunch gi fun l => { l with steps := l.steps.map fun x => if x.id = id then { x with resent := true } else x }
    eachOf s.frames d fun d f => d.sendRelay (s.chunk % 16) f

/-- RING_LOST (R180, R184): still no baton 20 µs after the re-send. -/
def ringLostD (gi : GroupSlot) (id : Nat) (d : Dev) : Dev :=
  if (d.launch gi).steps.any fun s => s.id = id && s.resent then d.abortAndGo gi 0x02 0x05 true else d

/-- LAUNCH_STALL (R184). -/
def launchStallD (gi : GroupSlot) (d : Dev) : Dev := if (d.group gi).state = 3 then d.abortAndGo gi 0x01 0x05 true else d

/-- LAUNCH_RESOURCE_TIMEOUT (R176, R184). -/
def launchResourceTimeoutD (gi : GroupSlot) (d : Dev) : Dev := if (d.group gi).state = 2 then d.abortAndGo gi 0x07 0x07 true else d

/-- LAUNCH_COMPLETE (R183): every chunk's results are written to every local member. -/
def launchCompleteD (gi : GroupSlot) (d : Dev) : Dev :=
  let g := d.group gi
  if g.state = 3 && (d.launch gi).drained = g.chunkCount then
    let d := (d.writeRecords gi 2 0 0).dropLaunch gi
    (d.modGroup gi fun g => { g with state := 4, lastStatus := 0, lastCause := 0, launch := none }).startQueued gi
  else d

/-- Meaning of LAUNCH_WORD. -/
def execLaunchWord (pp : PoolPort) (f : Frame) (s : State) : Host.Outcome State Fault Refusal := .next (s.onDev (launchWordD pp f))
/-- Meaning of RELAY_DATA. -/
def execRelayData (pp : PoolPort) (f : Frame) (s : State) : Host.Outcome State Fault Refusal := .next (s.onDev (relayDataD pp f))
/-- Meaning of RELAY_FLUSH. -/
def execRelayFlush (pp : PoolPort) (f : Frame) (s : State) : Host.Outcome State Fault Refusal := .next (s.onDev (relayFlushD pp f))
/-- Meaning of RING_DATA. -/
def execRingData (pp : PoolPort) (f : Frame) (s : State) : Host.Outcome State Fault Refusal := .next (s.onDev (ringDataD pp f))
/-- Meaning of BATON. -/
def execBaton (pp : PoolPort) (f : Frame) (s : State) : Host.Outcome State Fault Refusal := .next (s.onDev (batonD pp f))
/-- Meaning of A2A_DATA. -/
def execA2aData (pp : PoolPort) (f : Frame) (s : State) : Host.Outcome State Fault Refusal := .next (s.onDev (a2aDataD pp f))
/-- Meaning of GROUP_ABORT_FRAME. -/
def execGroupAbortFrame (pp : PoolPort) (f : Frame) (s : State) : Host.Outcome State Fault Refusal :=
  .next (s.onDev (groupAbortFrameD pp f))
/-- Meaning of RING_STEP_RESEND. -/
def execRingStepResend (g : GroupSlot) (id : Nat) (s : State) : Host.Outcome State Fault Refusal := .next (s.onDev (ringStepResendD g id))
/-- Meaning of RING_LOST. -/
def execRingLost (g : GroupSlot) (id : Nat) (s : State) : Host.Outcome State Fault Refusal := .next (s.onDev (ringLostD g id))
/-- Meaning of LAUNCH_STALL. -/
def execLaunchStall (g : GroupSlot) (s : State) : Host.Outcome State Fault Refusal := .next (s.onDev (launchStallD g))
/-- Meaning of LAUNCH_RESOURCE_TIMEOUT. -/
def execLaunchResourceTimeout (g : GroupSlot) (s : State) : Host.Outcome State Fault Refusal :=
  .next (s.onDev (launchResourceTimeoutD g))
/-- Meaning of LAUNCH_COMPLETE. -/
def execLaunchComplete (g : GroupSlot) (s : State) : Host.Outcome State Fault Refusal := .next (s.onDev (launchCompleteD g))

end Sys2Proof.Machine
end

