-- ==== Sys2Proof/Machine/PoolOps.lean ====
section
/-!
DEFINITION. The operations of R55 as a pool port receives them: by their offset they reach the home, or the relay engine behind the
port (R30).
-/
namespace Sys2Proof.Machine

open Sys2Proof

/-- LOAD (R55). -/
def loadD (pp : PoolPort) (f : Frame) (e : HomeEnv) (d : Dev) : Dev := d.poolArrive pp { f with op := 0x01 } e
/-- STORE (R55). -/
def storeD (pp : PoolPort) (f : Frame) (e : HomeEnv) (d : Dev) : Dev := d.poolArrive pp { f with op := 0x02 } e
/-- STORE_POSTED (R55, R63). -/
def storePostedD (pp : PoolPort) (f : Frame) (e : HomeEnv) (d : Dev) : Dev := d.poolArrive pp { f with op := 0x03 } e
/-- STORE_MASKED (R59). -/
def storeMaskedD (pp : PoolPort) (f : Frame) (e : HomeEnv) (d : Dev) : Dev := d.poolArrive pp { f with op := 0x04 } e
/-- STORE_MASKED_POSTED (R59). -/
def storeMaskedPostedD (pp : PoolPort) (f : Frame) (e : HomeEnv) (d : Dev) : Dev := d.poolArrive pp { f with op := 0x05 } e
/-- FLUSH (R61). -/
def flushD (pp : PoolPort) (f : Frame) (e : HomeEnv) (d : Dev) : Dev := d.poolArrive pp { f with op := 0x06 } e
/-- ATOMIC_ADD (R58). -/
def atomicAddD (pp : PoolPort) (f : Frame) (e : HomeEnv) (d : Dev) : Dev := d.poolArrive pp { f with op := 0x10 } e
/-- ATOMIC_MIN (R58). -/
def atomicMinD (pp : PoolPort) (f : Frame) (e : HomeEnv) (d : Dev) : Dev := d.poolArrive pp { f with op := 0x11 } e
/-- ATOMIC_MAX (R58). -/
def atomicMaxD (pp : PoolPort) (f : Frame) (e : HomeEnv) (d : Dev) : Dev := d.poolArrive pp { f with op := 0x12 } e
/-- FETCH_ADD (R58). -/
def fetchAddD (pp : PoolPort) (f : Frame) (e : HomeEnv) (d : Dev) : Dev := d.poolArrive pp { f with op := 0x14 } e
/-- FETCH_MIN (R58). -/
def fetchMinD (pp : PoolPort) (f : Frame) (e : HomeEnv) (d : Dev) : Dev := d.poolArrive pp { f with op := 0x15 } e
/-- FETCH_MAX (R58). -/
def fetchMaxD (pp : PoolPort) (f : Frame) (e : HomeEnv) (d : Dev) : Dev := d.poolArrive pp { f with op := 0x16 } e
/-- CAS (R58). -/
def casD (pp : PoolPort) (f : Frame) (e : HomeEnv) (d : Dev) : Dev := d.poolArrive pp { f with op := 0x18 } e
/-- REDUCE_STORE (R58). -/
def reduceStoreD (pp : PoolPort) (f : Frame) (e : HomeEnv) (d : Dev) : Dev := d.poolArrive pp { f with op := 0x20 } e

/-- Meaning of LOAD. -/
def execLoad (pp : PoolPort) (f : Frame) (e : HomeEnv) (s : State) : Host.Outcome State Fault Refusal := .next (s.onDev (loadD pp f e))
/-- Meaning of STORE. -/
def execStore (pp : PoolPort) (f : Frame) (e : HomeEnv) (s : State) : Host.Outcome State Fault Refusal := .next (s.onDev (storeD pp f e))
/-- Meaning of STORE_POSTED. -/
def execStorePosted (pp : PoolPort) (f : Frame) (e : HomeEnv) (s : State) : Host.Outcome State Fault Refusal :=
  .next (s.onDev (storePostedD pp f e))
/-- Meaning of STORE_MASKED. -/
def execStoreMasked (pp : PoolPort) (f : Frame) (e : HomeEnv) (s : State) : Host.Outcome State Fault Refusal :=
  .next (s.onDev (storeMaskedD pp f e))
/-- Meaning of STORE_MASKED_POSTED. -/
def execStoreMaskedPosted (pp : PoolPort) (f : Frame) (e : HomeEnv) (s : State) : Host.Outcome State Fault Refusal :=
  .next (s.onDev (storeMaskedPostedD pp f e))
/-- Meaning of FLUSH. -/
def execFlush (pp : PoolPort) (f : Frame) (e : HomeEnv) (s : State) : Host.Outcome State Fault Refusal := .next (s.onDev (flushD pp f e))
/-- Meaning of ATOMIC_ADD. -/
def execAtomicAdd (pp : PoolPort) (f : Frame) (e : HomeEnv) (s : State) : Host.Outcome State Fault Refusal :=
  .next (s.onDev (atomicAddD pp f e))
/-- Meaning of ATOMIC_MIN. -/
def execAtomicMin (pp : PoolPort) (f : Frame) (e : HomeEnv) (s : State) : Host.Outcome State Fault Refusal :=
  .next (s.onDev (atomicMinD pp f e))
/-- Meaning of ATOMIC_MAX. -/
def execAtomicMax (pp : PoolPort) (f : Frame) (e : HomeEnv) (s : State) : Host.Outcome State Fault Refusal :=
  .next (s.onDev (atomicMaxD pp f e))
/-- Meaning of FETCH_ADD. -/
def execFetchAdd (pp : PoolPort) (f : Frame) (e : HomeEnv) (s : State) : Host.Outcome State Fault Refusal :=
  .next (s.onDev (fetchAddD pp f e))
/-- Meaning of FETCH_MIN. -/
def execFetchMin (pp : PoolPort) (f : Frame) (e : HomeEnv) (s : State) : Host.Outcome State Fault Refusal :=
  .next (s.onDev (fetchMinD pp f e))
/-- Meaning of FETCH_MAX. -/
def execFetchMax (pp : PoolPort) (f : Frame) (e : HomeEnv) (s : State) : Host.Outcome State Fault Refusal :=
  .next (s.onDev (fetchMaxD pp f e))
/-- Meaning of CAS. -/
def execCas (pp : PoolPort) (f : Frame) (e : HomeEnv) (s : State) : Host.Outcome State Fault Refusal := .next (s.onDev (casD pp f e))
/-- Meaning of REDUCE_STORE. -/
def execReduceStore (pp : PoolPort) (f : Frame) (e : HomeEnv) (s : State) : Host.Outcome State Fault Refusal :=
  .next (s.onDev (reduceStoreD pp f e))
end Sys2Proof.Machine
end

