-- ==== Sys2Proof/Machine/ConfigBlock.lean ====
section
/-!
DEFINITION. Configuration blocks (R413, R414): the values a block holds, its bytes, and commits, which run one at a time and merge
while one is in progress.
-/
namespace Sys2Proof.Machine

open Sys2Proof

/-- Transmit coefficients of a port's lanes that a commit writes (R281): those in use on the lanes of a port in service, else the ones stored. -/
def PortSt.coefficients (s : PortSt) : Tbl (List Nat) :=
  s.lanes.filterMap fun l => if s.lstate = 7 && l.1 < 8 && s.txLanes.getLsbD l.1 then some (l.1, l.2.taps) else l.2.stored.map fun t => (l.1, t)

/-- What a block holds of the current state (R413, R381: drills with STATE 0). -/
def cfgSnapshot (d : Dev) : CfgValues where
  ports := d.ports.map fun e =>
    (e.1, [e.2.role.toNat, e.2.markDepth, e.2.spillThresh, e.2.pwrPolicy, e.2.quietIdle, e.2.sleepIdle, e.2.checkInterval])
  rings := [d.rt.nx, d.rt.ny, d.rt.nz, d.rt.x0, d.rt.xw, d.rt.y0, d.rt.yw, d.rt.z0, d.rt.zw] ++ d.rt.detours.map (·.side)
  taps := (d.ports.map fun e => (e.1, e.2.coefficients)).filter fun e => !e.2.isEmpty
  lanesOut := (d.ports.map fun e => (e.1, (e.2.txMapped.toNat, e.2.rxMapped.toNat))).filter fun e => e.2 ≠ (0, 0)
  pagesOut := d.pool.mappedOut
  areas := [d.pool.tablePages, d.pool.logPages, d.pool.residPages]
  creds := d.sec.creds
  maker := d.sec.makerNext
  drills := d.test.drills.map fun e => (e.1, [e.2.kind, e.2.target.toNat, e.2.interval.toNat, e.2.jitter.toNat])
  fallback := d.power.fallback

/-- The coefficients of a block as the stored ones of the ports' lanes (R413 type 3, R298). -/
def CfgValues.tapsInto (v : CfgValues) (ports : Tbl PortSt) : Tbl PortSt :=
  v.taps.foldl (fun t e => tmod t e.1 {} fun s => e.2.foldl (fun s l => s.modLane l.1 fun n => { n with stored := some l.2 }) s) ports

/-- The numbers of a section (R413), in the order of its TYPE. -/
def cfgNumbers (v : CfgValues) (type : Nat) : List Nat :=
  match type with
  | 1 => v.ports.flatMap fun e => e.1 :: e.2
  | 2 => v.rings
  | 3 => v.taps.flatMap fun e => e.1 :: e.2.flatMap fun l => l.1 :: l.2
  | 4 => (v.lanesOut.flatMap fun e => [e.1, e.2.1, e.2.2]) ++ v.pagesOut
  | 5 => v.areas
  | 6 => v.creds.flatMap fun e => [e.1, e.2.role, e.2.state, e.2.pub.toNat]
  | 7 => v.maker :: v.creds.flatMap fun e => [e.1, e.2.next]
  | 8 => v.drills.flatMap fun e => e.1 :: e.2
  | _ => [v.fallback]

/-- A section's bytes with its directory entry, placed from byte `at'` on. -/
def cfgPlace (v : CfgValues) (acc : List Byte × List Byte × Nat) (type : Nat) : List Byte × List Byte × Nat :=
  let (dir, body, at') := acc
  let bs := Config.cfgSection type (cfgNumbers v type)
  let n := ceilDiv bs.length 64 * 64
  (dir ++ le 1 type ++ le 1 1 ++ zeros 2 ++ le 4 at' ++ le 4 bs.length ++ zeros 4, body ++ padTo n bs, at' + n)

/-- A block's bytes (R413): header, a directory of nine entries, the sections at multiples of 64. -/
def cfgBytes (role seq time : Nat) (v : CfgValues) : List Byte :=
  let (dir, body, len) := (List.range' 1 9).foldl (cfgPlace v) ([], [], 256)
  let rest := padTo 192 dir ++ body
  let head := le 4 0x47464E43 ++ le 2 1 ++ le 1 role ++ le 1 9 ++ le 4 seq ++ le 4 len ++ le 8 Config.serial.toNat ++ le 8 time ++ zeros 28
  head ++ le 4 (crc32c (head ++ rest)) ++ rest

/-- Bytes of a block's directory entry of a TYPE with a VERSION the module knows, if it has one (R413). -/
def cfgHas (bs : List Byte) (type : Nat) : Bool :=
  (upTo (num bs 7 1)).any fun i => num bs (64 + 16 * i) 1 = type && num bs (65 + 16 * i) 1 = 1

/-- Whether the bytes in a slot are a valid block (R415, R413): MAGIC, FORMAT, SERIAL, LENGTH and CRC. -/
def cfgValid (bs : List Byte) : Bool :=
  let len := num bs 12 4
  num bs 0 4 = 0x47464E43 && num bs 4 2 = 1 && num bs 16 8 = Config.serial.toNat && 64 ≤ len && len ≤ 65536 && len % 64 = 0 && len ≤ bs.length &&
  num bs 60 4 = crc32c (bs.take 60 ++ cut bs 64 (len - 64))

/-- Whether a block in flash is valid. -/
def CfgBlock.valid (b : CfgBlock) : Bool := cfgValid b.bytes

/-- A block whose write was cut off, or did not read back (R414, R415): its header, written last, reads as erased. -/
def CfgBlock.torn (b : CfgBlock) : CfgBlock := { b with bytes := List.replicate 64 0xFF#8 ++ b.bytes.drop 64 }

/-- The values a start reads from a block: a section that is missing, or of an unknown VERSION, holds none (R413). -/
def CfgBlock.read (b : CfgBlock) : CfgValues :=
  let v := b.values
  let has := cfgHas b.bytes
  let z : CfgValues := {}
  { ports := if has 1 then v.ports else z.ports, rings := if has 2 then v.rings else z.rings, taps := if has 3 then v.taps else z.taps,
    lanesOut := if has 4 then v.lanesOut else z.lanesOut, pagesOut := if has 4 then v.pagesOut else z.pagesOut,
    areas := if has 5 then v.areas else z.areas, creds := if has 6 then v.creds else z.creds, maker := if has 7 then v.maker else z.maker,
    drills := if has 8 then v.drills else z.drills, fallback := if has 9 then v.fallback else z.fallback }

/-- The block in force: the valid one with the highest SEQ (R415). -/
def cfgInForce (l : List CfgBlock) : Option CfgBlock :=
  (l.filter CfgBlock.valid).foldl (fun (best : Option CfgBlock) b =>
    match best with
    | some x => if x.seq < b.seq then some b else best
    | none => some b) none

/-- The slot a copy writes next (R414): after the one it wrote last. -/
def cfgNextSlot (l : List CfgBlock) (copy : Nat) : Nat :=
  match (l.filter fun b => b.copy = copy).getLast? with
  | some b => (b.slot + 1) % 256
  | none => 0

/-- The block a commit writes (R414). -/
def newBlock (d : Dev) (role : Nat) : CfgBlock :=
  let cur := cfgInForce d.flash.config
  let seq := (cur.map (·.seq)).getD 0 + 1
  let copy := match cur with | some b => 1 - b.copy | none => 0
  let v := cfgSnapshot d
  { copy := copy, slot := cfgNextSlot d.flash.config copy, seq := seq, role := role, time := d.now, values := v,
    bytes := cfgBytes role seq d.now v }

/-- A commit starts (R414). -/
def Dev.startCommit (d : Dev) (role : Nat) (waits : List Nat) : Dev :=
  { d with fw := { d.fw with commit := some (newBlock d role), commitTries := 0, commitWaits := waits } }

/-- A commit is requested (R414): it starts, or merges into the next while another is in progress or a handover runs. -/
def Dev.requestCommit (d : Dev) (role : Nat) (wait : List Nat) : Dev :=
  if d.fw.commit.isNone && !d.host.handover then d.startCommit role wait
  else
    { d with fw := { d.fw with commitNext := some (match d.fw.commitNext with | some r => max r role | none => role),
                               commitNextWaits := d.fw.commitNextWaits ++ wait } }

/-- The merged next commit starts, when there is one and nothing stands in its way. -/
def Dev.nextCommit (d : Dev) : Dev :=
  match d.fw.commitNext with
  | some r =>
    if d.fw.commit.isNone && !d.host.handover then
      let w := d.fw.commitNextWaits
      { d with fw := { d.fw with commitNext := none, commitNextWaits := [] } }.startCommit r w
    else d
  | none => d

end Sys2Proof.Machine
end

