-- ==== Sys2Proof/Machine/Reply.lean ====
section
/-!
DEFINITION. How a command is taken, judged and answered: rings (R301, R305), fabric commands (R308), envelopes (R307), replies
(R309, R312), the audit log (R337), counter floors (R336), the journal (R407).
-/
namespace Sys2Proof.Machine

open Sys2Proof

/-- DETAIL where no field is named (R309). -/
def noDetail : Nat := 0xFFFFFFFF

/-! ### Audit log (R337) -/

/-- Bytes 0–143 of an audit record. -/
def auditHead (r : AuditRec) : List Byte :=
  le 8 r.seq ++ le 8 r.time ++ le 1 r.kind ++ le 1 r.role ++ le 1 (b2n r.signed + 2 * b2n r.fabric) ++ le 1 r.status ++
  le 2 r.opcode ++ le 2 r.source ++ le 4 r.object.toNat ++ le 4 r.cred.toNat ++ le 8 r.counter.toNat ++ zeros 8 ++
  le 48 r.a.toNat ++ le 48 r.b.toNat

/-- An audit record's 192 bytes. -/
def auditBytes (r : AuditRec) : List Byte := auditHead r ++ le 48 r.chain.toNat

/-- A record joins the chain: it takes the next SEQ and the time. -/
def Dev.audit (d : Dev) (r0 : AuditRec) : Dev :=
  let r := { r0 with seq := d.sec.nextSeq, time := d.now }
  let r := { r with chain := Config.sha384 (le 48 d.sec.head.toNat ++ auditHead r) }
  { d with sec := { d.sec with nextSeq := r.seq + 1, head := r.chain, unwritten := d.sec.unwritten ++ [r],
                               unsealed := if r.kind = 1 then 0 else d.sec.unsealed + 1,
                               unsealedAt := if d.sec.unsealed = 0 then d.now else d.sec.unsealedAt,
                               lastSeal := if r.kind = 1 then r.seq else d.sec.lastSeal } }

/-- The record of a command (R308, R337). -/
def auditOf (w : WaitReply) : AuditRec :=
  { seq := 0, time := 0, kind := 0, role := w.role, fabric := match w.via with | .fabric _ _ => true | .ring _ => false,
    signed := w.isSigned, status := w.status, opcode := w.opcode,
    source := match w.via with | .fabric s _ => s.toNat | .ring r => r.val,
    object := w.object, cred := w.cred, counter := w.counter, a := w.params, b := 0, chain := 0 }

/-! ### Host addresses (R50–R52) -/

/-- Units of size `n` that a range touches. -/
def unitsOf (n a len : Nat) : List Nat := if len = 0 then [] else (upTo ((a + len + n - 1) / n - a / n)).map (a / n + ·)

/-- A translation put into the cache of 1,024 (R51). -/
def Dev.fillAtc (d : Dev) (e : AtcEntry) : Dev :=
  let rest := d.xlate.atc.filter fun x => x.page ≠ e.page
  { d with xlate := { d.xlate with atc := rest.drop (rest.length - 1023) ++ [e] } }

/-- Whether a translation grants a read, or a write. -/
def AtcEntry.grants (e : AtcEntry) (write : Bool) : Bool := if write then e.write else e.read

/-- The translation of a host page for the command processor (R50, R52): from the cache, or by a Translation Request, whose answer stands in
`ats`. None where the page has none, or not the permission. -/
def Dev.hostPage (d : Dev) (p : Nat) (write : Bool) (ats : List AtsAnswer) : Option AtcEntry × Dev :=
  match d.xlate.atc.find? fun e => e.page.toNat = p with
  | some e => (if e.grants write then some e else none, d)
  | none =>
    let id := d.xlate.nextAts
    let d := { d with xlate := { d.xlate with nextAts := id + 1 } }.emit (.atsRequest id (BitVec.ofNat 52 p))
    match ats.find? fun a => a.page.toNat = p with
    | none => (none, d)
    | some a =>
      match a.transl with
      | none => (none, d)
      | some t =>
        let e : AtcEntry := AtcEntry.mk a.page t a.read a.write
        (if e.grants write then some e else none, d.fillAtc e)

/-- The translations of the pages of a host range; an empty list while ATS Enable is clear, when accesses go out untranslated (R52). -/
def Dev.hostPages (d : Dev) (a n : Nat) (write : Bool) (ats : List AtsAnswer) : Option (List AtcEntry) × Dev :=
  if !d.xlate.atsEnable then (some [], d)
  else (unitsOf 4096 a n).foldl (fun (acc : Option (List AtcEntry) × Dev) p =>
    match acc with
    | (none, d) => (none, d)
    | (some l, d) =>
      match d.hostPage p write ats with
      | (some e, d) => (some (l ++ [e]), d)
      | (none, d) => (none, d)) (some [], d)

/-- The address of a host access under translations. -/
def hostAddrIn (l : List AtcEntry) (a : Nat) : BitVec 64 :=
  match l.find? fun e => e.page.toNat = a / 4096 with
  | some e => BitVec.ofNat 64 (e.transl.toNat * 4096 + a % 4096)
  | none => BitVec.ofNat 64 a

/-- Bytes written to host memory: none of the writes crosses a page or is longer than the programmed Max Payload Size (R299). -/
def Dev.hostPut (d : Dev) (l : List AtcEntry) (a : Nat) (bs : List Byte) : Dev :=
  let m := max 1 d.host.maxPayload
  eachOf (unitsOf 4096 a bs.length) d fun d p =>
    let lo := max a (p * 4096)
    let hi := min (a + bs.length) (p * 4096 + 4096)
    eachOf (upTo (ceilDiv (hi - lo) m)) d fun d i =>
      d.emit (.hostWrite (hostAddrIn l (lo + m * i)) (cut bs (lo + m * i - a) (min m (hi - lo - m * i))))

/-! ### Replies (R309) -/

/-- Entries of a ring. -/
def Ring.size (g : Ring) : Nat := 2 ^ g.sizeLog2

/-- A reply as its 64 bytes. -/
def replyBytes (w : WaitReply) (phase : Nat) : List Byte :=
  le 2 w.opcode ++ le 1 w.status ++ le 1 (phase + 2 * b2n w.started) ++ le 4 w.seq.toNat ++ le 4 w.object.toNat ++
  le 4 w.detail.toNat ++ padTo 48 w.result

/-- A ring stops with a RING_STATUS (R301), which signals vector 0 (R332). -/
def Dev.ringFails (d : Dev) (r status : Nat) : Dev := (d.modRing r fun g => { g with status := status, busy := false }).signal 0

/-- A reply counts toward coalescing (R332): the vector is signalled at COAL_COUNT. -/
def Dev.coalesce (d : Dev) (r : Nat) : Dev :=
  let g := d.ring r
  let n := g.unsignalled + 1
  if max 1 g.coalCount.toNat ≤ n then (d.modRing r fun g => { g with unsignalled := 0 }).signal g.vector.toNat
  else d.modRing r fun g => { g with unsignalled := n }

/-- A reply is written to its ring (R309), or sent as MGMT_REPLY (R116). -/
def Dev.writeReply (d : Dev) (w : WaitReply) : Dev :=
  match w.via with
  | .ring r =>
    if w.mute then d
    else if !w.writes then d.ringFails r 2
    else
      let g := d.ring r
      let n := g.rplTail.toNat
      let phase := (n / g.size + 1) % 2
      let a := (g.rplBase + BitVec.ofNat 64 (64 * (n % g.size))).toNat
      match d.hostPages a 64 true w.ats with
      | (none, d) => d.ringFails r 2
      | (some l, d) =>
        let d := (d.hostPut l a (replyBytes w phase)).modRing r fun g => { g with rplTail := g.rplTail + 1, lastSeq := w.seq, busy := false }
        if w.noIrq then d else d.coalesce r
  | .fabric src tag =>
    let d := { d with host := { d.host with fabric := d.host.fabric.filter fun x => !(x.src = src && x.tag = tag && x.taken) } }
    d.originate 176 (mgmtFrame d.node src.toNat opMGMT_REPLY tag.toNat (replyBytes w 0))

/-- A command ends: its audit record (R308), then its reply. -/
def Dev.sendReply (d : Dev) (w : WaitReply) : Dev :=
  let d := { d with host := { d.host with waiting := d.host.waiting.filter fun x => x.id ≠ w.id } }
  (if w.get then d else d.audit (auditOf w)).writeReply w

/-- The waiting reply with a number. -/
def Dev.waitOf (d : Dev) (id : Nat) : Option WaitReply := d.host.waiting.find? fun w => w.id = id

/-- A waiting reply changed. -/
def Dev.modWait (d : Dev) (id : Nat) (f : WaitReply → WaitReply) : Dev :=
  { d with host := { d.host with waiting := d.host.waiting.map fun w => if w.id = id then f w else w } }

/-- A reply is sent once nothing is awaited for it; during a handover it is held (R407). -/
def Dev.settleWait (d : Dev) (id : Nat) : Dev :=
  match d.waitOf id with
  | some w => if w.effect || w.floor || d.host.handover then d else d.sendReply w
  | none => d

/-- The effect a reply waited for has come about. -/
def Dev.finishWait (d : Dev) (id status det : Nat) (result : List Byte := []) : Dev :=
  (d.modWait id fun w =>
    { w with effect := false, status := status, detail := BitVec.ofNat 32 det, result := result }).settleWait id

/-- As `finishWait`, with the instance the command allocated in OBJECT (R309). -/
def Dev.finishInst (d : Dev) (id inst : Nat) : Dev :=
  (d.modWait id fun w => { w with object := obj (w.object.toNat / 2 ^ 24) inst }).finishWait id 0 0

/-- A floor has reached flash (R336). -/
def Dev.floorDone (d : Dev) (id : Nat) : Dev := (d.modWait id fun w => { w with floor := false }).settleWait id

/-! ### Taking a command (R305, R308, R310) -/

/-- The packet's 64 bytes (R306). -/
def cmdBytes (op : Nat) (c : Cmd) : List Byte :=
  le 2 op ++ le 2 (b2n c.ref.isSome + 2 * b2n c.env.isSome + 4 * b2n c.noIrq + 8 * c.rsvFlags.toNat) ++ le 4 c.seq.toNat ++
  le 4 c.object.toNat ++ le 4 c.rsv12.toNat ++ c.bytes

/-- Bytes 64–159 of an envelope (R307). -/
def envHead (e : Envelope) : List Byte :=
  le 1 e.role.toNat ++ le 3 e.rsv65.toNat ++ le 4 e.cred.toNat ++ le 8 e.counter.toNat ++ le 8 e.serial.toNat ++ le 72 e.rsv88.toNat

/-- A whole envelope, 256 bytes. -/
def envBytes (op : Nat) (c : Cmd) (e : Envelope) : List Byte :=
  cmdBytes op c ++ envHead e ++ le 48 e.sigR.toNat ++ le 48 e.sigS.toNat

/-- What a sender put on the wire for a command: the packet, or the envelope. -/
def wireBytes (op : Nat) (c : Cmd) : List Byte := match c.env with | some e => envBytes op c e | none => cmdBytes op c

/-- Maker's CRED (R333). -/
def makerCred : BitVec 32 := 0xFFFFFFFF#32

/-- R308 step 1: none when the envelope holds, else the byte of the field that fails. -/
def Dev.envelopeFault (d : Dev) (op : Nat) (c : Cmd) (e : Envelope) : Option Nat :=
  let dg := Config.sha384 (cmdBytes op c ++ envHead e)
  let cr := d.cred e.cred.toNat
  let maker := decide (e.cred = makerCred)
  let known := if maker then decide (e.role = 3) else decide (e.cred.toNat < 32) && cr.state = 1 && cr.role = e.role.toNat
  let pub := if maker then Config.makerPub else cr.pub
  let last := if maker then d.sec.makerLast else cr.last
  if !known then some (if e.role = 0 || 3 < e.role.toNat then 64 else 68)
  else if e.counter.toNat ≤ last then some 72
  else if e.serial ≠ Config.serial then some 80
  else if !Config.ecdsaVerify pub dg e.sigR e.sigS then some 160
  else none

/-- A COUNTER is accepted (R336): the credential's last, and the floor it needs where it passes the one in flash. -/
def Dev.acceptCounter (d : Dev) (e : Envelope) : Bool × Dev :=
  let c := e.counter.toNat
  if e.cred = makerCred then
    let up := decide (d.sec.makerFloor < c)
    (up, { d with sec := { d.sec with makerLast := c, makerNext := if up then max d.sec.makerNext (c + 65536) else d.sec.makerNext } })
  else
    let i := e.cred.toNat
    let up := decide ((d.cred i).floor < c)
    let cr := d.cred i
    let cr := { cr with last := c, next := if up then max cr.next (c + 65536) else cr.next }
    (up, { d with sec := { d.sec with creds := tset d.sec.creds i cr } })

/-- What the module finds at the head of a command's source. -/
inductive Taken where
  /-- the command is not the next one there, or cannot be taken now -/
  | no
  /-- the ring entry could not be read (R301) -/
  | broken (d : Dev)
  /-- taken: its reply's record, and a refusal found while taking it -/
  | yes (w : WaitReply) (bad : Option (Nat × Nat)) (d : Dev)

/-- Whether the command processor takes commands (R300, R314, R411). -/
def Dev.takesCommands (d : Dev) : Bool := (d.host.fwReady || d.host.recovery) && !d.host.handover

/-- The objects that a command changes (R310): the one it names, and for those that work on a whole slice its regions, groups and pipelines. The copy
engine is one object, so that of two COPYs the second waits while the first awaits its translations. -/
def Dev.changes (d : Dev) (op : Nat) (c : Cmd) : List (BitVec 32) :=
  let sl := c.inst.toNat
  let pipes := (tkeys d.tiles.pipes fun _ x => x.slice.toNat = sl).map (obj 0x12)
  let groups := (tkeys d.relay.groups fun _ g => g.slice.toNat = sl).map (obj 0x0B)
  let regions := (tkeys d.prot.regions fun _ e => e.slice.toNat = sl).map (obj 0x07)
  match op with
  | 0x0511 => c.object :: obj 0x1A 0 :: (pipes ++ groups ++ regions)
  | 0x0513 => c.object :: obj 0x1A 0 :: (pipes ++ groups)
  | _ => [c.object]

/-- Sources of commands: rings 0 to 63, and the fabric as ring 64 (R310). -/
def sourceOf (v : Via) : Nat := match v with | .ring r => r.val | .fabric _ _ => 64

/-- Whether a source has a command to start, as far as the module's own state tells (R310): a ring with a whole entry, which may be an envelope of four,
and room for the reply; an accepted fabric command. One whose command has started and waits for an object has none. -/
def Dev.ready (d : Dev) (src : Nat) : Bool :=
  !(d.host.begun.any fun b => b.1 = src) &&
    if src = 64 then d.host.fabric.any fun x => !x.taken
    else
      let g := d.ring src
      let there := (g.cmdTail - g.cmdHead).toNat
      g.enable && g.status = 0 && !g.busy && (4 ≤ there || (0 < there && g.cmdHead.toNat % 4 ≠ 0)) && (g.rplTail - g.rplHead).toNat ≠ g.size

/-- Whether it is a source's turn (R310): no ready source comes before it in ascending order, round robin, after the one served last. -/
def Dev.turn (d : Dev) (src : Nat) : Bool :=
  (d.host.begun.any fun b => b.1 = src) ||
    !(((upTo 65).map fun k => (d.host.lastSource + 1 + k) % 65).takeWhile (· ≠ src)).any d.ready

/-- A source's command has started (R310). -/
def Dev.starts (d : Dev) (src : Nat) : Dev :=
  { d with host := { d.host with lastSource := src, begun := d.host.begun.filter fun b => b.1 ≠ src } }

/-- A source's command has started and waits for an object (R310). -/
def Dev.begins (d : Dev) (src : Nat) (objects : List (BitVec 32)) : Dev :=
  if d.host.begun.any fun b => b.1 = src then d
  else { d with host := { d.host with lastSource := src, begun := d.host.begun ++ [(src, objects)] } }

/-- The record of a command being taken. -/
def waitOfCmd (d : Dev) (op : Nat) (get : Bool) (c : Cmd) : WaitReply :=
  { id := d.host.nextWait, via := c.via, opcode := op, seq := c.seq, noIrq := c.noIrq, object := c.object, get := get,
    writes := c.replyOk, effect := true, params := c.params, isSigned := c.env.isSome, ats := c.ats, cmd := some c, objects := if get then [] else d.changes op c }

/-- A ring is served during a trial (R409). -/
def Dev.serve (d : Dev) (r : Nat) : Dev :=
  if d.fw.fwState = 1 && !d.fw.served.contains r then { d with fw := { d.fw with served := d.fw.served ++ [r] } } else d

/-- `n` entries of a ring are taken: its command runs. -/
def Dev.entryTaken (d : Dev) (r n : Nat) : Dev :=
  ((d.serve r).starts r).modRing r fun g => { g with cmdHead := g.cmdHead + BitVec.ofNat 32 n, busy := true }

/-- A command taken from its ring, or from the accepted fabric commands. A SIGNED entry at an index that is no multiple of 4
takes one entry and is refused; an envelope is taken once all its entries are there (R307). -/
def Dev.takeCmd (d : Dev) (op : Nat) (get : Bool) (c : Cmd) : Taken :=
  if !d.takesCommands || !d.turn (sourceOf c.via) then .no
  else
    let w := waitOfCmd d op get c
    let d' := { d with host := { d.host with nextWait := d.host.nextWait + 1 } }
    match c.via with
    | .ring r =>
      let g := d.ring r
      let there := (g.cmdTail - g.cmdHead).toNat
      let split := c.env.isSome && g.cmdHead.toNat % 4 ≠ 0
      let n := if c.env.isSome && !split then 4 else 1
      if !g.enable || g.status ≠ 0 || g.busy || there < n || (g.rplTail - g.rplHead).toNat = g.size then .no
      else
        match d'.hostPages (g.cmdBase + BitVec.ofNat 64 (64 * (g.cmdHead.toNat % g.size))).toNat (64 * n) false c.ats with
        | (none, _) => .broken (d.ringFails r 1)
        | (some _, d') =>
          if !c.fetchOk then .broken (d.ringFails r 1)
          else
            .yes w (if split then some (0x09, 2) else none)
              (d'.entryTaken r n)
    | .fabric src tag =>
      match d.host.fabric.find? fun x => x.src = src && x.tag = tag with
      | none => .no
      | some x =>
        if x.taken || x.packet ≠ wireBytes op c then .no
        else
          let d' := d'.starts 64
          .yes w none { d' with host := { d'.host with fabric := d'.host.fabric.map fun y =>
            if y.src = src && y.tag = tag then { y with taken := true } else y } }

/-! ### Judging a command (R308, R11) -/

/-- What a command's own rule answers. -/
inductive Answer where
  | refuse (code det : Nat)
  /-- refused, with what the refusal itself changes (R345) -/
  | denied (code det : Nat)
  /-- executed, with the result word and RESULT -/
  | ok (det : Nat) (result : List Byte)
  /-- executed; the bytes go to the reference -/
  | toRef (det : Nat) (bytes : List Byte)
  /-- accepted, and runs on (R312) -/
  | started
  /-- the reply waits for the effect -/
  | wait

/-- A command's form: opcode, roles (0 stands for an unsigned fabric sender), object class, the parameter bytes it uses, the highest and
lowest instance, whether it takes a reference (0 no, 1 yes, 2 either) and whether that is a buffer for its result; an opcode that no
family assigns is not `known`. -/
structure Form where
  op   : Nat
  roles : List Nat
  cls  : Option Nat := none
  used : List (Nat × Nat) := []
  lo   : Nat := 0
  hi   : Nat := 0
  ref  : Nat := 0
  out  : Bool := false
  get  : Bool := false
  known : Bool := true

/-- The first parameter byte outside the ones in use that is not zero (R7). -/
def strayParam (fm : Form) (c : Cmd) : Option Nat :=
  (List.range' 16 (if c.ref.isSome then 36 else 48)).find? fun b =>
    c.u b 1 ≠ 0 && !(fm.used.any fun e => e.1 ≤ b && b < e.2)

/-- REF_LEN (R306). -/
def refLen (c : Cmd) : Nat := c.u 52 4

/-- The referenced bytes as the module reads them. -/
def refBytes (c : Cmd) : List Byte := padTo (refLen c) ((c.ref.map (·.bytes)).getD [])

/-- The checks common to all commands, from UNSUPPORTED on (R7, R8, R306, R316): none, or status and DETAIL. -/
def formFault (fm : Form) (c : Cmd) : Option (Nat × Nat) :=
  let envRsv := match c.env with | some e => if e.rsv65 ≠ 0 then some 65 else if e.rsv88 ≠ 0 then some 88 else none | none => none
  if !fm.known then some (0x09, 0)
  else if c.rsvFlags ≠ 0 then some (0x09, 2)
  else if c.rsv12 ≠ 0 then some (0x09, 12)
  else match envRsv with
  | some b => some (0x09, b)
  | none =>
    match strayParam fm c with
    | some b => some (0x09, b)
    | none =>
      if fm.cls.isSome && (c.inst.toNat < fm.lo || fm.hi < c.inst.toNat) then some (0x03, 8)
      else match c.ref with
      | some r =>
        if fm.ref ≠ 0 && !r.translates then some (0x02, 56)
        else if fm.ref = 0 || refLen c = 0 || 2 ^ 24 < refLen c then some (0x49, 52)
        else none
      | none => if fm.ref = 1 then some (0x49, 52) else none

/-- The record of a command whose envelope fails keeps what the envelope claims (R337; DEDUCED, log 149). -/
def WaitReply.claims (w : WaitReply) (c : Cmd) : WaitReply :=
  match c.env with
  | some e => { w with role := e.role.toNat, cred := e.cred, counter := e.counter }
  | none => w

/-- Whether a command's reference can be reached; its bytes are judged only then (R306). -/
def reached (c : Cmd) : Bool := (c.ref.map (·.translates)).getD true

/-- The role of a command and the refusal of R308 step 1; an accepted COUNTER may need its floor written first. -/
def Dev.roleOf (d : Dev) (op : Nat) (c : Cmd) (w : WaitReply) : Except Nat (WaitReply × Dev) :=
  match c.env with
  | none => .ok ({ w with role := match c.via with | .ring _ => 1 | .fabric _ _ => 0 }, d)
  | some e =>
    match d.envelopeFault op c e with
    | some b => .error b
    | none =>
      let (up, d) := d.acceptCounter e
      .ok ({ w with role := e.role.toNat, cred := e.cred, counter := e.counter, floor := up }, d)

/-- What an answer does to the entry of its command; `l` are the translations of the command's reference. -/
def Dev.giveAnswer (d : Dev) (id : Nat) (c : Cmd) (a : Answer) (l : List AtcEntry := []) : Dev :=
  match a with
  | .refuse code det => d.finishWait id code det
  | .denied code det => d.finishWait id code det
  | .ok det r => d.finishWait id 0 det r
  | .toRef det bs => (d.hostPut l (c.u 56 8) bs).finishWait id 0 det
  | .started => (d.modWait id fun w => { w with started := true }).finishWait id 0 0
  | .wait => d.settleWait id

/-- The answer turned into a reply or a wait. -/
def Dev.answerCmd (d : Dev) (w : WaitReply) (c : Cmd) (a : Answer) (l : List AtcEntry := []) : Dev :=
  let d := { d with host := { d.host with waiting := d.host.waiting ++ [w] } }
  (if w.floor then d.requestCommit 0 [w.id] else d).giveAnswer w.id c a l

/-- Whether a command that started before and has not taken effect changes an object that a command will change (R310). -/
def Dev.objectHeld (d : Dev) (op : Nat) (c : Cmd) : Bool :=
  let mine := d.changes op c
  let earlier := d.host.begun.takeWhile fun b => b.1 ≠ sourceOf c.via
  (d.host.waiting.any fun w => w.effect && w.objects.any mine.contains) || earlier.any fun b => b.2.any mine.contains

/-- Place of a status code in the order of R11, a denied role first (R308 step 2); the other codes of R315 come last (R308 step 3). -/
def codeRank (code : Nat) : Nat :=
  ([0x44, 0x0C, 0x06, 0x07, 0x09, 0x0B, 0x03, 0x01, 0x0A, 0x02, 0x08, 0x04, 0x0D].takeWhile (· ≠ code)).length

/-- The refusal that applies of the form's and the command's own (R11, R308 step 3). -/
def firstRefusal (form : Option (Nat × Nat)) (a : Answer) : Answer :=
  match form, a with
  | some (fc, fd), .refuse bc bd => if codeRank bc < codeRank fc then .refuse bc bd else .refuse fc fd
  | some (fc, fd), .denied bc bd => if codeRank bc < codeRank fc then .denied bc bd else .refuse fc fd
  | some (fc, fd), _ => .refuse fc fd
  | none, a => a

/-- Whether an opcode's family works on dies that have no power yet (R385). -/
def Dev.needsDie (d : Dev) (op : Nat) : Bool :=
  let fam := op / 256
  d.power.releaseStep < 3 && (op % 256 ≠ 0 && ((2 ≤ fam && fam ≤ 8) || op = 0x0B20))

/-- The translations of a command's reference (R52, R306): to be written where it is a buffer for the result. -/
def Dev.refPages (d : Dev) (fm : Form) (c : Cmd) : Option (List AtcEntry) × Dev :=
  if c.ref.isNone || fm.ref = 0 || refLen c = 0 || 2 ^ 24 < refLen c then (some [], d) else d.hostPages (c.u 56 8) (refLen c) fm.out c.ats

/-- A command whose reference cannot be reached: its bytes are not read. -/
def unreached (c : Cmd) : Cmd := { c with ref := c.ref.map fun _ => { translates := false } }

/-- A command judged once its role is known (R308 steps 2 and 3): the recovery image answers few commands (R411). A refusal changes
nothing. -/
def Dev.judgeCmd (d : Dev) (fm : Form) (c : Cmd) (w : WaitReply) (body : Cmd → Nat → Nat → Dev → Answer × Dev) : Dev :=
  if !fm.roles.contains w.role then d.answerCmd w c (.refuse 0x44 noDetail)
  else if d.host.recovery && !([0x0100, 0x0A10, 0x0A11].contains fm.op && (fm.op ≠ 0x0100 || c.cls = 0x01)) then
    d.answerCmd w c (.refuse 0x09 0)
  else if fm.known && d.needsDie fm.op then d.answerCmd w c (.refuse 0x07 noDetail)
  else if fm.cls.isSome && fm.cls ≠ some c.cls.toNat then d.answerCmd w c (.refuse 0x09 8)
  else
    let (l, d) := d.refPages fm c
    let c := if l.isSome && reached c then c else unreached c
    let (a, d') := body c w.id w.role d
    match firstRefusal (formFault fm c) a with
    | .refuse code det => d.answerCmd w c (.refuse code det)
    | a => d'.answerCmd w c a (l.getD [])

/-- A command of a form, with the rule of its own that `body` is: given the number of its reply and its role, its answer and effect. `boot`
is the authority a command has beyond its sender's (R335). -/
def Dev.runCmd (d : Dev) (fm : Form) (c : Cmd) (body : Cmd → Nat → Nat → Dev → Answer × Dev) (boot : Option Nat := none) : Dev :=
  match d.takeCmd fm.op fm.get c with
  | .no => d
  | .broken d => d
  | .yes w (some (code, det)) d => d.answerCmd w c (.refuse code det)
  | .yes w none d' =>
    if !fm.get && fm.known && d.objectHeld fm.op c then d.begins (sourceOf c.via) (d.changes fm.op c) else
    let d := d'
    match d.roleOf fm.op c w with
    | .error b => d.answerCmd (w.claims c) c (.refuse 0x45 b)
    | .ok (w, d) =>
      let w := match boot with | some r => if w.isSigned then w else { w with role := r } | none => w
      d.judgeCmd fm c w body

end Sys2Proof.Machine
end

