-- ==== Sys2Proof/Machine/Xlate.lean ====
section
/-!
DEFINITION. Translation (R44–R49): tables in the pool, the engine buffers and the shared second level, table walks.
-/
namespace Sys2Proof.Machine

open Sys2Proof

/-- Engine buffers (R46): 0–15 relay engines, 16–23 tile stream units, 24 the copy engine. -/
def streamUnit (die : Nat) : Nat := 16 + die
/-- As above. -/
def copyEngine : Nat := 24

/-- Whether a range lies in the table area above the replay floor tables (R44, R253). -/
def PoolSt.inTables (p : PoolSt) (off n : Nat) : Bool := p.tableBase + 2 ^ 25 ≤ off && off + n ≤ spillBase

/-- The two words of an entry (R45); POISONED where its page is mapped out or its line is known bad (R257, R261). -/
def PoolSt.xWords (p : PoolSt) (off : Nat) : Except Nat (Nat × Nat) :=
  if p.isMappedOut (pageOf off) || (p.lineMeta (off / 64)).poison then .error 0x04
  else .ok (unle (memReads p.mem off 8), unle (memReads p.mem (off + 8) 8))

/-- A pointer entry: the next table, aligned to its size (R44, R45, R47). -/
def xPointer (p : PoolSt) (e : Nat × Nat) (size : Nat) : Except Nat Nat :=
  let next := field e.2 0 48
  if !e.2.testBit 63 then .error 0x03
  else if !e.2.testBit 58 || e.2.testBit 62 || e.1 ≠ 0 || field e.2 48 10 ≠ 0 || next % size ≠ 0 || !p.inTables next size then .error 0x09
  else .ok next

/-- The key of a leaf: that of the covering region for KEY 0 on the own node under a confidential slice (R326). -/
def Dev.leafKey (d : Dev) (slice node frame key : Nat) : BitVec 64 :=
  if key = 0 && node = d.node && d.isConf slice then
    match d.slotOf slice, d.regionOf (frame * 2 ^ 29) with
    | some k, some (r, _) => objectKey d k 0x07 r
    | _, _ => 0
  else BitVec.ofNat 64 key

/-- A leaf (R45, R47). -/
def Dev.xLeaf (d : Dev) (slice page : Nat) (big : Bool) (e : Nat × Nat) : Except Nat XEntry :=
  let node := field e.2 32 16
  let frame := field e.2 0 19
  if !e.2.testBit 63 then .error 0x03
  else if e.2.testBit 58 || (e.2.testBit 62) != big || field e.2 48 10 ≠ 0 || field e.2 19 13 ≠ 0 || node = 0xFFFF ||
      (big && frame % 32 ≠ 0) then .error 0x09
  else .ok { slice := BitVec.ofNat 10 slice, svaPage := if big then page / 32 * 32 else page, big := big, node := BitVec.ofNat 16 node,
             frame := BitVec.ofNat 19 frame, key := d.leafKey slice node frame e.1, rights := BitVec.ofNat 3 (field e.2 59 3) }

/-- A table walk (R44, R47): `page` is the address in units of 512 MiB. -/
def Dev.walk (d : Dev) (slice page : Nat) : Except Nat XEntry :=
  let p := d.pool
  let l1 := (d.slice slice).l1Table.toNat
  if l1 = 0 then .error 0x03
  else
    do
      let e1 ← p.xWords (l1 + 16 * (page / 2 ^ 16))
      let l2 ← xPointer p e1 32768
      let e2 ← p.xWords (l2 + 16 * (page / 32 % 2048))
      if e2.2.testBit 63 && !e2.2.testBit 58 then d.xLeaf slice page true e2
      else
        let l3 ← xPointer p e2 512
        let e3 ← p.xWords (l3 + 16 * (page % 32))
        d.xLeaf slice page false e3

/-- Offsets of the entries that a walk reads, in order (R44). -/
def Dev.walkReads (d : Dev) (slice page : Nat) : List Nat :=
  let p := d.pool
  let l1 := (d.slice slice).l1Table.toNat
  let o1 := l1 + 16 * (page / 2 ^ 16)
  let o2 (l2 : Nat) : Nat := l2 + 16 * (page / 32 % 2048)
  if l1 = 0 then []
  else
    match p.xWords o1 >>= fun e => xPointer p e 32768 with
    | .error _ => [o1]
    | .ok l2 =>
      match p.xWords (o2 l2) >>= fun e => if e.2.testBit 58 then xPointer p e 512 else .error 0 with
      | .error _ => [o1, o2 l2]
      | .ok l3 => [o1, o2 l2, l3 + 16 * (page % 32)]

/-- The pool fault of a walk that meets a mapped-out page of the table area (R261). -/
def Dev.walkFault (d : Dev) (slice page : Nat) : Dev :=
  match (d.walkReads slice page).find? fun o => d.pool.isMappedOut (pageOf o) with
  | some o => d.areaFault o
  | none => d

/-- Whether a buffer entry covers a page of a slice (R46). -/
def XEntry.covers (x : XEntry) (slice page : Nat) : Bool :=
  x.slice.toNat = slice && (if x.big then page / 32 * 32 = x.svaPage else page = x.svaPage)

/-- An entry put into an engine's buffer of 64; the oldest goes when it is full. -/
def Dev.fillEngine (d : Dev) (e : Nat) (x : XEntry) : Dev :=
  let mine := d.xlate.engine.filter fun y => y.1 = e && y.2 ≠ x
  let rest := d.xlate.engine.filter fun y => y.1 ≠ e
  { d with xlate := { d.xlate with engine := rest ++ mine.drop (mine.length - 63) ++ [(e, x)] } }

/-- An entry put into the shared second level of 4,096. -/
def Dev.fillShared (d : Dev) (x : XEntry) : Dev :=
  let l := d.xlate.shared.filter fun y => y ≠ x
  { d with xlate := { d.xlate with shared := l.drop (l.length - 4095) ++ [x] } }

/-- A lookup in an engine's buffer, then in the shared level (R46). -/
def Dev.lookup (d : Dev) (e slice page : Nat) : Option XEntry × Dev :=
  match d.xlate.engine.find? fun y => y.1 = e && y.2.covers slice page with
  | some y => (some y.2, d)
  | none =>
    match d.xlate.shared.find? fun y => y.covers slice page with
    | some x => (some x, d.fillEngine e x)
    | none => (none, d)

/-- A table walk starts for an engine, unless one for the page is under way. -/
def Dev.startWalk (d : Dev) (e slice page : Nat) : Dev :=
  if d.xlate.walks.any fun w => w.engine = e && w.slice.toNat = slice && w.svaPage = page then d
  else
    { d with xlate := { d.xlate with walks := d.xlate.walks ++ [⟨d.xlate.nextWalk, e, BitVec.ofNat 10 slice, page⟩],
                                     nextWalk := d.xlate.nextWalk + 1 } }

/-- Node, offset and key of a page under an entry. -/
def XEntry.target (x : XEntry) (page : Nat) : BitVec 16 × BitVec 48 × BitVec 64 :=
  (x.node, BitVec.ofNat 48 ((x.frame.toNat + (page - x.svaPage)) * 2 ^ 29), x.key)

/-- Whether a leaf grants what is needed, as [2] A, [1] W, [0] R (R35). -/
def XEntry.grants (x : XEntry) (need : Nat) : Bool := need &&& x.rights.toNat = need

/-- The buffers without the entries of a slice for `n` pages from `page` on; `n` 0 is the whole slice (R49). -/
def Dev.invalidate (d : Dev) (slice page n : Nat) : Dev :=
  let hit (x : XEntry) : Bool :=
    x.slice.toNat = slice && (n = 0 || (x.svaPage < page + n && page < x.svaPage + (if x.big then 32 else 1)))
  { d with xlate := { d.xlate with engine := d.xlate.engine.filter fun y => !hit y.2, shared := d.xlate.shared.filter fun y => !hit y } }

end Sys2Proof.Machine
end

