-- ==== Sys2Proof/Machine/Tile.lean ====
section
/-!
DEFINITION. Positions and pipelines, the parts every tile command shares: stops (R213, R243, R244), spares (R190), batch records
(R239), the release of a pipeline's contexts, unloading (R234).
-/
namespace Sys2Proof.Machine

open Sys2Proof

/-- A pass-through position (R189). -/
def isPassThrough (pos : Nat) : Bool := pos % 20 % 5 = 4 && pos / 20 % 5 = 4

/-- Causes of R213. -/
def fcSlot : Nat := 1
def fcBank : Nat := 2
def fcRange : Nat := 3
def fcEcc : Nat := 4
def fcIllegal : Nat := 5
def fcHardware : Nat := 6
def fcPeer : Nat := 7
def fcCommand : Nat := 8

/-- Causes of R243. -/
def pcPosition : Nat := 1
def pcVictim : Nat := 2
def pcCommand : Nat := 3
def pcOverrun : Nat := 4
def pcFetch : Nat := 5
def pcWrite : Nat := 6
def pcStall : Nat := 7
def pcDisabled : Nat := 8
def pcTornDown : Nat := 9

/-- Whether a pipeline moves: STATE 2 or 3. -/
def PipeSt.active (p : PipeSt) : Bool := p.state = 2 || p.state = 3

/-- Whether a pipeline is loaded (R234). -/
def PipeSt.loaded (p : PipeSt) : Bool := p.state ≠ 0

/-! ### Batch records (R239) -/

/-- Switch port of a channel's ENTRY record (R224). -/
def Dev.channelPort (d : Dev) (p ch : Nat) : Nat := match d.entryQueue p ch with | some q => swPort q | none => 160

/-- The stream on which a channel's batch records go, opened at its first use: class O at the tile die's endpoint. -/
def Dev.recordStream (d : Dev) (p ch : Nat) : Option (Nat × Dev) :=
  match (d.pipe p).recStreams.find? fun e => e.1 = ch with
  | some e => some (e.2, d)
  | none =>
    let port := d.channelPort p ch
    match d.openStream (4 + (port - 160) / 2) .o (d.pipe p).slice.toNat 20 2 ((port - 160) % 2) with
    | none => none
    | some (n, d) => some (n, d.modPipe p fun x => { x with recStreams := x.recStreams ++ [(ch, n)] })

/-- TAKEN of a batch (R238): data bytes the stage has read. -/
def Batch.taken (b : Batch) : Nat := 32 * min b.words (b.read - 1)

/-- The 64 bytes of a batch record. -/
def batchBytes (b : Batch) (state status cause time : Nat) : List Byte :=
  le 2 b.seq.toNat ++ le 1 state ++ le 1 status ++ le 4 b.taken ++ le 1 cause ++ zeros 7 ++ le 8 time ++ zeros 40

/-- The batch of a channel. -/
def PipeSt.batchOn (p : PipeSt) (ch : Nat) : Option Batch := p.batches.find? fun b => b.channel = ch

/-- The batch of a channel changed. -/
def Dev.modBatch (d : Dev) (p ch : Nat) (f : Batch → Batch) : Dev :=
  d.modPipe p fun x => { x with batches := x.batches.map fun b => if b.channel = ch then f b else b }

/-- A channel's batch record is written (R239). -/
def Dev.writeBatch (d : Dev) (p ch state status : Nat) : Dev :=
  match (d.pipe p).batchOn ch, d.recordStream p ch with
  | some b, some (st, d) =>
    let d := d.modBatch p ch fun b => { b with recorded := b.taken }
    d.issue st { dst := b.src, offset := b.record, op := BitVec.ofNat 8 opSTORE, length := 64, key := b.key, ord := .release,
                 scope := .fabric, payload := batchBytes b state status (d.pipe p).cause d.now } (.batchRecord p ch)
  | _, _ => d

/-! ### Stops -/

/-- FAULT_INDEX as records show it (R216). -/
def Dev.shownIndex (d : Dev) (pos : Nat) : Nat := if d.isConf (d.pos pos).slice.toNat then 0 else (d.pos pos).faultIdx

/-- A TILE record (R355). -/
def tileRec (d : Dev) (pos cause action : Nat) : FaultRec :=
  { mkRec 6 cause action (obj 0x10 pos) [(32, 1, pos), (33, 1, (d.pos pos).pipe), (36, 4, d.shownIndex pos)] with
    slice := (d.pos pos).slice }

/-- A PIPELINE record (R355). -/
def pipeRec (d : Dev) (p cause pos : Nat) : FaultRec :=
  let own := decide ((d.pos pos).pipe = p) && pos < 200
  { mkRec 7 cause 7 (obj 0x12 p) [(32, 1, pos), (33, 1, p), (36, 4, if own then d.shownIndex pos else 0)] with
    slice := (d.pipe p).slice }

/-- A position stops (R213): it keeps its stores, and records cause, instruction, slot and bank. -/
def Dev.haltPos (d : Dev) (pos cause slot bank : Nat) : Dev :=
  let d := d.modPos pos fun x =>
    { x with state := 4, cause := cause, faultIdx := x.index, faultSlot := slot, faultBank := bank, bankUses := [] }
  d.fault (tileRec d pos cause (if cause = fcHardware then 6 else 7))

/-- A pipeline stops (R243): CAUSE and STATUS, the detecting position or router and its cause. The rest follows at the next mesh
cycle boundary (R244). A loaded pipeline that does not run stops only for a position whose compute went offline (R245). -/
def Dev.stopPipe (d : Dev) (p cause status pos fcause : Nat) : Dev :=
  if ((d.pipe p).active || ((d.pipe p).state = 1 && cause = pcPosition)) && !(d.pipe p).stopping then
    let d := d.modPipe p fun x =>
      { x with stopping := true, cause := cause, status := status, faultPos := pos, faultCause := fcause }
    (d.endPerturbs [11] (obj 0x12 p) 5).fault (pipeRec d p cause pos)
  else d

/-- A position detects a cause 0x01–0x06 while it runs (R213, R243). -/
def Dev.posFault (d : Dev) (pos cause slot bank : Nat) : Dev :=
  let p := (d.pos pos).pipe
  (d.haltPos pos cause slot bank).stopPipe p pcPosition 0x0D pos cause

/-- A word that failed R210 at a router: its pipeline stops, and the owner of the slot with it; the position stops where it belongs
to one of them (R243, R244). -/
def Dev.slotCollision (d : Dev) (pos slot pipe : Nat) (owner : Option Nat) : Dev :=
  let x := d.pos pos
  let mine := (x.pipe = pipe || some x.pipe = owner) && (x.state = 2 || x.state = 3)
  let d := if mine then d.haltPos pos fcSlot slot 0 else d
  let d := d.stopPipe pipe pcPosition 0x0D pos fcSlot
  match owner with
  | some o => if o = pipe then d else d.stopPipe o pcVictim 0x0D pos fcSlot
  | none => d

/-! ### Spares (R190) -/

/-- A position zeroed: stores, registers and tables of the stage; who serves it, and whether it is offline, stay. -/
def Dev.zeroPos (d : Dev) (pos : Nat) : Dev :=
  d.modPos pos fun x =>
    { ({} : PosSt) with servedBy := x.servedBy, state := if x.state = 5 then 5 else 0, routes := x.routes, words := x.words,
                        corrected := x.corrected, cause := x.cause, faultIdx := x.faultIdx, faultSlot := x.faultSlot,
                        faultBank := x.faultBank }

/-- A tile die's record set. -/
def Dev.setTileDie (d : Dev) (t : Nat) (x : TileDieSt) : Dev := { d with tiles := { d.tiles with dies := tset d.tiles.dies t x } }

/-- A position's compute goes offline for HARDWARE: the die's spare takes over where it is unused, with nothing loaded. A spare that fails while it
serves serves nothing from then on (R215). -/
def Dev.substitute (d : Dev) (pos : Nat) : Dev :=
  let t := tileDieOf pos
  let x := d.tileDie t
  if x.spare = 0 then
    ((d.setTileDie t { x with spare := 1, sparePos := pos, substituted := x.substituted + 1 }).zeroPos pos).modPos pos fun x =>
      { x with servedBy := 1 }
  else
    (d.setTileDie t (if x.spare = 1 && x.sparePos = pos then { x with spare := 2, sparePos := 255 } else x)).modPos pos fun x =>
      { x with state := 5, servedBy := 2 }

/-- The compute of a position goes offline for HARDWARE (R213, R190): it stops, and so does its pipeline, running or not (R245). -/
def Dev.loseCompute (d : Dev) (pos slot : Nat) : Dev :=
  let x := d.pos pos
  let d := d.haltPos pos fcHardware slot 0
  let d := if x.state = 1 || x.state = 2 || x.state = 3 then d.stopPipe x.pipe pcPosition 0x0D pos fcHardware else d
  d.substitute pos

/-- HARDWARE at a pass-through position: the compute there is the die's spare, and it goes offline; the position that it serves loses its compute
(DEDUCED, log 189). -/
def Dev.loseSpare (d : Dev) (pos slot : Nat) : Dev :=
  let t := tileDieOf pos
  let x := d.tileDie t
  let d := (d.modPos pos fun y => { y with cause := fcHardware, faultSlot := slot }).fault (tileRec d pos fcHardware 6)
  if x.spare = 1 then d.loseCompute x.sparePos slot else d.setTileDie t { x with spare := 2 }

/-! ### The rest of a stop (R244) -/

/-- Streams of a pipeline: those of its stream ports and of its batch records. -/
def PipeSt.streams (p : PipeSt) : List Nat := p.queues.map (·.stream)

/-- Words of a pipeline in every router's buffers dropped. -/
def Dev.dropWords (d : Dev) (p : Nat) : Dev :=
  let ps := tmap d.tiles.positions fun _ x => { x with words := x.words.filter fun w => w.pipe ≠ p }
  { d with tiles := { d.tiles with positions := ps } }

/-- The mesh cycle boundary after a stop (R244): the other positions stop, words and queues are discarded, running batches are
recorded stopped. A position that stops for PEER or COMMAND records slot 0, that of the boundary: the spec gives no slot for it (DESIGN CHOICE,
log 209). -/
def Dev.haltPipe (d : Dev) (p : Nat) : Dev :=
  let x := d.pipe p
  let peer := if x.cause = pcCommand then fcCommand else fcPeer
  let d := eachOf x.positions d fun d pos =>
    let st := (d.pos pos).state
    if (d.pos pos).pipe = p && (st = 1 || st = 2 || st = 3) then d.haltPos pos peer 0 0 else d
  let d := d.dropWords p
  let unsent (o : OutOp) : Bool := x.streams.contains (tagStream o.tag) && o.phase = .waiting
  let d := d.dropOps unsent
  let running := (x.batches.filter (·.running)).map (·.channel)
  let d := d.modPipe p fun x =>
    { x with halted := true, gateHeld := true, gateNext := true,
             queues := x.queues.map fun q => { q with words := [], fetches := [], write := none, due := 0, orders := [] },
             batches := x.batches.map fun b => if b.running then { b with running := false, stopped := true } else b }
  if x.cause = pcTornDown then d else eachOf running d fun d ch => d.writeBatch p ch 3 0x0D

/-- Reservations and contexts of a pipeline released (R234, R244); its translations were those of one start (R233). -/
def Dev.releasePipe (d : Dev) (p : Nat) : Dev :=
  let x := d.pipe p
  let d := d.releaseOwner 3 p
  let d := eachOf (x.streams ++ x.recStreams.map (·.2)) d Dev.closeStream
  d.modPipe p fun x => { x with recStreams := [], queues := x.queues.map fun q => { q with stream := noStream }, windows := x.windows.map fun w => { w with pages := [] } }

/-- Whether an operation of a pipeline has not ended. -/
def Dev.pipeBusy (d : Dev) (p : Nat) : Bool :=
  let ss := (d.pipe p).streams ++ (d.pipe p).recStreams.map (·.2)
  d.req.ops.any fun o => ss.contains (tagStream o.tag)

/-! ### Unloading (R234, R217) -/

/-- A pipeline unloaded: positions zeroed, route entries removed, the number freed. -/
def Dev.unloadPipe (d : Dev) (p : Nat) : Dev :=
  let x := d.pipe p
  let d := d.endPerturbs [11] (obj 0x12 p) 5
  let d := eachOf x.positions d fun d pos => if (d.pos pos).pipe = p then d.zeroPos pos else d
  let d := d.dropWords p
  let ps := tmap d.tiles.positions fun _ y => { y with routes := y.routes.filter fun r => r.pipe ≠ p }
  let d := { d with tiles := { d.tiles with positions := ps } }
  { d with tiles := { d.tiles with pipes := tdel d.tiles.pipes p } }

end Sys2Proof.Machine
end

