-- ==== Sys2Proof/Machine/TileOps.lean ====
section
/-!
DEFINITION. The instructions of a tile (R191–R205, R207, R210, R242): operands in registers and accumulators, arithmetic, SRAM, mesh
and stream words, the sequencer. A position acts only in STATE 2 (R211, R214).
-/
namespace Sys2Proof.Machine

open Sys2Proof

/-! ### The sequencer's place (R191, R205) -/

/-- The innermost loops that end at the index reached: run again, or left. -/
def loopStep (index : Nat) (loops : List (Nat × Nat × Nat)) : Nat × List (Nat × Nat × Nat) :=
  match loops with
  | [] => (index, [])
  | (start, len, more) :: r =>
    if index < start + len then (index, loops)
    else if 0 < more then (start, (start, len, more - 1) :: r)
    else loopStep index r

/-- The next instruction. -/
def PosSt.advance (x : PosSt) : PosSt :=
  let n := loopStep (x.index + 1) x.loops
  { x with index := n.1, loops := n.2 }

/-- Mesh slot in which an instruction issues (R209). -/
def issueSlot (i : Issue) : Nat := i.cycle % 64

/-- Whether a fence of a position's tile still holds back its accesses to its own SRAM (R96): one that holds later local reads, of acquire or acq_rel
kind at node or fabric scope, until the earlier reads have ended; a sequentially consistent one every local access, until it is over. -/
def Dev.localHeld (d : Dev) (pos : Nat) (reads writes : Bool) : Bool :=
  let mine := ((d.pipe (d.pos pos).pipe).queues.filter fun q => q.pos = pos && q.out).map (·.stream)
  let holds (f : FenceSt) : Bool :=
    match f.kind with
    | .acquire => reads && f.scope ≠ .modul && !f.waitsAll.isEmpty
    | .acqRel => reads && f.scope ≠ .modul && !f.waitsAll.isEmpty
    | .release => false
    | .seqCst => (reads || writes) && !f.over
  d.req.fences.any fun f => f.streams.any mine.contains && holds f

/-- An instruction at a running position: skipped where its predicate is false; the index stays at an instruction that faults, and at one that a
fence holds (`held`), which issues again. -/
def Dev.tileRun (d : Dev) (pos : Nat) (i : Issue) (body : Dev → Dev) (held : Bool := false) : Dev :=
  let x := d.pos pos
  if x.state ≠ 2 then d
  else
    let skip := match i.pred with | some p => !x.preds.contains p | none => false
    if skip then d.modPos pos PosSt.advance
    else if held then d
    else
      let d := body d
      if (d.pos pos).state = 2 then d.modPos pos PosSt.advance else d

/-- ILLEGAL_INSTRUCTION (R213). -/
def Dev.illegal (d : Dev) (pos : Nat) (i : Issue) : Dev := d.posFault pos fcIllegal (issueSlot i) 0

/-! ### Elements (R191, R193) -/

/-- Bits of the vector registers. -/
def vregBits : Nat := 32 * 2048 * 8

/-- `n` bits from bit `at'` on. -/
def readBits (m : Memory) (at' n : Nat) : Nat := (unle (memReads m (at' / 8) 5) >>> (at' % 8)) % 2 ^ n

/-- `n` bits written from bit `at'` on. -/
def writeBits (m : Memory) (at' n v : Nat) : Memory :=
  let old := unle (memReads m (at' / 8) 5)
  let sh := at' % 8
  let new := old - (field old sh n) * 2 ^ sh + (v % 2 ^ n) * 2 ^ sh
  memWrites m (at' / 8) ((le 5 new).take (ceilDiv (sh + n) 8))

/-- First bit of element `i` of `n` bits in a register operand. -/
def elemBit (r base n i : Nat) : Nat := r * 2048 * 8 + n * (base + i)

/-- Whether `count` elements of `n` bits of an operand exist. -/
def operandOk (v : VReg) (n count : Nat) : Bool :=
  match v with
  | .vec r base => elemBit r.val base n count ≤ vregBits
  | .acc => n = 32 && count ≤ 1024

/-- Element `i` of an operand. -/
def PosSt.elem (x : PosSt) (v : VReg) (n i : Nat) : Nat :=
  match v with
  | .vec r base => readBits x.vregs (elemBit r.val base n i) n
  | .acc => (tget x.acc i 0).toNat

/-- Element `i` of an operand written. -/
def PosSt.setElem (x : PosSt) (v : VReg) (n i val : Nat) : PosSt :=
  match v with
  | .vec r base => { x with vregs := writeBits x.vregs (elemBit r.val base n i) n val }
  | .acc => { x with acc := tset x.acc i (BitVec.ofNat 32 val) }

/-- Elements written from the first on. -/
def PosSt.setElems (x : PosSt) (v : VReg) (n : Nat) (vals : List Nat) : PosSt :=
  (vals.zip (upTo vals.length)).foldl (fun x e => x.setElem v n e.2 e.1) x

/-- Scale byte of the block that holds element `i` of an operand (R193). -/
def PosSt.scaleOf (x : PosSt) (v : VReg) (s : Fin 32) (i : Nat) : Nat :=
  let base := match v with | .vec _ b => b | .acc => 0
  (memRead x.vregs (s.val * 2048 + (base + i) / 32)).toNat

/-- Formats whose elements may carry block scales (R193). -/
def mayScale (f : Fmt) : Bool :=
  match f with | .e4m3 => true | .e5m2 => true | .e3m2 => true | .e2m3 => true | .e2m1 => true | _ => false

/-- Whether a format is an integer format. -/
def isInt (f : Fmt) : Bool := (ffmtOf f).isNone

/-- A floating element's value, its block scale applied (R193). -/
def PosSt.fval (x : PosSt) (f : Fmt) (v : VReg) (s : MxScale) (i : Nat) : FVal :=
  match ffmtOf f with
  | none => .fin (decide (intDecode f (x.elem v (fmtBits f) i) < 0)) (intDecode f (x.elem v (fmtBits f) i)).natAbs 0
  | some ff =>
    let q := x.elem v (fmtBits f) i
    match s with
    | some r => blockElem ff (x.scaleOf v r i) q
    | none => fdecode ff q

/-- Sticky flags (R202). -/
def Dev.raiseFlags (d : Dev) (pos : Nat) (e : Exc) : Dev := d.modPos pos fun x => { x with flags := x.flags ||| e }

/-! ### Vector arithmetic (R195, R205) -/

/-- The lanes of elementwise arithmetic (R195): how many, their width, and their floating format. -/
def laneForm (f : Fmt) : Nat × Nat × Option FFmt :=
  match f with
  | .fp32 => (256, 32, some fmtFp32)
  | .int32 => (256, 32, none)
  | .uint32 => (256, 32, none)
  | .bf16 => (1024, 16, some fmtBf16)
  | .fp16 => (1024, 16, some fmtFp16)
  | .int8 => (1024, 16, none)
  | .uint8 => (1024, 16, none)
  | .e4m3 => (1024, 16, some fmtBf16)
  | .e5m2 => (1024, 16, some fmtBf16)
  | .e3m2 => (1024, 16, some fmtBf16)
  | .e2m3 => (1024, 16, some fmtBf16)
  | .e2m1 => (1024, 16, some fmtBf16)

/-- A lane's bits of an operand: the element, widened into its lane, with the exceptions of a block scale (R195). -/
def PosSt.lane (x : PosSt) (f : Fmt) (v : VReg) (s : MxScale) (i : Nat) : Nat × Exc :=
  let (_, w, lf) := laneForm f
  let raw := x.elem v (fmtBits f) i
  match lf with
  | none => (intEncode w (intDecode f raw), 0)
  | some ff => if mayScale f then froundTo ff .rne 0 false (x.fval f v s i) else (raw, 0)

/-- Whether an operation uses its second and third operand. -/
def vopUses (op : VOp) : Bool × Bool :=
  match op with | .not => (false, false) | .fma => (true, true) | .select => (true, true) | _ => (true, false)

/-- A shift of a lane (R205): 0 left, 1 logical right, 2 arithmetic right. An amount of the width or more has no stated result (log 8). -/
def shiftLane (kind w a n : Nat) : Nat :=
  if w ≤ n then Config.shiftPast kind w a n % 2 ^ w
  else if kind = 0 then (a <<< n) % 2 ^ w
  else if kind = 1 then a >>> n
  else intEncode w ((if a < 2 ^ (w - 1) then (a : Int) else (a : Int) - 2 ^ w) >>> n)

/-- The lane operations that look at bits only: compare outcomes stand as `Config.cmpMask`. -/
def bitLane (op : VOp) (w a b c : Nat) : Nat :=
  match op with
  | .and => a &&& b
  | .or => a ||| b
  | .xor => a ^^^ b
  | .not => 2 ^ w - 1 - a
  | .shl => shiftLane 0 w a b
  | .shrLogical => shiftLane 1 w a b
  | .shrArith => shiftLane 2 w a b
  | .select => if c = (Config.cmpMask false).toNat % 2 ^ w then b else a
  | _ => 0

/-- A comparison's lane. -/
def maskLane (w : Nat) (b : Bool) : Nat := (Config.cmpMask b).toNat % 2 ^ w

/-- One lane of a floating operation (R194, R196, R198). -/
def floatLane (op : VOp) (ff : FFmt) (w a b c : Nat) : Nat × Exc :=
  let x := fdecode ff a
  let y := fdecode ff b
  let z := fdecode ff c
  let signal : Exc := if x.isSNan || y.isSNan then excInvalid else 0
  let done (v : FVal × Exc) : Nat × Exc := let r := froundTo ff .rne 0 false v.1; (r.1, r.2 ||| v.2)
  match op with
  | .add => done (faddX x y)
  | .mul => done (fmulX x y)
  | .fma => let p := fmulX x y; let s := faddX p.1 z; done (s.1, s.2 ||| p.2)
  | .min => done (fminmaxX false x y)
  | .max => done (fminmaxX true x y)
  | .cmpEq => (maskLane w (!x.isNan && !y.isNan && !fltX false x y && !fltX false y x), signal)
  | .cmpLt => (maskLane w (fltX false x y), signal)
  | .cmpLe => (maskLane w (!x.isNan && !y.isNan && !fltX false y x), signal)
  | op => (bitLane op w a b c, 0)

/-- One lane of an integer operation: results wrap at the lane's width. -/
def intLane (op : VOp) (signed : Bool) (w a b c : Nat) : Nat :=
  let val (v : Nat) : Int := if signed && 2 ^ (w - 1) ≤ v then (v : Int) - 2 ^ w else v
  match op with
  | .add => (a + b) % 2 ^ w
  | .mul => (a * b) % 2 ^ w
  | .fma => (a * b + c) % 2 ^ w
  | .min => if val b < val a then b else a
  | .max => if val a < val b then b else a
  | .cmpEq => maskLane w (a = b)
  | .cmpLt => maskLane w (val a < val b)
  | .cmpLe => maskLane w (val a ≤ val b)
  | op => bitLane op w a b c

/-- Whether integer lanes of a format are signed. Lanes of int8 and uint8 are 16-bit integers, which hold both (R195). -/
def laneSigned (f : Fmt) : Bool := match f with | .uint32 => false | _ => true

/-- VECTOR_ARITHMETIC (R205). -/
def vectorArithmeticD (pos : Position) (op : VOp) (fmt : Fmt) (mode : RMode) (dst a b c : VReg) (sa sb sc : MxScale)
    (iss : Issue) (d : Dev) : Dev :=
  d.tileRun pos iss fun d =>
    let (n, w, lf) := laneForm fmt
    let (useB, useC) := vopUses op
    let fits := operandOk dst w n && operandOk a (fmtBits fmt) n && (!useB || operandOk b (fmtBits fmt) n) &&
      (!useC || operandOk c (fmtBits fmt) n)
    let scaled := sa.isSome || (useB && sb.isSome) || (useC && sc.isSome)
    -- RTZ and SR are modes of conversions alone (R198)
    if !fits || (scaled && !mayScale fmt) || mode ≠ .rne then d.illegal pos iss
    else
      let x := d.pos pos
      let one (i : Nat) : Nat × Exc :=
        let (p, e1) := x.lane fmt a sa i
        let (q, e2) := if useB then x.lane fmt b sb i else (0, 0)
        let (r, e3) := if useC then x.lane fmt c sc i else (0, 0)
        let (v, e4) := match lf with
          | some ff => floatLane op ff w p q r
          | none => (intLane op (laneSigned fmt) w p q r, 0)
        (v, e1 ||| e2 ||| e3 ||| e4)
      let rs := (upTo n).map one
      let d := d.modPos pos fun x => x.setElems dst w (rs.map (·.1))
      d.raiseFlags pos (rs.foldl (fun e r => e ||| r.2) 0)

/-! ### Dot-accumulate (R196) -/

/-- The rate class of an operand (R195): products per lane and lanes; 0 for a form that does not exist. -/
def dotClass (f : Fmt) (s : MxScale) : Nat × Nat × Bool :=
  match f with
  | .fp32 => if s.isNone then (1, 256, false) else (0, 0, false)
  | .bf16 => if s.isNone then (1, 1024, false) else (0, 0, false)
  | .fp16 => if s.isNone then (1, 1024, false) else (0, 0, false)
  | .e4m3 => (2, 1024, false)
  | .e5m2 => (2, 1024, false)
  | .e3m2 => if s.isSome then (4, 1024, false) else (0, 0, false)
  | .e2m3 => if s.isSome then (4, 1024, false) else (0, 0, false)
  | .e2m1 => if s.isSome then (4, 1024, false) else (0, 0, false)
  | .int8 => if s.isNone then (2, 1024, true) else (0, 0, false)
  | .uint8 => if s.isNone then (2, 1024, true) else (0, 0, false)
  | .int32 => (0, 0, false)
  | .uint32 => (0, 0, false)

/-- The exact sum of a lane's products and its accumulator, rounded once. -/
def PosSt.dotLane (x : PosSt) (fa fb : Fmt) (a b : VReg) (sa sb : MxScale) (init : Bool) (k i : Nat) : Nat × Exc :=
  let acc0 : FVal := if init then .fin false 0 0 else fdecode fmtFp32 (tget x.acc i 0).toNat
  let (v, e) := (upTo k).foldl (fun (s : FVal × Exc) j =>
    let p := fmulX (x.fval fa a sa (k * i + j)) (x.fval fb b sb (k * i + j))
    let t := faddX s.1 p.1
    (t.1, s.2 ||| p.2 ||| t.2)) (acc0, 0)
  let r := froundTo fmtFp32 .rne 0 false v
  (r.1, r.2 ||| e)

/-- The same in int32, modulo 2^32. -/
def PosSt.dotInt (x : PosSt) (fa fb : Fmt) (a b : VReg) (init : Bool) (k i : Nat) : Nat :=
  let acc0 : Int := if init then 0 else (tget x.acc i 0).toNat
  let el (f : Fmt) (v : VReg) (j : Nat) : Int := intDecode f (x.elem v (fmtBits f) j)
  intEncode 32 ((upTo k).foldl (fun s j => s + el fa a (k * i + j) * el fb b (k * i + j)) acc0)

/-- DOT_ACCUMULATE (R196). The operands may have different formats of one rate class: R195 gives rates by class, and does not say whether two formats
of a class may meet (DESIGN CHOICE, log 207). -/
def dotAccumulateD (pos : Position) (fa fb : Fmt) (mode : RMode) (a b : VReg) (sa sb : MxScale) (init : Bool) (iss : Issue)
    (d : Dev) : Dev :=
  d.tileRun pos iss fun d =>
    let (k, n, isI) := dotClass fa sa
    if k = 0 || dotClass fb sb ≠ (k, n, isI) || !operandOk a (fmtBits fa) (k * n) || !operandOk b (fmtBits fb) (k * n) ||
        mode ≠ .rne then d.illegal pos iss
    else
      let x := d.pos pos
      let rs := (upTo n).map fun i => if isI then (x.dotInt fa fb a b init k i, 0) else x.dotLane fa fb a b sa sb init k i
      let d := d.modPos pos fun x => x.setElems .acc 32 (rs.map (·.1))
      d.raiseFlags pos (rs.foldl (fun e r => e ||| r.2) 0)

/-! ### Conversions (R198–R201) -/

/-- Elements of a conversion (R205). -/
def convertCount : Nat := 1024

/-- Whether a conversion's mode is allowed (R198, R201). -/
def modeOk (dst : Fmt) (sd : MxScale) (mode : RMode) : Bool :=
  match mode with
  | .sr => !isInt dst && (sd.isSome || dst = .bf16 || dst = .fp16 || dst = .e4m3 || dst = .e5m2)
  | _ => true

/-- One element converted (R194, R198, R201). -/
def convertOne (src dst : Fmt) (mode : RMode) (nanOnOverflow : Bool) (r : Nat) (v : FVal) (raw : Nat) : Nat × Exc :=
  match ffmtOf dst with
  | none => if isInt src then (intSat dst (intDecode src raw), 0) else floatToInt dst mode v
  | some ff =>
    if v.isNan && !ff.ieee && !ff.nanAll then
      (Config.nanWithout (fmtBits dst) % 2 ^ fmtBits dst, if v.isSNan then excInvalid else 0)
    else froundTo ff mode r nanOnOverflow v

/-- `n` random integers of 16 bits (R199, R200). -/
def Dev.drawMany (d : Dev) (n : Nat) : List Nat × Dev :=
  (upTo n).foldl (fun (acc : List Nat × Dev) _ => let (v, d) := acc.2.draw; (acc.1 ++ [v.toNat % 65536], d)) ([], d)

/-- CONVERT (R198). -/
def convertD (pos : Position) (src dst : Fmt) (mode : RMode) (nanOnOverflow : Bool) (dd a : VReg) (sd sa : MxScale)
    (iss : Issue) (d : Dev) : Dev :=
  d.tileRun pos iss fun d =>
    let n := convertCount
    let base := match dd with | .vec _ b => b | .acc => 0
    if !operandOk dd (fmtBits dst) n || !operandOk a (fmtBits src) n || (sd.isSome && (!mayScale dst || base % 32 ≠ 0)) ||
        (sa.isSome && !mayScale src) || !modeOk dst sd mode || (nanOnOverflow && dst ≠ .e4m3) then d.illegal pos iss
    else
      let x := d.pos pos
      let (rs, d) := if mode = .sr then d.drawMany n else (List.replicate n 0, d)
      let vs := (upTo n).map fun i => x.fval src a sa i
      match sd, ffmtOf dst with
      | some s, some ff =>
        let blocks := (upTo (n / 32)).map fun j => quantBlock ff mode ((rs.drop (32 * j)).take 32) ((vs.drop (32 * j)).take 32)
          nanOnOverflow
        let d := d.modPos pos fun x =>
          let x := x.setElems dd (fmtBits dst) (blocks.flatMap fun b => b.2.1)
          { x with vregs := memWrites x.vregs (s.val * 2048 + base / 32) (blocks.map fun b => BitVec.ofNat 8 b.1) }
        d.raiseFlags pos (blocks.foldl (fun e b => e ||| b.2.2) 0)
      | _, _ =>
        let outs := (upTo n).map fun i =>
          convertOne src dst mode nanOnOverflow (rs.getD i 0) (vs.getD i (.nan false)) (x.elem a (fmtBits src) i)
        let d := d.modPos pos fun x => x.setElems dd (fmtBits dst) (outs.map (·.1))
        d.raiseFlags pos (outs.foldl (fun e o => e ||| o.2) 0)

/-! ### Cross-lane reductions (R197) -/

/-- One level of the binary tree: lane 2i with lane 2i + 1. -/
def treeLevel {α : Type} (f : α → α → α) (l : List α) : List α :=
  match l with
  | a :: b :: r => f a b :: treeLevel f r
  | l => l

/-- The tree over 1,024 lanes: ten levels. -/
def tree {α : Type} (f : α → α → α) (l : List α) : List α := (upTo 10).foldl (fun l _ => treeLevel f l) l

/-- CROSS_LANE_REDUCE (R197): fp32 at every level; integer lanes modulo 2^32. The result is in the low half of scalar `dst`. -/
def crossLaneReduceD (pos : Position) (op : ROp) (fmt : Fmt) (mode : RMode) (a : VReg) (dst : Fin 32) (iss : Issue) (d : Dev) : Dev :=
  d.tileRun pos iss fun d =>
    if !operandOk a (fmtBits fmt) 1024 || mode ≠ .rne then d.illegal pos iss
    else
      let x := d.pos pos
      if isInt fmt then
        let f (p q : Int) : Int := match op with | .sum => p + q | .min => min p q | .max => max p q
        let r := intEncode 32 ((tree f ((upTo 1024).map fun i => intDecode fmt (x.elem a (fmtBits fmt) i))).headD 0)
        d.modPos pos fun x => { x with scalars := tset x.scalars dst.val (BitVec.ofNat 64 r) }
      else
        let f (p q : FVal × Exc) : FVal × Exc :=
          let s := match op with | .sum => faddX p.1 q.1 | .min => fminmaxX false p.1 q.1 | .max => fminmaxX true p.1 q.1
          let r := froundTo fmtFp32 .rne 0 false s.1
          (fdecode fmtFp32 r.1, r.2 ||| s.2 ||| p.2 ||| q.2)
        let r := (tree f ((upTo 1024).map fun i => (x.fval fmt a none i, (0 : Exc)))).headD (.fin false 0 0, 0)
        let d := d.modPos pos fun x => { x with scalars := tset x.scalars dst.val (BitVec.ofNat 64 (fround fmtFp32 r.1)) }
        d.raiseFlags pos r.2

/-! ### SRAM (R206, R207) -/

/-- Whether SRAM bytes [`off`, `off + n`) lie in the stage's range (R207, R221). -/
def PosSt.inRange (x : PosSt) (off n : Nat) : Bool :=
  x.sramBase ≤ off && off + n ≤ x.sramBase + x.sramSize && off + n ≤ 2 ^ 24

/-- Bank of an SRAM offset (R206). -/
def sramBank (off : Nat) : Nat := off / 64 % 32

/-- The granules that bytes [`off`, `off + n`) fall on. -/
def granulesAt (off n : Nat) : List Nat := (upTo ((off + n - 1) / 64 + 1 - off / 64)).map fun i => (off / 64 + i) * 64

/-- Bytes of a memory kept so that an access can be undone. -/
def keepBytes (m : Memory) (a n : Nat) : List (Nat × Byte) := (upTo n).map fun i => (a + i, memRead m (a + i))

/-- Bytes put back. -/
def putBack (m : Memory) (l : List (Nat × Byte)) : Memory := l.foldl (fun m e => memWrite m e.1 e.2) m

/-- An access undone. -/
def PosSt.undone (x : PosSt) (u : Undo) : PosSt :=
  { x with sram := putBack x.sram u.sram, vregs := putBack x.vregs u.regs, acc := u.acc.foldl (fun t e => tset t e.1 e.2) x.acc,
           flags := x.flags &&& ~~~ u.flags, corrected := x.corrected - u.fixed }

/-- A word taken back out of an out-queue, with the place a request word took there (R240). -/
def StreamQ.unsent (q : StreamQ) (w : BitVec 256) : StreamQ :=
  let asks := q.mode = 3 && q.due = field w.toNat 64 32 / 32 && !q.orders.isEmpty
  if q.words.getLast? = some w then
    { q with words := q.words.dropLast, used := q.used - 1, due := if asks then 0 else if q.mode = 3 then q.due + 1 else q.due,
             orders := if asks then q.orders.dropLast else q.orders }
  else q

/-- The accesses that meet a later one in a bank, the last first, are undone: none of them is performed, and no word that one of them read stays in an
out-queue (R213). -/
def Dev.undo (d : Dev) (pos : Nat) (us : List BankUse) : Dev :=
  eachOf us.reverse d fun d u =>
    let d := d.modPos pos fun x => x.undone u.undo
    match u.undo.sent with
    | some (sp, w) =>
      d.modPipe (d.pos pos).pipe fun x =>
        { x with queues := x.queues.map fun q => if q.pos = pos && q.port = sp && q.out then q.unsent w else q }
    | none => d

/-- What the code of R206 finds in the 8-byte words of the ranges read. -/
def eccFound (i : Issue) (reads : List (Nat × Nat)) : List (Nat × Ecc) :=
  i.ecc.filter fun e => reads.any fun r => r.1 / 8 ≤ e.1 / 8 && e.1 < r.1 + r.2

/-- An access takes banks for `n` cycles from its own on, reads ranges of SRAM, and does `body` (R206, R207). On a BANK_COLLISION none of the
accesses that meet is performed (R213); on an uncorrectable word the access is not. -/
def Dev.useBanks (d : Dev) (pos : Nat) (i : Issue) (banks : List Nat) (n : Nat) (reads : List (Nat × Nat)) (body : PosSt → PosSt × Undo) : Dev :=
  let x := d.pos pos
  let meets (u : BankUse) : Bool := u.first < i.cycle + n && i.cycle < u.past && banks.any fun b => u.banks.contains b
  match x.bankUses.filter meets with
  | u :: r => (d.undo pos (u :: r)).posFault pos fcBank (issueSlot i) ((banks.find? fun b => u.banks.contains b).getD 0)
  | [] =>
    if banks.eraseDups.length ≠ banks.length then
      d.posFault pos fcBank (issueSlot i) ((banks.find? fun b => 1 < banks.count b).getD 0)
    else
      let found := eccFound i reads
      match found.find? fun e => e.2 ≠ .corrected with
      | some e => d.posFault pos fcEcc (issueSlot i) (sramBank e.1)
      | none =>
        let (y, u) := body x
        let y := if found.isEmpty then y else { y with corrected := satAdd 32 y.corrected found.length }
        let kept := y.bankUses.filter fun u => i.cycle ≤ u.past + 64
        d.modPos pos fun _ => { y with bankUses := kept ++ [⟨i.cycle, i.cycle + n, banks, { u with fixed := found.length }⟩] }

/-- Banks and cycles of a unit that reads `n` bytes of SRAM: as a vector load per 2,048 bytes (R207). -/
def unitCycles (n : Nat) : Nat := ceilDiv n 2048

/-- The granule offsets an access touches. -/
def PosSt.granules (x : PosSt) (op : SramOp) : List Nat :=
  match op with
  | .load _ off len => granulesAt off len
  | .store _ off len => granulesAt off len
  | .gather _ idx n => (upTo n).map fun i => unle (memReads x.vregs (idx.val * 2048 + 4 * i) 4)
  | .scatter _ idx n => (upTo n).map fun i => unle (memReads x.vregs (idx.val * 2048 + 4 * i) 4)

/-- Banks and cycles an access takes (R207). -/
def banksOf (op : SramOp) (gs : List Nat) : List Nat × Nat :=
  match op with
  | .load _ _ _ => (gs.map sramBank, 1)
  | .store _ _ _ => (gs.map sramBank, 1)
  | .gather _ _ n => (upTo 32, n)
  | .scatter _ _ n => (upTo 32, n)

/-- Whether an access lies in range, and the bank of the first part that does not (R207). -/
def PosSt.accessOut (x : PosSt) (op : SramOp) (gs : List Nat) : Option Nat :=
  match op with
  | .load _ off len => if x.inRange off len then none else some (sramBank off)
  | .store _ off len => if x.inRange off len then none else some (sramBank off)
  | .gather _ _ _ => (gs.find? fun g => g % 64 ≠ 0 || !x.inRange g 64).map sramBank
  | .scatter _ _ _ => (gs.find? fun g => g % 64 ≠ 0 || !x.inRange g 64).map sramBank

/-- An access performed, with what it overwrote. -/
def PosSt.access (x : PosSt) (op : SramOp) (gs : List Nat) : PosSt × Undo :=
  match op with
  | .load r off len =>
    ({ x with vregs := memWrites x.vregs (r.val * 2048) (memReads x.sram off len) }, { regs := keepBytes x.vregs (r.val * 2048) len })
  | .store r off len =>
    ({ x with sram := memWrites x.sram off (memReads x.vregs (r.val * 2048) len) }, { sram := keepBytes x.sram off len })
  | .gather r _ n =>
    ({ x with vregs := memWrites x.vregs (r.val * 2048) (gs.flatMap fun g => memReads x.sram g 64) },
     { regs := keepBytes x.vregs (r.val * 2048) (64 * n) })
  | .scatter r _ n =>
    let s := (gs.zip (upTo n)).foldl (fun s e => memWrites s e.1 (memReads x.vregs (r.val * 2048 + 64 * e.2) 64)) x.sram
    ({ x with sram := s }, { sram := gs.reverse.flatMap fun g => keepBytes x.sram g 64 })

/-- Whether an access has a form that exists (R205, R207): its bytes, and its offsets, fit in the vector registers. -/
def accessForm (op : SramOp) : Bool :=
  match op with
  | .load r _ len => 1 ≤ len && len ≤ 2048 && r.val * 2048 + len ≤ 65536
  | .store r _ len => 1 ≤ len && len ≤ 2048 && r.val * 2048 + len ≤ 65536
  | .gather r idx n => 1 ≤ n && r.val * 2048 + 64 * n ≤ 65536 && idx.val * 2048 + 4 * n ≤ 65536
  | .scatter r idx n => 1 ≤ n && r.val * 2048 + 64 * n ≤ 65536 && idx.val * 2048 + 4 * n ≤ 65536

/-- Whether an access reads SRAM; else it writes it. -/
def readsSram (op : SramOp) : Bool :=
  match op with | .load _ _ _ => true | .gather _ _ _ => true | .store _ _ _ => false | .scatter _ _ _ => false

/-- The ranges of SRAM an access reads. -/
def sramReads (op : SramOp) (gs : List Nat) : List (Nat × Nat) :=
  match op with
  | .load _ off len => [(off, len)]
  | .gather _ _ _ => gs.map fun g => (g, 64)
  | .store _ _ _ => []
  | .scatter _ _ _ => []

/-- SRAM_ACCESS (R207). -/
def sramAccessD (pos : Position) (op : SramOp) (iss : Issue) (d : Dev) : Dev :=
  d.tileRun pos iss (fun d =>
    if !accessForm op then d.illegal pos iss
    else
      let gs := (d.pos pos).granules op
      match (d.pos pos).accessOut op gs with
      | some b => d.posFault pos fcRange (issueSlot iss) b
      | none => d.useBanks pos iss (banksOf op gs).1 (banksOf op gs).2 (sramReads op gs) fun x => x.access op gs)
    (d.localHeld pos (readsSram op) (!readsSram op))

/-! ### Function and top-k units (R203, R204) -/

/-- The results of the function unit written, with their flags (R202, R203). -/
def PosSt.putFunction (x : PosSt) (fn : FnOp) (dst : VReg) (ins : List Nat) : PosSt :=
  let rs := ins.map (fnUnit fn)
  let y := x.setElems dst 32 (rs.map (·.1))
  { y with flags := y.flags ||| rs.foldl (fun e r => e ||| r.2) 0 }

/-- What writing `n` 32-bit elements of an operand overwrites, with the flags that `y` has and the position had not. -/
def PosSt.keepElems (x y : PosSt) (v : VReg) (n : Nat) : Undo :=
  match v with
  | .vec r base => { regs := keepBytes x.vregs (elemBit r.val base 32 0 / 8) (4 * n), flags := y.flags &&& ~~~ x.flags }
  | .acc => { acc := (upTo n).map fun i => (i, tget x.acc i 0), flags := y.flags &&& ~~~ x.flags }

/-- FUNCTION (R203): `n` fp32 elements, from registers or from SRAM. -/
def functionD (pos : Position) (fn : FnOp) (mode : RMode) (dst : VReg) (a : FnSrc) (n : Nat) (iss : Issue) (d : Dev) : Dev :=
  d.tileRun pos iss (fun d =>
    if !operandOk dst 32 n || mode ≠ .rne then d.illegal pos iss
    else
      match a with
      | .reg a =>
        if !operandOk a 32 n then d.illegal pos iss
        else d.modPos pos fun x => x.putFunction fn dst ((upTo n).map (x.elem a 32))
      | .sram off =>
        if !(d.pos pos).inRange off (4 * n) then d.posFault pos fcRange (issueSlot iss) (sramBank off)
        else d.useBanks pos iss (upTo 32) (unitCycles (4 * n)) [(off, 4 * n)] fun x =>
          let y := x.putFunction fn dst ((upTo n).map fun i => unle (memReads x.sram (off + 4 * i) 4))
          (y, x.keepElems y dst n))
    (d.localHeld pos (match a with | .reg _ => false | .sram _ => true) false)

/-- Whether a value ranks before another in top-k (R204): −0 below +0, NaN last either way. -/
def ranksBefore (largest : Bool) (a b : FVal) : Bool :=
  if a.isNan then false else if b.isNan then true else if largest then fltX true b a else fltX true a b

/-- An element put into the best `k` so far; equal values keep the lower index first. -/
def insertTop (largest : Bool) (k : Nat) (best : List (FVal × Nat)) (e : FVal × Nat) : List (FVal × Nat) :=
  let stays (x : FVal × Nat) : Bool := !ranksBefore largest e.1 x.1
  ((best.takeWhile stays) ++ [e] ++ best.dropWhile stays).take k

/-- The rows top-k writes (R204): encodings and indices. -/
def PosSt.topRows (x : PosSt) (ff : FFmt) (w : Nat) (largest : Bool) (off n k : Nat) : List (Nat × Nat) :=
  let best := (upTo n).foldl (fun best i => insertTop largest k best (fdecode ff (unle (memReads x.sram (off + w * i) w)), i)) []
  best.map (fun e => (fround ff e.1, e.2)) ++ List.replicate (k - n) (nanBits ff, 0xFFFFFFFF)

/-- TOP_K (R204): it takes the banks as it reads (R207). R207 names no bank ports for the arrays it writes (log 93). -/
def topKD (pos : Position) (fmt : Fmt) (largest : Bool) (off n k dv di : Nat) (iss : Issue) (d : Dev) : Dev :=
  d.tileRun pos iss (fun d =>
    if (fmt ≠ .fp32 && fmt ≠ .bf16) || n = 0 || 65536 < n || k = 0 || 64 < k then d.illegal pos iss
    else
      let x := d.pos pos
      let w := fmtBits fmt / 8
      let ff := if fmt = .fp32 then fmtFp32 else fmtBf16
      match [(off, w * n), (dv, w * k), (di, 4 * k)].find? fun r => !x.inRange r.1 r.2 with
      | some r => d.posFault pos fcRange (issueSlot iss) (sramBank r.1)
      | none =>
        d.useBanks pos iss (upTo 32) (unitCycles (w * n)) [(off, w * n)] fun x =>
          let rows := x.topRows ff w largest off n k
          let s := memWrites x.sram dv (rows.flatMap fun e => le w e.1)
          ({ x with sram := memWrites s di (rows.flatMap fun e => le 4 e.2) },
           { sram := keepBytes x.sram dv (w * k) ++ keepBytes x.sram di (4 * k) }))
    (d.localHeld pos true true)

/-! ### Mesh (R208–R211, R242) -/

/-- The position a router's link of a number leads to (R208, R223): 1 column + 1, 2 column − 1, 3 row + 1, 4 row − 1. -/
def neighbour (pos link : Nat) : Option Nat :=
  match link with
  | 1 => if pos % 20 < 19 then some (pos + 1) else none
  | 2 => if 0 < pos % 20 then some (pos - 1) else none
  | 3 => if pos / 20 < 9 then some (pos + 20) else none
  | 4 => if 20 ≤ pos then some (pos - 20) else none
  | _ => none

/-- The link at the other end. -/
def backLink (link : Nat) : Nat := match link with | 1 => 2 | 2 => 1 | 3 => 4 | 4 => 3 | n => n

/-- Slots from departure to arrival (R209). -/
def hopSlots (a b : Nat) : Nat := if tileDieOf a = tileDieOf b then 1 else 4

/-- The entry of an input and slot (R209). -/
def PosSt.routeAt (x : PosSt) (input slot : Nat) : Option Route := x.routes.find? fun r => r.input = input && r.slot = slot

/-- Departure slot of an entry (R223). -/
def Route.leaves (r : Route) : Nat := (r.slot + r.delay) % 64

/-- A word a router's input takes (R209, R210): it waits in the slot buffer, or the check fails. -/
def Dev.routeWord (d : Dev) (pos input slot pipe : Nat) (data : BitVec 256) : Dev :=
  match (d.pos pos).routeAt input slot with
  | none => d.slotCollision pos slot pipe none
  | some r =>
    if r.pipe ≠ pipe then
      let d := d.modPos pos fun x =>
        { x with words := x.words.filter fun w => !(w.output = r.output && w.slot = r.leaves && w.pipe = r.pipe) }
      d.slotCollision pos slot pipe (some r.pipe)
    else
      d.modPos pos fun x => { x with words := x.words ++ [⟨r.output, r.leaves, (r.slot + r.delay) / 64, pipe, data⟩] }

/-- Whether a word of a pipeline cannot have left a router's slot in time to arrive in slot `slot`, `hop` slots later: the mesh cycle of its departure,
this one or the one before, was held, and the pipeline's entries sent nothing in it (R211). -/
def Dev.neverLeft (d : Dev) (pipe slot hop : Nat) : Bool := if hop ≤ slot then (d.pipe pipe).gateHeld else (d.pipe pipe).heldBefore

/-- MESH_WORD_ARRIVAL (R210): the word leaves the neighbour's buffer, where it is found. -/
def meshWordArrivalD (pos : Position) (input : Fin 5) (slot : Fin 64) (pipe : Pipe) (data : BitVec 256) (d : Dev) : Dev :=
  if input.val = 0 then d
  else
    match neighbour pos input with
    | none => d
    | some nb =>
      if (d.pipe pipe).loaded && d.neverLeft pipe slot (hopSlots pos nb) then d
      else
      let left := (slot.val + 64 - hopSlots pos nb) % 64
      let it (w : BufWord) : Bool := w.output = backLink input && w.slot = left && w.pipe = pipe.val && w.data = data && w.left = 0
      (d.modPos nb fun x => { x with words := removeFirst it x.words }).routeWord pos input slot pipe data

/-- A 32-byte word of a register. -/
def PosSt.regWord (x : PosSt) (r word : Nat) : BitVec 256 := BitVec.ofNat 256 (unle (memReads x.vregs (r * 2048 + 32 * word) 32))

/-- A 32-byte word of a register written. -/
def PosSt.setRegWord (x : PosSt) (r word : Nat) (v : BitVec 256) : PosSt :=
  { x with vregs := memWrites x.vregs (r * 2048 + 32 * word) (le 32 v.toNat) }

/-- A word put where an instruction names (R205): a register word, or SRAM, with the bank its granule falls on (R207, R212). -/
def Dev.putWord (d : Dev) (pos : Nat) (i : Issue) (dst : WordAt) (v : BitVec 256) : Dev :=
  match dst with
  | .reg r word => d.modPos pos fun x => x.setRegWord r word v
  | .sram off =>
    if !(d.pos pos).inRange off 32 then d.posFault pos fcRange (issueSlot i) (sramBank off)
    else d.useBanks pos i ((granulesAt off 32).map sramBank) 1 [] fun x =>
      ({ x with sram := memWrites x.sram off (le 32 v.toNat) }, { sram := keepBytes x.sram off 32 })

/-- Whether a word's place is in SRAM. -/
def inSram (w : WordAt) : Bool := match w with | .reg _ _ => false | .sram _ => true

/-- The word an instruction names as its source; none where the access faults. `sp` is the stream port into whose out-queue it goes. -/
def Dev.takeWord (d : Dev) (pos sp : Nat) (i : Issue) (src : WordAt) : Option (BitVec 256) × Dev :=
  match src with
  | .reg r word => (some ((d.pos pos).regWord r word), d)
  | .sram off =>
    if !(d.pos pos).inRange off 32 then (none, d.posFault pos fcRange (issueSlot i) (sramBank off))
    else
      let v := BitVec.ofNat 256 (unle (memReads (d.pos pos).sram off 32))
      let d := d.useBanks pos i ((granulesAt off 32).map sramBank) 1 [(off, 32)] fun x => (x, { sent := some (sp, v) })
      (if (d.pos pos).state = 2 then some v else none, d)

/-- MESH_SEND (R210): a word from the local port. -/
def meshSendD (pos : Position) (slot : Fin 64) (r : Fin 32) (word : Fin 64) (iss : Issue) (d : Dev) : Dev :=
  d.tileRun pos iss fun d => d.routeWord pos 0 slot (d.pos pos).pipe ((d.pos pos).regWord r word)

/-- MESH_RECEIVE (R242): the word delivered in the slot, 32 zero bytes in an owned slot without one. In a slot the pipeline does not own
the result has no stated value (log 8). -/
def meshReceiveD (pos : Position) (slot : Fin 64) (dst : WordAt) (iss : Issue) (d : Dev) : Dev :=
  d.tileRun pos iss (fun d =>
    let x := d.pos pos
    let it (w : BufWord) : Bool := w.output = 0 && w.slot = slot.val && w.pipe = x.pipe && w.left = 0
    match x.words.find? it with
    | some w => (d.modPos pos fun x => { x with words := removeFirst it x.words }).putWord pos iss dst w.data
    | none =>
      if x.routes.any fun e => e.output = 0 && e.leaves = slot.val && e.pipe = x.pipe then d.putWord pos iss dst 0
      else
        let (v0, d) := d.draw
        let (v1, d) := d.draw
        let (v2, d) := d.draw
        let (v3, d) := d.draw
        d.putWord pos iss dst (v3 ++ v2 ++ v1 ++ v0))
    (d.localHeld pos false (inSram dst))

/-! ### Stream ports (R212, R242) -/

/-- Queue of a stream port direction of a position. -/
def PipeSt.queueAt (p : PipeSt) (pos port : Nat) (out : Bool) : Option StreamQ :=
  p.queues.find? fun q => q.pos = pos && q.port = port && q.out = out

/-- Queue of a stream port direction changed. -/
def Dev.modStreamQ (d : Dev) (p pos port : Nat) (out : Bool) (f : StreamQ → StreamQ) : Dev :=
  d.modPipe p fun x => { x with queues := x.queues.map fun q => if q.pos = pos && q.port = port && q.out = out then f q else q }

/-- Words of a queue (R224). -/
def queueWords : Nat := 2048

/-- Fetched bytes that are next in request order enter the in-queue while it has room (R240). -/
def pourFetchesN (fuel : Nat) (q : StreamQ) : StreamQ :=
  match fuel, q.fetches with
  | n + 1, (_, some bs) :: r =>
    let ws := (chunksOf 32 bs).map fun b => BitVec.ofNat 256 (unle b)
    if q.words.length + ws.length ≤ queueWords then pourFetchesN n { q with words := q.words ++ ws, fetches := r } else q
  | _, _ => q

/-- As above, for all of them. -/
def pourFetches (q : StreamQ) : StreamQ := pourFetchesN q.fetches.length q

/-- Words of a batch in a channel's queue (R237): header, data, padding to a multiple of BUDGET. -/
def batchTotal (b : Batch) (budget : Nat) : Nat := ceilDiv (1 + b.words) budget * budget

/-- The words of a running batch that have come enter its queue, in position order, then the padding (R237, R238). -/
def pourBatchN (fuel : Nat) (b : Batch) (q : StreamQ) : Batch × StreamQ :=
  match fuel with
  | 0 => (b, q)
  | n + 1 =>
    if queueWords ≤ q.words.length || batchTotal b q.budget ≤ b.entered then (b, q)
    else if b.words < b.entered then pourBatchN n { b with entered := b.entered + 1 } { q with words := q.words ++ [0] }
    else
      match b.data.find? fun e => e.1 + 1 = b.entered with
      | some e =>
        let b := { b with entered := b.entered + 1, data := b.data.filter fun x => x.1 ≠ e.1 }
        pourBatchN n b { q with words := q.words ++ [e.2] }
      | none => (b, q)

/-- As above, while the batch runs. -/
def pourBatch (b : Batch) (q : StreamQ) : Batch × StreamQ := if b.running then pourBatchN queueWords b q else (b, q)

/-- A channel's queue filled as far as the batch's words allow. -/
def Dev.pourChannel (d : Dev) (p ch : Nat) : Dev :=
  match (d.pipe p).batchOn ch, d.entryQueue p ch with
  | some b, some q =>
    let (b', q') := pourBatch b q
    (d.modBatch p ch fun _ => b').modStreamQ p q.pos q.port false fun _ => q'
  | _, _ => d

/-- The stage has read a word of an ENTRY queue: TAKEN advances, with a record per 16 KiB (R238, R239). -/
def Dev.wordTaken (d : Dev) (p ch : Nat) : Dev :=
  match (d.pipe p).batchOn ch with
  | none => d
  | some b =>
    if !b.running then d
    else
      let d := d.modBatch p ch fun b => { b with read := b.read + 1 }
      let d := d.pourChannel p ch
      match (d.pipe p).batchOn ch with
      | some b => if b.recorded + 16384 ≤ b.taken then d.writeBatch p ch 1 0 else d
      | none => d

/-- STREAM_READ (R242): the next word of an in-queue; an empty one is SLOT_COLLISION. The word has left the queue, and counts as read, also where the
SRAM write that should keep it faults: R212 and R213 do not say (DESIGN CHOICE, log 208). -/
def streamReadD (pos : Position) (sp : Fin 2) (dst : WordAt) (iss : Issue) (d : Dev) : Dev :=
  d.tileRun pos iss (fun d =>
    let p := (d.pos pos).pipe
    match (d.pipe p).queueAt pos sp false with
    | none => d.posFault pos fcSlot (issueSlot iss) 0
    | some q =>
      match q.words with
      | [] => d.posFault pos fcSlot (issueSlot iss) 0
      | w :: ws =>
        let d := d.putWord pos iss dst w
        let d := d.modStreamQ p pos sp false fun q => pourFetches { q with words := ws, used := q.used + 1 }
        if q.mode = 0 then d.wordTaken p q.channel else d)
    (d.localHeld pos false (inSram dst))

/-- A word at the end of an out-queue. In a WRITE queue a word that is due as no write's data is a request word, and its write is numbered as it is
queued (R240). -/
def Dev.pushWord (d : Dev) (p pos sp : Nat) (q : StreamQ) (w : BitVec 256) : Dev :=
  let asks := q.mode = 3 && q.due = 0
  let n := (d.pipe p).writeSeq
  let d := if asks then d.modPipe p fun x => { x with writeSeq := n + 1 } else d
  d.modStreamQ p pos sp true fun q =>
    { q with words := q.words ++ [w], used := q.used + 1, due := if asks then field w.toNat 64 32 / 32 else q.due - 1,
             orders := if asks then q.orders ++ [n] else q.orders }

/-- STREAM_WRITE (R242): a word into an out-queue; a full one is SLOT_COLLISION. -/
def streamWriteD (pos : Position) (sp : Fin 2) (src : WordAt) (iss : Issue) (d : Dev) : Dev :=
  d.tileRun pos iss (fun d =>
    let p := (d.pos pos).pipe
    match (d.pipe p).queueAt pos sp true with
    | none => d.posFault pos fcSlot (issueSlot iss) 0
    | some q =>
      if queueWords ≤ q.words.length then d.posFault pos fcSlot (issueSlot iss) 0
      else
        match d.takeWord pos sp iss src with
        | (some w, d) => d.pushWord p pos sp q w
        | (none, d) => d)
    (d.localHeld pos (inSram src) false)

/-! ### Sequencer (R191, R205) -/

/-- Scalar arithmetic on 64 bits; a shift by 64 or more has no stated result (log 8). -/
def scalarOp (op : SOp) (a b : BitVec 64) : BitVec 64 :=
  match op with
  | .add => a + b
  | .sub => a - b
  | .mul => a * b
  | .and => a &&& b
  | .or => a ||| b
  | .xor => a ^^^ b
  | .shl => BitVec.ofNat 64 (shiftLane 0 64 a.toNat b.toNat)
  | .shr => BitVec.ofNat 64 (shiftLane 1 64 a.toNat b.toNat)
  | .mov => a

/-- A fence of a tile (R96): over the streams of its out-queues, whose words drain ahead of it from module scope on. At tile scope it orders
nothing (R93). -/
def Dev.tileFence (d : Dev) (pos : Nat) (k : FenceKind) (s : Scp) : Dev :=
  let qs := (d.pipe (d.pos pos).pipe).queues.filter fun q => q.pos = pos && q.out
  d.fence k s (qs.map (·.stream)) (qs.foldl (fun t q => tset t q.stream q.words.length) [])

/-- SEQUENCER (R205). Loops nest up to 8 deep (R191). A loop of count 0 skips its body: R191 does not say what it does (DESIGN CHOICE, log 206). -/
def sequencerD (pos : Position) (op : SeqOp) (iss : Issue) (d : Dev) : Dev :=
  d.tileRun pos iss fun d =>
    let x := d.pos pos
    match op with
    | .loop count len =>
      if 8 ≤ x.loops.length then d.illegal pos iss
      else if len = 0 then d
      else if count = 0 then d.modPos pos fun x => { x with index := x.index + len }
      else d.modPos pos fun x => { x with loops := (x.index + 1, len, count - 1) :: x.loops }
    | .predSet p r =>
      let on := tget x.scalars r.val 0 ≠ 0
      let rest := x.preds.filter fun q => q ≠ p
      d.modPos pos fun x => { x with preds := if on then p :: rest else rest }
    | .scalar op dst a b =>
      let v := scalarOp op (tget x.scalars a.val 0) (tget x.scalars b.val 0)
      d.modPos pos fun x => { x with scalars := tset x.scalars dst.val v }
    | .scalarImm dst v => d.modPos pos fun x => { x with scalars := tset x.scalars dst.val v }
    | .fence k s => d.tileFence pos k s

/-- TILE_HARDWARE_FAULT (R213, R190): the position's compute goes offline, and its pipeline stops. -/
def tileHardwareFaultD (pos : Position) (slot : Fin 64) (d : Dev) : Dev :=
  if isPassThrough pos then d.loseSpare pos slot else if (d.pos pos).state = 5 then d else d.loseCompute pos slot

/-- Meaning of VECTOR_ARITHMETIC. -/
def execVectorArithmetic (pos : Position) (op : VOp) (fmt : Fmt) (mode : RMode) (d a b c : VReg) (sa sb sc : MxScale) (iss : Issue)
    (s : State) : Host.Outcome State Fault Refusal := .next (s.onDev (vectorArithmeticD pos op fmt mode d a b c sa sb sc iss))
/-- Meaning of DOT_ACCUMULATE. -/
def execDotAccumulate (pos : Position) (fa fb : Fmt) (mode : RMode) (a b : VReg) (sa sb : MxScale) (init : Bool) (iss : Issue)
    (s : State) : Host.Outcome State Fault Refusal := .next (s.onDev (dotAccumulateD pos fa fb mode a b sa sb init iss))
/-- Meaning of CONVERT. -/
def execConvert (pos : Position) (src dst : Fmt) (mode : RMode) (nanOnOverflow : Bool) (d a : VReg) (sd sa : MxScale) (iss : Issue)
    (s : State) : Host.Outcome State Fault Refusal := .next (s.onDev (convertD pos src dst mode nanOnOverflow d a sd sa iss))
/-- Meaning of CROSS_LANE_REDUCE. -/
def execCrossLaneReduce (pos : Position) (op : ROp) (fmt : Fmt) (a : VReg) (d : Fin 32) (iss : Issue) (s : State) (mode : RMode := .rne) :
    Host.Outcome State Fault Refusal := .next (s.onDev (crossLaneReduceD pos op fmt mode a d iss))
/-- Meaning of FUNCTION. -/
def execFunction (pos : Position) (fn : FnOp) (d : VReg) (a : FnSrc) (n : Nat) (iss : Issue) (s : State) (mode : RMode := .rne) :
    Host.Outcome State Fault Refusal := .next (s.onDev (functionD pos fn mode d a n iss))
/-- Meaning of TOP_K. -/
def execTopK (pos : Position) (fmt : Fmt) (largest : Bool) (off n k dv di : Nat) (iss : Issue) (s : State) :
    Host.Outcome State Fault Refusal := .next (s.onDev (topKD pos fmt largest off n k dv di iss))
/-- Meaning of SRAM_ACCESS. -/
def execSramAccess (pos : Position) (op : SramOp) (cycle : Nat) (ecc : List (Nat × Ecc)) (pred : Option Nat) (s : State) :
    Host.Outcome State Fault Refusal := .next (s.onDev (sramAccessD pos op ⟨pred, cycle, ecc⟩))
/-- Meaning of MESH_WORD_ARRIVAL. -/
def execMeshWordArrival (pos : Position) (input : Fin 5) (slot : Fin 64) (pipe : Pipe) (data : BitVec 256) (s : State) :
    Host.Outcome State Fault Refusal := .next (s.onDev (meshWordArrivalD pos input slot pipe data))
/-- Meaning of MESH_SEND. -/
def execMeshSend (pos : Position) (slot : Fin 64) (r : Fin 32) (word : Fin 64) (iss : Issue) (s : State) :
    Host.Outcome State Fault Refusal := .next (s.onDev (meshSendD pos slot r word iss))
/-- Meaning of MESH_RECEIVE. -/
def execMeshReceive (pos : Position) (slot : Fin 64) (dst : WordAt) (cycle : Nat) (pred : Option Nat) (s : State) :
    Host.Outcome State Fault Refusal := .next (s.onDev (meshReceiveD pos slot dst ⟨pred, cycle, []⟩))
/-- Meaning of STREAM_READ. -/
def execStreamRead (pos : Position) (sp : Fin 2) (dst : WordAt) (cycle : Nat) (pred : Option Nat) (s : State) :
    Host.Outcome State Fault Refusal := .next (s.onDev (streamReadD pos sp dst ⟨pred, cycle, []⟩))
/-- Meaning of STREAM_WRITE. -/
def execStreamWrite (pos : Position) (sp : Fin 2) (src : WordAt) (cycle : Nat) (pred : Option Nat) (s : State) (ecc : List (Nat × Ecc) := []) :
    Host.Outcome State Fault Refusal := .next (s.onDev (streamWriteD pos sp src ⟨pred, cycle, ecc⟩))
/-- Meaning of SEQUENCER. -/
def execSequencer (pos : Position) (op : SeqOp) (iss : Issue) (s : State) : Host.Outcome State Fault Refusal :=
  .next (s.onDev (sequencerD pos op iss))
/-- Meaning of TILE_HARDWARE_FAULT. -/
def execTileHardwareFault (pos : Position) (slot : Fin 64) (s : State) : Host.Outcome State Fault Refusal :=
  .next (s.onDev (tileHardwareFaultD pos slot))

end Sys2Proof.Machine
end

