-- ==== Sys2Proof/Machine/Pipeline.lean ====
section
/-!
DEFINITION. Spatial pipelines (R232–R244): the entry window, fetches and exit writes, the gate, mesh cycle boundaries, start, drain
and stop.
-/
namespace Sys2Proof.Machine

open Sys2Proof

/-! ### Entry window (R235–R238) -/

/-- W of R235: PIPE, CHANNEL, CTL, BYTE. -/
def entryPipe (off : Nat) : Nat := field off 24 8
/-- As above. -/
def entryChannel (off : Nat) : Nat := field off 20 4
/-- As above. -/
def entryCtl (off : Nat) : Bool := off.testBit 19
/-- As above. -/
def entryByte (off : Nat) : Nat := field off 0 19

/-- Whether a pipeline has stopped for its entry window: from the boundary after the stop on (R244). -/
def PipeSt.isStopped (p : PipeSt) : Bool := p.halted || p.state = 4

/-- A frame that fails a check (R236): refused, or, posted, discarded and counted against the pipeline. -/
def Dev.refuseEntry (d : Dev) (port : Nat) (f : Frame) (st backoff : Nat) : Dev :=
  let p := entryPipe f.offset.toNat
  if isPosted f.opn then
    if (d.pipe p).loaded then d.modPipe p fun x => { x with discards := x.discards + 1 } else d.countDiscard port discReserved
  else d.reply port f st backoff none

/-- Whether a descriptor holds a reserved field that is not 0 (R237, R8). -/
def reservedWord (f : Frame) : Bool := num f.payload 2 2 ≠ 0 || num f.payload 14 2 ≠ 0

/-- The rest of R237 in a channel: whether BATCH_SEQ repeats the running or last batch, and whether it is the next. -/
def repeatsSeq (b : Option Batch) (f : Frame) : Bool := match b with | some b => decide (b.seq.toNat = num f.payload 0 2) | none => false
/-- As above. -/
def nextSeq (b : Option Batch) (f : Frame) : Bool :=
  num f.payload 0 2 = match b with | some b => (b.seq.toNat + 1) % 65536 | none => 0

/-- Whether R237 answers a descriptor OUT_OF_RANGE: its record is not aligned, or no batch runs and its number neither repeats nor follows. -/
def badSeq (b : Option Batch) (f : Frame) : Bool :=
  num f.payload 8 6 % 64 ≠ 0 || !(repeatsSeq b f || nextSeq b f || (b.map (·.running)).getD false)

/-- The first row of R236 that refuses a frame, the credit of R238 left aside. -/
def Dev.entryFault (d : Dev) (f : Frame) : Option Nat :=
  let off := f.offset.toNat
  let p := entryPipe off
  let x := d.pipe p
  let data := f.opn ≠ opFLUSH && !entryCtl off
  let ctl := f.opn ≠ opFLUSH && entryCtl off
  let n := f.length.toNat
  let b := x.batchOn (entryChannel off)
  if !(f.opn = opSTORE || f.opn = opSTORE_POSTED || f.opn = opFLUSH) then some 0x09
  else if data && (f.cls ≠ .g || n = 0 || 2048 < n) then some 0x09
  else if ctl && (f.opn ≠ opSTORE || n ≠ 32 || f.cls = .b) then some 0x09
  else if x.loaded && (((x.state = 1 || x.state = 3) && !x.halted) || d.disabled x.slice.toNat 1) then some 0x07
  else if ctl && reservedWord f then some 0x09
  else if data && (entryByte off % 32 ≠ 0 || (entryByte off + n) % 32 ≠ 0) then some 0x0B
  else if !x.loaded || (d.entryQueue p (entryChannel off)).isNone || (ctl && (entryByte off ≠ 0 || badSeq b f)) then some 0x03
  else if f.key ≠ x.entryKey || f.slice ≠ x.slice then some 0x01
  else if d.isConf x.slice.toNat && !d.attested f x.slice.toNat then some 0x0A
  else if data && !(match b with | some b => (b.running || b.stopped) && b.src = f.src | none => false) then some 0x02
  else none

/-- The header word of a batch (R237). -/
def headerWord (b : Batch) : BitVec 256 :=
  BitVec.ofNat 256 (b.seq.toNat + b.src.toNat * 2 ^ 16 + b.words * 2 ^ 32 + b.param.toNat * 2 ^ 64)

/-- A batch starts (R237): its header at the head of the channel's queue; its record is written. -/
def Dev.startBatch (d : Dev) (p ch : Nat) (b : Batch) : Dev :=
  match d.entryQueue p ch with
  | none => d
  | some q =>
    let d := d.modPipe p fun x => { x with batches := (x.batches.filter fun y => y.channel ≠ ch) ++ [{ b with entered := 1 }] }
    let d := d.modStreamQ p q.pos q.port false fun q => { q with words := [headerWord b] }
    (d.pourChannel p ch).writeBatch p ch 1 0

/-- A batch descriptor that passed the rows of R236 (R237), in the order of R11. -/
def Dev.descriptor (d : Dev) (port : Nat) (f : Frame) : Dev :=
  let p := entryPipe f.offset.toNat
  let ch := entryChannel f.offset.toNat
  let x := d.pipe p
  let bs := f.payload
  let old := x.batchOn ch
  if (old.map (·.running)).getD false && !repeatsSeq old f then d.refuseEntry port f 0x08 6
  else if x.isStopped then d.refuseEntry port f 0x0D 0
  else if repeatsSeq old f then d.reply port f 0 0 none
  else
    let b : Batch := { channel := ch, seq := BitVec.ofNat 16 (num bs 0 2), words := num bs 4 4, record := BitVec.ofNat 48 (num bs 8 6),
                       key := BitVec.ofNat 64 (num bs 16 8), src := f.src, param := BitVec.ofNat 64 (num bs 24 8) }
    (d.startBatch p ch b).reply port f 0 0 none

/-- The batch position a BYTE names: the one nearest TAKEN, of those that are not below 0 (R235, R238). -/
def batchPosition (byte taken : Nat) : Nat :=
  let delta := (byte + 2 ^ 19 - taken % 2 ^ 19) % 2 ^ 19
  if delta < 2 ^ 18 || taken + delta < 2 ^ 19 then taken + delta else taken + delta - 2 ^ 19

/-- The words of a data frame put at their positions; a word already received is not written again (R238). -/
def landWords (b : Batch) (at' : Nat) (bs : List Byte) : Batch :=
  let ws := chunksOf 32 bs
  (ws.zip (upTo ws.length)).foldl (fun b e =>
    let i := at' / 32 + e.2
    if i + 1 < b.entered || b.data.any (fun x => x.1 = i) then b
    else { b with data := b.data ++ [(i, BitVec.ofNat 256 (unle e.1))] }) b

/-- A data frame of a running batch, from its source (R238). -/
def Dev.batchData (d : Dev) (port : Nat) (f : Frame) (b : Batch) : Dev :=
  let p := entryPipe f.offset.toNat
  let n := f.length.toNat
  let overrun (code backoff : Nat) : Dev :=
    if isPosted f.opn then (d.refuseEntry port f code backoff).stopPipe p pcOverrun 0x03 255 0 else d.refuseEntry port f code backoff
  let at' := batchPosition (entryByte f.offset.toNat) b.taken
  if 32 * b.words < at' + n then overrun 0x03 0
  else if b.taken + 65536 < at' + n then overrun 0x08 2
  else
    let d := (d.modBatch p b.channel fun b => landWords b at' f.payload).pourChannel p b.channel
    if isPosted f.opn then d else d.reply port f 0 0 none

/-- An operation delivered to tile port `tp` (R235, R236). -/
def Dev.tileArrive (d : Dev) (tp : Nat) (f0 : Frame) : Dev :=
  let port := 160 + tp
  if !(d.tileDie (tp / 2)).up then d
  else
    match d.takeIn port f0 with
    | (none, d) => d
    | (some f, d) =>
      let off := f.offset.toNat
      match d.entryFault f with
      | some st => d.refuseEntry port f st 0
      | none =>
        let x := d.pipe (entryPipe off)
        if f.opn = opFLUSH then d.reply port f (if x.isStopped then 0x0D else 0) 0 none
        else if entryCtl off then d.descriptor port f
        else
          match x.batchOn (entryChannel off) with
          | some b => if b.running then d.batchData port f b else d.refuseEntry port f 0x0D 0
          | none => d

/-- BATCH_DESCRIPTOR (R237). -/
def batchDescriptorD (tp : TilePort) (f : Frame) (d : Dev) : Dev := d.tileArrive tp f
/-- ENTRY_DATA (R238). -/
def entryDataD (tp : TilePort) (f : Frame) (d : Dev) : Dev := d.tileArrive tp f
/-- ENTRY_FLUSH (R236). -/
def entryFlushD (tp : TilePort) (f : Frame) (d : Dev) : Dev := d.tileArrive tp f

/-! ### Fetches and exit writes (R240) -/

/-- A request word. -/
structure ReqWord where
  offset  : Nat
  length  : Nat
  window  : Nat
  fin     : Option Nat

/-- A request word read and judged (R240): `need` is R (1) or W (2). -/
def PipeSt.request (p : PipeSt) (w : BitVec 256) (need : Nat) : Except Nat ReqWord :=
  let v := w.toNat
  let off := field v 0 48
  let len := field v 64 32
  let win := field v 96 8
  let fin := v.testBit 108
  let rsv := field v 48 16 ≠ 0 || field v 109 3 ≠ 0 || field v 112 144 ≠ 0 || (need = 1 && field v 104 8 ≠ 0)
  if rsv || off % 32 ≠ 0 || len % 32 ≠ 0 || len < 32 || 65536 < len then .error 0x09
  else
    match p.windows.find? fun x => x.window = win with
    | none => .error 0x03
    | some x =>
      if x.length < off + len then .error 0x03
      else if x.rights.toNat &&& need ≠ need then .error 0x02
      else .ok ⟨off, len, win, if fin then some (field v 104 4) else none⟩

/-- Where a byte of a window lies, by the translations of the start (R233): node, offset, key. -/
def PipeSt.place (p : PipeSt) (win off : Nat) : Option (BitVec 16 × BitVec 48 × BitVec 64) :=
  match p.windows.find? fun x => x.window = win with
  | none => none
  | some x =>
    let sva := x.base + off
    (tfind x.pages (sva / 2 ^ 29)).map fun e => (e.1, e.2.1 + BitVec.ofNat 48 (sva % 2 ^ 29), e.2.2)

/-- Bytes of the next operation of a request: up to 2,048, within one page. -/
def pieceLen (off left : Nat) : Nat := min (min 2048 left) (2 ^ 29 - off % 2 ^ 29)

/-- The pieces of a fetch: window offsets and lengths. -/
def fetchPieces (fuel off left : Nat) : List (Nat × Nat) :=
  match fuel with
  | 0 => []
  | n + 1 => if left = 0 then [] else let k := pieceLen off left; (off, k) :: fetchPieces n (off + k) (left - k)

/-- A LOAD of a fetch is issued (R240). -/
def Dev.issueFetch (d : Dev) (p pos sp win : Nat) (e : Nat × Nat) : Dev :=
  match (d.pipe p).queueAt pos sp true, (d.pipe p).queueAt pos sp false, (d.pipe p).place win e.1 with
  | some q, some inq, some (node, off, key) =>
    let d := d.modStreamQ p pos sp false fun x => { x with fetchSeq := x.fetchSeq + 1, fetches := x.fetches ++ [(inq.fetchSeq, none)] }
    d.issue q.stream { dst := node, offset := off, op := BitVec.ofNat 8 opLOAD, length := BitVec.ofNat 12 e.2, key := key }
      (.fetch pos sp inq.fetchSeq)
  | _, _, _ => d

/-- FETCH_REQUEST (R240): a request word of a FETCH_REQ queue becomes LOADs. -/
def fetchRequestD (pos : Position) (sp : Fin 2) (d : Dev) : Dev :=
  let p := (d.pos pos).pipe
  let x := d.pipe p
  match x.queueAt pos sp true with
  | none => d
  | some q =>
    match q.words with
    | [] => d
    | w :: ws =>
      if q.mode ≠ 2 || !x.active || x.halted || !d.fenceTakes q.stream false then d
      else
        let d := d.modStreamQ p pos sp true fun q => { q with words := ws }
        match x.request w 1 with
        | .error st => d.stopPipe p pcFetch st pos 0
        | .ok r => (eachOf (fetchPieces 64 r.offset r.length) d fun d e => d.issueFetch p pos sp r.window e).fenceDrained q.stream 1

/-- A write's request word taken, with the number it was queued under (R240). -/
def Dev.takeWrite (d : Dev) (p pos sp : Nat) (q : StreamQ) : Dev :=
  match q.write, q.words with
  | none, w :: ws =>
    let n := q.orders.headD 0
    let d := d.modStreamQ p pos sp true fun q => { q with words := ws, orders := q.orders.drop 1 }
    match (d.pipe p).request w 2 with
    | .error st => d.stopPipe p pcWrite st pos 0
    | .ok r =>
      (d.modStreamQ p pos sp true fun q => { q with write := some ⟨r.offset, r.length, r.window, r.fin, n⟩ }).fenceDrained q.stream 1
  | _, _ => d

/-- The next STORE of a write, once its data words are there. The last of an END write is the exit release (R99). -/
def Dev.issueWrite (d : Dev) (p pos sp : Nat) : Dev :=
  match (d.pipe p).queueAt pos sp true with
  | none => d
  | some q =>
    match q.write with
    | none => d
    | some w =>
      let k := pieceLen w.offset w.left
      match (d.pipe p).place w.window w.offset with
      | none => d
      | some (node, off, key) =>
        if q.words.length < k / 32 || !d.fenceTakes q.stream true then d
        else
          let ends := decide (k = w.left)
          let rel := ends && w.fin.isSome
          let d := d.modStreamQ p pos sp true fun q =>
            { q with words := q.words.drop (k / 32),
                     write := if ends then none else some { w with offset := w.offset + k, left := w.left - k } }
          let d := match w.fin with
            | some ch => if ends then d.modBatch p ch fun b => { b with ending := some w.seq } else d
            | none => d
          (d.issue q.stream { dst := node, offset := off, op := BitVec.ofNat 8 opSTORE, length := BitVec.ofNat 12 k, key := key,
                              payload := (q.words.take (k / 32)).flatMap (fun w => le 32 w.toNat),
                              ord := if rel then .release else .relaxed, scope := if rel then .fabric else .tile }
            (.write p w.seq)).fenceDrained q.stream (k / 32)

/-- WRITE_REQUEST (R240). -/
def writeRequestD (pos : Position) (sp : Fin 2) (d : Dev) : Dev :=
  let p := (d.pos pos).pipe
  let x := d.pipe p
  match x.queueAt pos sp true with
  | none => d
  | some q =>
    if q.mode ≠ 3 || !x.active || x.halted || x.stopping then d
    else (if d.fenceTakes q.stream true then d.takeWrite p pos sp q else d).issueWrite p pos sp

/-- Whether a write that was queued up to number `e` has not completed: its STOREs are out, its data is being taken, or its request word still
stands in a queue. -/
def Dev.writesLeft (d : Dev) (p e : Nat) : Bool :=
  (d.req.ops.any fun o => match o.why with | .write q n => q = p && n ≤ e | _ => false) ||
  (d.pipe p).queues.any fun q => (match q.write with | some w => decide (w.seq ≤ e) | none => false) || q.orders.any fun n => n ≤ e

/-- BATCH_END (R240): every write queued before the END write, and that one, has completed; the record is written done. -/
def batchEndD (p : Pipe) (ch : Fin 16) (d : Dev) : Dev :=
  match (d.pipe p).batchOn ch with
  | none => d
  | some b =>
    match b.ending with
    | none => d
    | some e =>
      if !b.running || d.writesLeft p e then d
      else
        let d := d.modBatch p ch fun b => { b with running := false, data := [] }
        (d.modPipe p fun x => { x with batchesDone := x.batchesDone + 1 }).writeBatch p ch 2 0

/-! ### The gate (R241) -/

/-- Whether an in-queue's source is finished (R241). -/
def PipeSt.sourceDone (p : PipeSt) (q : StreamQ) : Bool :=
  if q.mode = 0 then
    match p.batchOn q.channel with
    | some b => !b.running || batchTotal b q.budget ≤ b.entered
    | none => true
  else
    q.fetches.isEmpty && (match p.queueAt q.pos q.port true with | some r => r.words.isEmpty | none => true)

/-- Whether a queue holds the pipeline's next mesh cycle (R241). -/
def PipeSt.queueHolds (p : PipeSt) (q : StreamQ) : Bool :=
  if q.out then queueWords - q.words.length < q.budget
  else
    let need := q.budget + (if p.gateHeld then 0 else q.budget - q.used)
    (q.words.length < need && !p.sourceDone q) ||
      (q.mode = 0 && q.words.isEmpty && !((p.batchOn q.channel).map (·.running)).getD false)

/-- Whether power holds a mesh cycle (R387, R388): level n holds the first n of every four. -/
def Dev.powerHold (d : Dev) (cycle : Nat) : Bool := cycle % 4 < d.throttle

/-- GATE_HOLD perturbations of a pipeline (R420 kind 11): the first PARAM_A of every PARAM_B mesh cycles. -/
def Dev.gatePerturbed (d : Dev) (p : Nat) : Bool × Dev :=
  (d.active 11 (obj 0x12 p)).foldl (fun (acc : Bool × Dev) i =>
    let x := acc.2.perturb i
    let hold := decide (x.cw % max 1 x.paramB.toNat < x.paramA.toNat)
    let d := acc.2.modPerturb i fun x => { x with cw := x.cw + 1 }
    (acc.1 || hold, if hold then d.applied i else d)) (false, d)

/-- The gate's decision for the next mesh cycle. -/
def Dev.decideGate (d : Dev) (p : Nat) : Dev :=
  let x := d.pipe p
  let byQueue := x.queues.any x.queueHolds
  let (pert, d) := d.gatePerturbed p
  let byPower := d.powerHold (d.tiles.meshCycle + 1) || pert
  d.modPipe p fun x => { x with gateNext := byQueue || byPower, powerNext := byPower }

/-- GATE_DECISION (R241). -/
def gateDecisionD (p : Pipe) (d : Dev) : Dev :=
  if (d.pipe p).active && !(d.pipe p).stopping then d.decideGate p else d

/-! ### Mesh cycle boundaries (R211, R231, R234, R244) -/

/-- Slot buffers at a boundary: delays count only mesh cycles that ran; a delivery nobody received is dropped (R211, R242). -/
def PosSt.turnWords (x : PosSt) (held : Nat → Bool) : PosSt :=
  { x with words := x.words.filterMap fun w =>
      if held w.pipe then some w
      else if w.left = 0 then (if w.output = 0 then none else some w)
      else some { w with left := w.left - 1 } }

/-- A pipeline enters a mesh cycle as its gate decided, run or held (R211): the cycle counts for it and for its positions. -/
def Dev.enterCycle (d : Dev) (p : Nat) : Dev :=
  let x := d.pipe p
  let held := x.gateNext
  let d := d.modPipe p fun x =>
    { x with gateHeld := held, heldBefore := x.gateHeld, gateNext := true, queues := x.queues.map fun q => { q with used := 0 },
             meshCycles := if held then x.meshCycles else x.meshCycles + 1,
             heldCycles := if held then x.heldCycles + 1 else x.heldCycles }
  eachOf x.positions d fun d pos =>
    d.modPos pos fun y =>
      if y.pipe = p && (y.state = 2 || y.state = 3) then
        { y with state := if held then 3 else 2, cycles := if held then y.cycles else y.cycles + 64,
                 heldCycles := if held then y.heldCycles + 64 else y.heldCycles }
      else y

/-- A mesh cycle boundary for a pipeline (R211, R244). -/
def Dev.turnPipe (d : Dev) (p : Nat) : Dev :=
  let x := d.pipe p
  if x.halted || !(x.active || x.stopping) then d else if x.stopping then d.haltPipe p else d.enterCycle p

/-- MESH_CYCLE_BOUNDARY (R211). -/
def meshCycleBoundaryD (d : Dev) : Dev :=
  let held (p : Nat) : Bool := (d.pipe p).gateHeld
  let ps := tmap d.tiles.positions fun _ x => if x.words.isEmpty then x else x.turnWords held
  let d := { d with tiles := { d.tiles with positions := ps, meshCycle := d.tiles.meshCycle + 1 } }
  let d := eachOf (tkeys d.tiles.pipes fun _ _ => true) d Dev.turnPipe
  eachOf (tkeys d.tiles.pipes fun _ x => x.unloading.isSome) d fun d p =>
    match (d.pipe p).unloading with
    | some id => (d.unloadPipe p).finishWait id 0 0
    | none => d

/-- PIPELINE_STALL (R241): the gate has held for STALL_US, not for power, while a batch runs. -/
def pipelineStallD (p : Pipe) (d : Dev) : Dev :=
  let x := d.pipe p
  if x.gateHeld && !x.powerNext && x.batches.any (·.running) then d.stopPipe p pcStall 0x05 255 0 else d

/-- A start is refused (R233): it holds nothing. -/
def Dev.refuseStart (d : Dev) (p st det : Nat) : Dev :=
  match (d.pipe p).starting with
  | some id =>
    let d := d.modPipe p fun x => { x with starting := none, windows := x.windows.map fun w => { w with pages := [] } }
    d.finishWait id st det
  | none => d

/-- PIPELINE_STOP_COMPLETE (R244): the last STORE sent has ended; a start that the pipeline waited for ends with it (R234). Where the tile function was disabled the pipeline is unloaded (R368). -/
def pipelineStopCompleteD (p : Pipe) (d : Dev) : Dev :=
  let x := d.pipe p
  if x.state ≠ 4 && x.halted && !d.pipeBusy p then
    if x.dropping then (d.releasePipe p).unloadPipe p
    else ((d.releasePipe p).refuseStart p 0x40 noDetail).modPipe p fun x => { x with state := 4, stopping := false }
  else d

/-- DRAIN_COMPLETE (R234); a drain pauses during a handover (R406). -/
def drainCompleteD (p : Pipe) (d : Dev) : Dev :=
  if d.host.handover then d
  else
  let x := d.pipe p
  let empty (q : StreamQ) : Bool := q.words.isEmpty && q.fetches.isEmpty && q.write.isNone
  if x.state = 3 && !x.stopping && !x.batches.any (·.running) && x.queues.all empty && !d.pipeBusy p then
    let d := (d.releasePipe p).modPipe p fun x => { x with state := 1, gateHeld := true, gateNext := true }
    eachOf x.positions d fun d pos => d.modPos pos fun y => if y.pipe = p.val then { y with state := 1 } else y
  else d

/-- DRAIN_TIMEOUT (R234): a drain that overran STALL_US, which a handover extends (R406). -/
def drainTimeoutD (p : Pipe) (d : Dev) : Dev := if (d.pipe p).state = 3 && !d.host.handover then d.stopPipe p pcStall 0x05 255 0 else d

/-! ### Start (R233) -/

/-- Pages of a window. -/
def windowPages (w : PipeWindow) : List Nat := (upTo (w.length / 2 ^ 29)).map (w.base / 2 ^ 29 + ·)

/-- The tile die whose stream unit translates for a pipeline: that of its first stream port. -/
def PipeSt.unit (p : PipeSt) : Nat :=
  match p.queues.find? fun q => q.mode = 2 || q.mode = 3 with
  | some q => streamUnit (tileDieOf q.pos)
  | none => streamUnit (tileDieOf (p.positions.headD 0))

/-- A translation that has come for a pipeline's windows: its entry where it grants the rights, else the window that fails. -/
def takePage (p : PipeSt) (x : XEntry) (page : Nat) : Except Nat PipeSt :=
  match p.windows.find? fun w => (windowPages w).contains page && !x.grants w.rights.toNat with
  | some w => .error w.window
  | none =>
    .ok { p with windows := p.windows.map fun w =>
      if (windowPages w).contains page then { w with pages := tset w.pages page (x.target page) } else w }

/-- The pairs of switch ports a window's traffic uses (R233): every stream port with every pool port, or with the torus or edge port
towards the node. -/
def Dev.windowPairs (d : Dev) (p : Nat) (w : PipeWindow) : List (Nat × Nat) :=
  let x := d.pipe p
  let ports := ((x.queues.filter fun q => q.mode = 2 || q.mode = 3).map swPort).eraseDups
  let outs (ip : Nat) : List Nat := (w.pages.flatMap fun e =>
    if e.2.1.toNat = d.node && inPool e.2.2.1.toNat then (upTo 16).map (144 + ·)
    else
      let f : Frame := { dst := e.2.1, src := BitVec.ofNat 16 d.node, offset := e.2.2.1, cls := .g, op := BitVec.ofNat 8 opSTORE }
      match (d.routeFrame ip { f with inter := (d.pickInter f).1 }).1 with
      | .out q _ => [q]
      | .hold q _ => [q]
      | .own g => match d.ownPlace 0 g with | .port q => [q] | _ => []
      | .dead => []).eraseDups
  ports.flatMap fun ip => (outs ip).map fun o => (ip, o)

/-- The reservations of a start (R233 step 2): input, output, flits. -/
def Dev.startPairs (d : Dev) (p : Nat) : List (Nat × Nat × Nat) :=
  let x := d.pipe p
  let wins := x.windows.flatMap fun w =>
    let ps := d.windowPairs p w
    (ps.map fun e => (e.1, e.2, ceilDiv w.reqFlits ps.length)) ++ ps.map fun e => (e.2, e.1, ceilDiv w.rspFlits ps.length)
  let ext := tkeys d.ports fun n s => n < 144 && (s.kind = 1 || s.kind = 2)
  let entries := (x.queues.filter fun q => q.mode = 0).flatMap fun q => ext.map fun o => (swPort q, o, q.rspFlits)
  (wins ++ entries).filter fun e => e.2.2 ≠ 0

/-- A stream context per stream port direction (R233 step 3). -/
def Dev.openQueues (d : Dev) (p : Nat) (slice : Nat) (qs : List StreamQ) : Option (List StreamQ × Dev) :=
  match qs with
  | [] => some ([], d)
  | q :: r =>
    match d.openStream (4 + tileDieOf q.pos) .g slice 20 2 (b2n q.swport) with
    | none => none
    | some (n, d) =>
      match Dev.openQueues d p slice r with
      | none => none
      | some (l, d) => some ({ q with stream := n, words := [], used := 0, fetches := [], write := none, due := 0, orders := [] } :: l, d)

/-- Every position of a pipeline at instruction 0, with a random value mixed in (R233 steps 4 and 5, R200). -/
def Dev.startPositions (d : Dev) (p : Nat) : Dev :=
  eachOf (d.pipe p).positions d fun d pos =>
    let (r, d) := d.draw
    d.modPos pos fun y =>
      if y.pipe = p && y.state = 1 then { y with state := 2, index := 0, loops := [], bankUses := [], random := r } else y

/-- Reservations, contexts and start of a pipeline whose translations have come. -/
def Dev.goPipe (d : Dev) (p id : Nat) : Dev :=
  let x := d.pipe p
  match d.reserveAll 3 p x.slice.toNat (d.startPairs p) with
  | none => d.refuseStart p 0x42 noDetail
  | some d1 =>
    match Dev.openQueues d1 p x.slice.toNat x.queues with
    | none => d.refuseStart p 0x42 noDetail
    | some (qs, d2) =>
      let d := d2.modPipe p fun x =>
        { x with queues := qs, starting := none, state := 2, cause := 0, status := 0, batches := [], meshCycles := 0, heldCycles := 0,
                 gateHeld := true, stopping := false, halted := false }
      (((d.decideGate p).startPositions p).enterCycle p).finishWait id 0 0

/-- PIPE_START_COMPLETE (R233): once every window page is translated. -/
def pipeStartCompleteD (p : Pipe) (d : Dev) : Dev :=
  let x := d.pipe p
  match x.starting with
  | none => d
  | some id =>
    if x.stopping || x.state ≠ 1 then d.refuseStart p 0x40 noDetail
    else if x.windows.all fun w => (windowPages w).all fun g => (tfind w.pages g).isSome then d.goPipe p id
    else d

/-- Meaning of BATCH_DESCRIPTOR. -/
def execBatchDescriptor (tp : TilePort) (f : Frame) (s : State) : Host.Outcome State Fault Refusal := .next (s.onDev (batchDescriptorD tp f))
/-- Meaning of ENTRY_DATA. -/
def execEntryData (tp : TilePort) (f : Frame) (s : State) : Host.Outcome State Fault Refusal := .next (s.onDev (entryDataD tp f))
/-- Meaning of ENTRY_FLUSH. -/
def execEntryFlush (tp : TilePort) (f : Frame) (s : State) : Host.Outcome State Fault Refusal := .next (s.onDev (entryFlushD tp f))
/-- Meaning of FETCH_REQUEST. -/
def execFetchRequest (pos : Position) (sp : Fin 2) (s : State) : Host.Outcome State Fault Refusal := .next (s.onDev (fetchRequestD pos sp))
/-- Meaning of WRITE_REQUEST. -/
def execWriteRequest (pos : Position) (sp : Fin 2) (s : State) : Host.Outcome State Fault Refusal := .next (s.onDev (writeRequestD pos sp))
/-- Meaning of BATCH_END. -/
def execBatchEnd (pipe : Pipe) (ch : Fin 16) (s : State) : Host.Outcome State Fault Refusal := .next (s.onDev (batchEndD pipe ch))
/-- Meaning of GATE_DECISION. -/
def execGateDecision (pipe : Pipe) (s : State) : Host.Outcome State Fault Refusal := .next (s.onDev (gateDecisionD pipe))
/-- Meaning of MESH_CYCLE_BOUNDARY. -/
def execMeshCycleBoundary (s : State) : Host.Outcome State Fault Refusal := .next (s.onDev meshCycleBoundaryD)
/-- Meaning of PIPELINE_STALL. -/
def execPipelineStall (pipe : Pipe) (s : State) : Host.Outcome State Fault Refusal := .next (s.onDev (pipelineStallD pipe))
/-- Meaning of DRAIN_COMPLETE. -/
def execDrainComplete (pipe : Pipe) (s : State) : Host.Outcome State Fault Refusal := .next (s.onDev (drainCompleteD pipe))
/-- Meaning of DRAIN_TIMEOUT. -/
def execDrainTimeout (pipe : Pipe) (s : State) : Host.Outcome State Fault Refusal := .next (s.onDev (drainTimeoutD pipe))
/-- Meaning of PIPELINE_STOP_COMPLETE. -/
def execPipelineStopComplete (pipe : Pipe) (s : State) : Host.Outcome State Fault Refusal := .next (s.onDev (pipelineStopCompleteD pipe))
/-- Meaning of PIPE_START_COMPLETE. -/
def execPipeStartComplete (pipe : Pipe) (s : State) : Host.Outcome State Fault Refusal := .next (s.onDev (pipeStartCompleteD pipe))

end Sys2Proof.Machine
end

