-- ==== Sys2Proof/Machine/LastLoad.lean ====
section
/-!
DEFINITION. Stage images (lasts): their layout (R218–R225), the checks of a load (R226–R230), LAST_LOAD and LAST_LOAD_COMPLETE
(R231), the pipeline commands (R233, R234), POSITION_READ (R216).
-/
namespace Sys2Proof.Machine

open Sys2Proof

/-! ### Layout (R218–R225) -/

/-- A directory entry (R220). -/
structure LastEntry where
  type : Nat
  pos  : Nat
  rsv  : Nat
  off  : Nat
  size : Nat
  crc  : Nat

/-- A stage record (R221). -/
structure StageRec where
  pos     : Nat
  stageId : Nat
  base    : Nat
  size    : Nat
  seed    : Nat
  code    : List Byte

/-- A route entry with its router (R223); `fields` tells whether its fields are in range. -/
structure RouteRec where
  router : Nat
  route  : Route
  fields : Bool

/-- TOTAL_SIZE. -/
def lastTotal (bs : List Byte) : Nat := num bs 8 4
/-- SECTIONS. -/
def lastSections (bs : List Byte) : Nat := num bs 12 2
/-- POSITIONS. -/
def lastPositions (bs : List Byte) : Nat := num bs 14 1

/-- Whether a header passes (R219, R226, R228). -/
def lastHeaderOk (bs : List Byte) : Bool :=
  let t := lastTotal bs
  num bs 0 4 = 0x5453414C && num bs 4 2 = 1 && num bs 6 1 = 1 && num bs 60 4 = crc32c (cut bs 0 60) &&
  t % 64 = 0 && 128 ≤ t && t ≤ 268435456 && 1 ≤ lastSections bs && lastSections bs ≤ 4096 && 1 ≤ lastPositions bs &&
  lastPositions bs ≤ 192 && num bs 7 1 = 0 && num bs 15 1 = 0 && allZero (cut bs 28 32)

/-- The directory. -/
def lastDir (bs : List Byte) : List LastEntry :=
  (upTo (lastSections bs)).map fun i =>
    let a := 64 + 16 * i
    ⟨num bs a 1, num bs (a + 1) 1, num bs (a + 2) 2, num bs (a + 4) 4, num bs (a + 8) 4, num bs (a + 12) 4⟩

/-- A section's bytes. -/
def sectionBytes (bs : List Byte) (e : LastEntry) : List Byte := cut bs e.off e.size

/-- The bytes of a last past its header, which pass through the check-value unit (R228). -/
def lastBody (bs : List Byte) : List Byte := cut bs 64 (lastTotal bs - 64)

/-- Whether the body's checks hold (R228): BODY_CRC, POLY 0 of the unit, and each SECTION_CRC. -/
def lastCrcsOk (bs : List Byte) : Bool :=
  num bs 24 4 = checkValue 0 (lastBody bs) && (lastDir bs).all fun e => e.crc = checkValue 0 (sectionBytes bs e)

/-- Whether a relation holds between any two elements, the earlier first. -/
def pairwise {α : Type} (p : α → α → Bool) (l : List α) : Bool :=
  match l with
  | [] => true
  | a :: r => r.all (p a) && pairwise p r

/-- Whether the directory passes (R220, R229): ranges, no overlap, counts, positions. -/
def lastDirOk (bs : List Byte) : Bool :=
  let dir := lastDir bs
  let one (e : LastEntry) : Bool :=
    e.rsv = 0 && 1 ≤ e.type && e.type ≤ 5 && e.off % 64 = 0 && 64 + 16 * lastSections bs ≤ e.off && e.off + e.size ≤ lastTotal bs &&
    (if e.type ≤ 3 then e.pos < 200 else e.pos = 255)
  let apart (a b : LastEntry) : Bool := a.off + a.size ≤ b.off || b.off + b.size ≤ a.off
  let single (a b : LastEntry) : Bool := a.type ≠ b.type || a.type = 2 || a.pos ≠ b.pos
  dir.all one && pairwise (fun a b => apart a b && single a b) dir &&
    (dir.filter fun e => e.type = 1).length = lastPositions bs

/-- The stage records with their code. -/
def lastStages (bs : List Byte) : List StageRec :=
  ((lastDir bs).filter fun e => e.type = 1).map fun e =>
    let s := sectionBytes bs e
    ⟨num s 0 1, num s 2 2, num s 8 4, num s 12 4, num s 16 8, cut s 64 (num s 4 4)⟩

/-- Whether a STAGE section passes (R221). -/
def stageOk (bs : List Byte) (e : LastEntry) : Bool :=
  let s := sectionBytes bs e
  let code := num s 4 4
  64 ≤ e.size && num s 0 1 = e.pos && num s 1 1 = 0 && allZero (cut s 24 40) && 16 ≤ code && code ≤ 262144 && code % 16 = 0 &&
  e.size = 64 + code && num s 8 4 % 65536 = 0 && num s 12 4 % 65536 = 0 && 65536 ≤ num s 12 4 && num s 8 4 + num s 12 4 ≤ 2 ^ 24

/-- The DATA sections: position, target offset, contents (R222). -/
def lastData (bs : List Byte) : List (Nat × Nat × List Byte) :=
  ((lastDir bs).filter fun e => e.type = 2).map fun e => (e.pos, num bs e.off 3, cut bs (e.off + 8) (e.size - 8))

/-- Whether the DATA sections pass (R220, R222). -/
def dataOk (bs : List Byte) : Bool :=
  let stages := lastStages bs
  let one (e : LastEntry) : Bool :=
    let at' := num bs e.off 8
    let n := e.size - 8
    8 ≤ e.size && n % 64 = 0 && at' < 2 ^ 24 && at' % 64 = 0 &&
      stages.any fun s => s.pos = e.pos && s.base ≤ at' && at' + n ≤ s.base + s.size
  let apart (a b : Nat × Nat × List Byte) : Bool :=
    a.1 ≠ b.1 || a.2.1 + a.2.2.length ≤ b.2.1 || b.2.1 + b.2.2.length ≤ a.2.1
  ((lastDir bs).filter fun e => e.type = 2).all one && pairwise apart (lastData bs)

/-- The route entries (R223). -/
def lastRoutes (bs : List Byte) : List RouteRec :=
  ((lastDir bs).filter fun e => e.type = 3).flatMap fun e =>
    (upTo (e.size / 4)).map fun i =>
      let w := num bs (e.off + 4 * i) 4
      let r : Route := { input := field w 29 3, output := field w 26 3, slot := field w 20 6, delay := field w 14 6, pipe := 0 }
      ⟨e.pos, r, r.input ≤ 4 && r.output ≤ 4 && 2 ≤ r.delay && field w 0 14 = 0⟩

/-- Whether the route entries have the form of R223. -/
def routesForm (bs : List Byte) : Bool :=
  (((lastDir bs).filter fun e => e.type = 3).all fun e => e.size % 4 = 0 && e.size ≤ 1280) && (lastRoutes bs).all (·.fields)

/-- Whether every route entry's next hop passes (R230): the rows past those on collisions. -/
def routesLead (bs : List Byte) : Bool :=
  let rs := lastRoutes bs
  let hasStage (pos : Nat) : Bool := (lastStages bs).any fun s => s.pos = pos
  let onward (x : RouteRec) : Bool :=
    if x.route.output = 0 then hasStage x.router
    else
      match neighbour x.router x.route.output with
      | none => false
      | some n => rs.any fun y =>
          y.router = n && y.route.input = backLink x.route.output && y.route.slot = (x.route.leaves + hopSlots x.router n) % 64
  rs.all fun x => onward x && (x.route.input ≠ 0 || hasStage x.router)

/-- Whether two route entries of one router clash (R230): input and arrival slot, or output and departure slot. -/
def routesClash (a b : Route) : Bool :=
  (a.input = b.input && a.slot = b.slot) || (a.output = b.output && a.leaves = b.leaves)

/-- Whether the last's routes clash among themselves or with a loaded pipeline's (R230). -/
def Dev.routesCollide (d : Dev) (bs : List Byte) : Bool :=
  let rs := lastRoutes bs
  !(pairwise (fun (a b : RouteRec) => a.router ≠ b.router || !routesClash a.route b.route) rs) ||
    rs.any fun x => (d.pos x.router).routes.any fun y => routesClash x.route y

/-- The stream records (R224), and whether their fields are in range. -/
def lastStreams (bs : List Byte) : List (StreamQ × Bool) :=
  ((lastDir bs).filter fun e => e.type = 4).flatMap fun e =>
    (upTo (e.size / 16)).map fun i =>
      let a := e.off + 16 * i
      let b1 := num bs (a + 1) 1
      let mode := num bs (a + 2) 1
      let ch := num bs (a + 3) 1
      let budget := num bs (a + 4) 2
      let rsp := num bs (a + 6) 2
      let q : StreamQ := { pos := num bs a 1, port := b1 % 2, out := b1.testBit 1, mode := mode, channel := ch, swport := b1.testBit 2,
                           budget := budget, rspFlits := rsp }
      (q, b1 < 8 && (if q.out then mode = 2 || mode = 3 else mode ≤ 1) && (if mode = 0 then ch ≤ 15 else ch = 0 && rsp = 0) &&
        1 ≤ budget && budget ≤ 64 && allZero (cut bs (a + 8) 8))

/-- Whether the streams pass (R229). -/
def streamsOk (bs : List Byte) : Bool :=
  let qs := (lastStreams bs).map (·.1)
  let has (q : StreamQ) (mode : Nat) : Bool := qs.any fun y => y.pos = q.pos && y.port = q.port && y.mode = mode
  (((lastDir bs).filter fun e => e.type = 4).all fun e => e.size % 16 = 0) && (lastStreams bs).all (·.2) &&
    (qs.all fun q => (lastStages bs).any fun s => s.pos = q.pos) &&
    pairwise (fun (a b : StreamQ) => !(a.pos = b.pos && a.port = b.port && a.out = b.out) &&
      !(a.mode = 0 && b.mode = 0 && a.channel = b.channel)) qs &&
    qs.all fun q => (q.mode ≠ 1 || has q 2) && (q.mode ≠ 2 || has q 1)

/-- The window records (R225), and whether their fields are in range. -/
def lastWindows (bs : List Byte) : List (PipeWindow × Bool) :=
  ((lastDir bs).filter fun e => e.type = 5).flatMap fun e =>
    (upTo (e.size / 32)).map fun i =>
      let a := e.off + 32 * i
      let base := num bs a 8
      let len := num bs (a + 8) 8
      let rights := num bs (a + 17) 1
      let w : PipeWindow := { base := base, length := len, window := num bs (a + 16) 1, rights := BitVec.ofNat 3 rights,
                              reqFlits := num bs (a + 18) 2, rspFlits := num bs (a + 20) 2 }
      (w, base < 2 ^ 57 && len < 2 ^ 57 && base + len ≤ 2 ^ 57 && base % 2 ^ 29 = 0 && len % 2 ^ 29 = 0 && w.window ≤ 31 && rights < 8 &&
        allZero (cut bs (a + 22) 10))

/-- Whether the windows pass (R229). A request word could name a window that does not exist where a pipeline that fetches or writes has no window at
all: which window a word names is known only as the stage sends it, so that no other last is refused for it (DESIGN CHOICE, log 210). -/
def windowsOk (bs : List Byte) : Bool :=
  let ws := (lastWindows bs).map (·.1)
  let asks := (lastStreams bs).any fun q => q.1.out
  (((lastDir bs).filter fun e => e.type = 5).all fun e => e.size % 32 = 0) && (lastWindows bs).all (·.2) &&
    pairwise (fun (a b : PipeWindow) => a.window ≠ b.window) ws &&
    (ws.map fun w => w.length / 2 ^ 29).foldl (· + ·) 0 ≤ 4096 && (!asks || !ws.isEmpty)

/-- Whether the module can serve a last's positions now (R229). -/
def Dev.positionsFree (d : Dev) (bs : List Byte) : Bool :=
  ((lastDir bs).filter fun e => e.type = 1).all fun e => (d.pos e.pos).state = 0 && (d.pos e.pos).servedBy ≠ 2

/-- The checks of R229 past the header, in the order of its rows and of the rules of R230 (R308): the code of the first that fails. -/
def Dev.lastFault (d : Dev) (bs : List Byte) : Option Nat :=
  let stages := (lastDir bs).filter fun e => e.type = 1
  if !lastCrcsOk bs then some 0x46
  else if !lastDirOk bs then some 0x43
  else if stages.any fun e => isPassThrough e.pos then some 0x43
  else if !d.positionsFree bs then some 0x40
  else if !(stages.all fun e => stageOk bs e) || !dataOk bs then some 0x43
  else if !routesForm bs then some 0x43
  else if d.routesCollide bs then some 0x41
  else if !routesLead bs then some 0x43
  else if !streamsOk bs then some 0x43
  else if !windowsOk bs then some 0x43
  else if 192 ≤ d.tiles.pipes.length then some 0x42
  else none

/-! ### Commands on slices, common checks -/

/-- Whether a command may name a slice for its work: the system slice, or an active one (R40, R319). -/
def Dev.sliceLive (d : Dev) (i : Nat) : Bool := i = 0 || (d.slice i).state = 1

/-- What ends work for a slice (R11): torn down, then disabled function `fn`. -/
def Dev.sliceEnded (d : Dev) (i fn : Nat) : Option Nat :=
  if d.tornDown i && i ≠ 0 then some 0x0C else if d.disabled i fn then some 0x07 else none

/-- A read of pool memory for a command under a slice and a key (R34, R257, R258): the bytes, or the refusal. -/
def Dev.poolRead (d : Dev) (slice : Nat) (key off n : Nat) (ecc : List (Nat × Ecc)) : Except Nat (List Byte) × Dev :=
  let f : Frame := { dst := BitVec.ofNat 16 d.node, src := BitVec.ofNat 16 d.node, offset := BitVec.ofNat 48 off,
                     op := BitVec.ofNat 8 opLOAD, key := BitVec.ofNat 64 key, slice := BitVec.ofNat 10 slice, conf := true }
  if d.pool.state = 0 || d.disabled slice 3 then (.error 0x07, d)
  else if off + n > 2 ^ 48 then (.error 0x03, d)
  else
    match d.judge f n with
    | .error (st, _) => (.error st, d)
    | .ok (_, r) =>
      let (x, d) := d.readLines (BitVec.ofNat 10 slice) (d.regionCipher r) ecc (linesOf off n)
      (x.map fun bs => cut bs (off % 64) n, d)

/-! ### LAST_LOAD (R228–R231) -/

/-- The first `n` bytes of a last from its source (R228): the pool, or host memory through the translation cache (R50, R52). -/
def Dev.lastRead (d : Dev) (c : Cmd) (slice n : Nat) (ecc : List (Nat × Ecc)) : Except Nat (List Byte) × Dev :=
  if c.u 18 1 ≠ 0 then d.poolRead slice (c.u 32 8) (c.u 24 8) n ecc
  else
    match d.hostPages (c.u 24 8) n false c.ats with
    | (some _, d) => (if c.host.translates then .ok (padTo n c.host.bytes) else .error 0x02, d)
    | (none, d) => (.error 0x02, d)

/-- The bytes of a last: header first, then the whole file. -/
def Dev.lastBytes (d : Dev) (c : Cmd) (slice : Nat) (ecc : List (Nat × Ecc)) : Except Nat (List Byte) × Dev :=
  match d.lastRead c slice 64 [] with
  | (.error e, d) => (.error e, d)
  | (.ok h, d) => if lastHeaderOk h then d.lastRead c slice (lastTotal h) ecc else (.error 0x46, d)

/-- LAST_LOAD (R229): judged, and held for the next mesh cycle boundary. -/
def lastLoadBody (ecc : List (Nat × Ecc)) (c : Cmd) (id _role : Nat) (d : Dev) : Answer × Dev :=
  let slice := c.u 16 2 % 1024
  match d.sliceEnded slice 1 with
  | some s => (.refuse s 16, d)
  | none =>
    if 1024 ≤ c.u 16 2 then (.refuse 0x09 16, d)
    else if 1 < c.u 18 1 then (.refuse 0x09 18, d)
    else if !d.sliceLive slice then (.refuse 0x03 16, d)
    else if d.isConf slice && (d.slotOf slice).isNone then (.refuse 0x0A 16, d)
    else
      match d.lastBytes c slice ecc with
      | (.error s, d) => (.denied s 24, d)
      | (.ok bs, d) =>
        let (_, _, d) := d.streamJob (BitVec.ofNat 10 slice) 0 0 (lastBody bs)
        let dg := Config.sha384 bs
        if d.isConf slice && !(((d.releaseOf slice).map fun r => r.lasts.contains dg).getD false) then (.denied 0x0A noDetail, d)
        else
          match d.lastFault bs with
          | some s => (.denied s noDetail, d)
          | none => (.wait, { d with tiles := { d.tiles with loading := some ⟨BitVec.ofNat 10 slice, bs, id, dg⟩ } })

/-- LAST_LOAD. -/
def lastLoadD (c : Cmd) (ecc : List (Nat × Ecc)) (d : Dev) : Dev :=
  d.runCmd { op := 0x0710, roles := [1], cls := some 0x12, used := [(16, 19), (24, 40)] } c (lastLoadBody ecc)

/-- A stage written into its position (R231). -/
def Dev.placeStage (d : Dev) (p : Nat) (slice : BitVec 10) (bs : List Byte) (s : StageRec) : Dev :=
  let ds := (lastData bs).filter fun e => e.1 = s.pos
  d.modPos s.pos fun x =>
    { x with state := 1, slice := slice, pipe := p, stageId := s.stageId, sramBase := s.base, sramSize := s.size,
             srSeed := BitVec.ofNat 64 s.seed, cycles := 0, heldCycles := 0, index := 0,
             istore := memWrites [] 0 s.code, sram := ds.foldl (fun m e => memWrites m e.2.1 e.2.2) [] }

/-- The lowest free pipeline number (R231). -/
def Dev.freePipe (d : Dev) : Nat := ((List.range' 1 192).find? fun n => (tfind d.tiles.pipes n).isNone).getD 0

/-- A load takes effect (R231). -/
def Dev.placeLast (d : Dev) (l : LoadedLast) : Dev :=
  let p := d.freePipe
  let bs := l.bytes
  let d := eachOf (lastStages bs) d fun d s => d.placeStage p l.slice bs s
  let d := eachOf (lastRoutes bs) d fun d x => d.modPos x.router fun y => { y with routes := y.routes ++ [{ x.route with pipe := p }] }
  let x : PipeSt := { state := 1, slice := l.slice, lastCrc := BitVec.ofNat 32 (num bs 24 4), build := BitVec.ofNat 64 (num bs 16 8),
                      positions := (lastStages bs).map (·.pos), queues := (lastStreams bs).map (·.1), windows := (lastWindows bs).map (·.1) }
  let d := { d with tiles := { d.tiles with pipes := tset d.tiles.pipes p x } }
  let d := if d.isConf l.slice.toNat then
      d.modSlice l.slice.toNat fun s => { s with measure := Config.sha384 (le 48 s.measure.toNat ++ le 48 l.digest.toNat) }
    else d
  d.finishInst l.reply p

/-- LAST_LOAD_COMPLETE (R231): at a mesh cycle boundary. What has happened to the slice or the positions since the checks ends the
load. -/
def loadCompleteD (d : Dev) : Dev :=
  match d.tiles.loading with
  | none => d
  | some l =>
    let d := { d with tiles := { d.tiles with loading := none } }
    match d.sliceEnded l.slice.toNat 1 with
    | some s => d.finishWait l.reply s noDetail
    | none => if d.positionsFree l.bytes then d.placeLast l else d.finishWait l.reply 0x40 noDetail

/-- A TILE_OFFLINE drill is over once its position is loaded again (R379). -/
def Dev.drillsReloaded (d : Dev) : Dev :=
  let back (x : Drill) : Drill :=
    if x.kind = 3 && x.state = 2 && (d.pos (x.target.toNat % 2 ^ 24)).state = 1 then { x with state := 1 } else x
  { d with test := { d.test with drills := tmap d.test.drills fun _ x => back x } }

/-- LAST_LOAD_COMPLETE (R231). -/
def lastLoadCompleteD (d : Dev) : Dev := (loadCompleteD d).drillsReloaded

/-! ### Pipeline commands (R233, R234) -/

/-- A form of the pipeline commands: object 0x12, instance 1–192, no parameters. -/
def pipeForm (op : Nat) : Form := { op := op, roles := [1], cls := some 0x12, lo := 1, hi := 192 }

/-- The lookups of a start (R233 step 1): what is found is taken, what is not is walked. -/
def Dev.startLookups (d : Dev) (p : Nat) (pages : List Nat) : Except Nat Dev :=
  match pages with
  | [] => .ok d
  | g :: r =>
    let x := d.pipe p
    match d.lookup x.unit x.slice.toNat g with
    | (some e, d) =>
      match takePage x e g with
      | .error w => .error w
      | .ok y => Dev.startLookups (d.modPipe p fun _ => y) p r
    | (none, d) => Dev.startLookups (d.startWalk x.unit x.slice.toNat g) p r

/-- PIPE_START (R233). -/
def pipeStartBody (c : Cmd) (id _role : Nat) (d : Dev) : Answer × Dev :=
  let p := c.inst.toNat
  let x := d.pipe p
  if x.state ≠ 0 && d.disabled x.slice.toNat 1 then (.refuse 0x07 noDetail, d)
  else if x.state ≠ 1 || x.stopping then (.refuse 0x40 noDetail, d)
  else
    match d.startLookups p ((x.windows.flatMap windowPages).eraseDups) with
    | .error w => (.refuse 0x02 w, d)
    | .ok d => (.wait, d.modPipe p fun x => { x with starting := some id })

/-- PIPE_START. -/
def pipeStartD (c : Cmd) (d : Dev) : Dev := d.runCmd (pipeForm 0x0711) c pipeStartBody

/-- PIPE_DRAIN (R234). -/
def pipeDrainBody (c : Cmd) (_id _role : Nat) (d : Dev) : Answer × Dev :=
  let p := c.inst.toNat
  if (d.pipe p).state ≠ 2 || (d.pipe p).stopping then (.refuse 0x40 noDetail, d)
  else (.started, d.modPipe p fun x => { x with state := 3 })

/-- PIPE_DRAIN. -/
def pipeDrainD (c : Cmd) (d : Dev) : Dev := d.runCmd (pipeForm 0x0712) c pipeDrainBody

/-- PIPE_STOP (R234). -/
def pipeStopBody (c : Cmd) (_id _role : Nat) (d : Dev) : Answer × Dev :=
  let p := c.inst.toNat
  if !(d.pipe p).active then (.refuse 0x40 noDetail, d) else (.ok 0 [], d.stopPipe p pcCommand 0x07 255 0)

/-- PIPE_STOP. -/
def pipeStopD (c : Cmd) (d : Dev) : Dev := d.runCmd (pipeForm 0x0713) c pipeStopBody

/-- PIPE_UNLOAD (R234): the reply waits for the mesh cycle boundary that removes the routes. -/
def pipeUnloadBody (c : Cmd) (id _role : Nat) (d : Dev) : Answer × Dev :=
  let p := c.inst.toNat
  let st := (d.pipe p).state
  if st ≠ 1 && st ≠ 4 then (.refuse 0x40 noDetail, d) else (.wait, d.modPipe p fun x => { x with unloading := some id })

/-- PIPE_UNLOAD. -/
def pipeUnloadD (c : Cmd) (d : Dev) : Dev := d.runCmd (pipeForm 0x0714) c pipeUnloadBody

/-! ### POSITION_READ (R216) -/

/-- POSITION_READ: ciphertext for a confidential slice. -/
def positionReadBody (c : Cmd) (_id _role : Nat) (d : Dev) : Answer × Dev :=
  let pos := c.inst.toNat
  let x := d.pos pos
  let area := c.u 16 1
  let off := c.u 24 8
  let len := c.u 32 4
  let size := if area = 0 then 2 ^ 24 else if area = 1 then 65536 else 262144
  let m := if area = 0 then x.sram else if area = 1 then x.vregs else x.istore
  let bs := memReads m off len
  let noKey := d.isConf x.slice.toNat && (d.slotOf x.slice.toNat).isNone
  if 2 < area then (.refuse 0x09 16, d)
  else if size < off + len then (.refuse 0x03 24, d)
  else if noKey then (.refuse 0x0A noDetail, d)
  else if refLen c ≠ len then (.refuse 0x49 52, d)
  else if isPassThrough pos || !(x.state = 1 || x.state = 4 || x.state = 5) then (.refuse 0x40 noDetail, d)
  else if d.isConf x.slice.toNat then
    match d.slotOf x.slice.toNat with
    | some k => (.toRef 0 (Config.xtsEncrypt (poolKey k) (pos * 2 ^ 64 + off) bs), d)
    | none => (.refuse 0x0A noDetail, d)
  else (.toRef 0 bs, d)

/-- POSITION_READ. -/
def positionReadD (c : Cmd) (d : Dev) : Dev :=
  d.runCmd { op := 0x0720, roles := [1], cls := some 0x10, hi := 199, used := [(16, 17), (24, 36)], ref := 1, out := true } c positionReadBody

/-! ### The tile function disabled (R368), a slice torn down (R43) -/

/-- Every pipeline of a slice stopped, and the commands that wait for one answered. -/
def Dev.haltPipes (d : Dev) (slice cause status : Nat) : Dev :=
  eachOf (tkeys d.tiles.pipes fun _ x => x.slice.toNat = slice) d fun d p =>
    let d := match (d.pipe p).starting with | some id => d.finishWait id status noDetail | none => d
    let d := match (d.pipe p).unloading with | some id => d.finishWait id 0 0 | none => d
    let d := d.modPipe p fun x => { x with starting := none, unloading := none }
    if (d.pipe p).active then (d.stopPipe p cause status 255 0).haltPipe p else d

/-- The pipelines of a slice torn down (R43, R366): unloaded at once, their positions zeroed. -/
def Dev.dropPipes (d : Dev) (slice : Nat) : Dev :=
  eachOf (tkeys d.tiles.pipes fun _ x => x.slice.toNat = slice) (d.haltPipes slice pcTornDown 0x0C) fun d p => (d.releasePipe p).unloadPipe p

/-- The pipelines of a slice whose tile function was disabled (R368): their ENTRY_KEY is 0, their positions are zeroed, and they are unloaded. One
that has an operation out keeps its contexts and its number until the last has ended (R244); the reply does not wait for that (DESIGN CHOICE,
log 190). -/
def Dev.disablePipes (d : Dev) (slice : Nat) : Dev :=
  eachOf (tkeys d.tiles.pipes fun _ x => x.slice.toNat = slice) (d.haltPipes slice pcDisabled 0x07) fun d p =>
    let d := eachOf (d.pipe p).positions d fun d pos => if (d.pos pos).pipe = p then d.zeroPos pos else d
    if d.pipeBusy p then d.modPipe p fun x => { x with entryKey := 0, dropping := true } else (d.releasePipe p).unloadPipe p

/-- Meaning of LAST_LOAD. -/
def execLastLoad (c : Cmd) (s : State) (ecc : List (Nat × Ecc) := []) : Host.Outcome State Fault Refusal := .next (s.onDev (lastLoadD c ecc))
/-- Meaning of LAST_LOAD_COMPLETE. -/
def execLastLoadComplete (s : State) : Host.Outcome State Fault Refusal := .next (s.onDev lastLoadCompleteD)
/-- Meaning of PIPE_START. -/
def execPipeStart (c : Cmd) (s : State) : Host.Outcome State Fault Refusal := .next (s.onDev (pipeStartD c))
/-- Meaning of PIPE_DRAIN. -/
def execPipeDrain (c : Cmd) (s : State) : Host.Outcome State Fault Refusal := .next (s.onDev (pipeDrainD c))
/-- Meaning of PIPE_STOP. -/
def execPipeStop (c : Cmd) (s : State) : Host.Outcome State Fault Refusal := .next (s.onDev (pipeStopD c))
/-- Meaning of PIPE_UNLOAD. -/
def execPipeUnload (c : Cmd) (s : State) : Host.Outcome State Fault Refusal := .next (s.onDev (pipeUnloadD c))
/-- Meaning of POSITION_READ. -/
def execPositionRead (c : Cmd) (s : State) : Host.Outcome State Fault Refusal := .next (s.onDev (positionReadD c))

end Sys2Proof.Machine
end

