-- ==== Sys2Proof/Machine/Copy.lean ====
section
/-!
DEFINITION. The copy engine (R330) with its translations (R47, R52, R53), ATS (R51–R53), table walks (R46).
-/
namespace Sys2Proof.Machine

open Sys2Proof

/-! ### What a copy must translate -/

/-- A page a copy needs: of its slice, for its source or destination; of host memory, to read or to write, for the field at byte `at'`. -/
inductive CopyNeed where
  | page (p : Nat) (dst : Bool)
  | host (p : Nat) (write : Bool) (at' : Nat)

/-- The byte of the command whose field a need comes from (R309, R330). -/
def CopyNeed.byte : CopyNeed → Nat
  | .page _ dst => if dst then 32 else 24
  | .host _ _ at' => at'

/-- The need of a copy's record (R330). -/
def CopyJob.recordNeed (j : CopyJob) : CopyNeed := .host (j.record.toNat / 4096) true 48

/-- All pages that what is left of a copy needs (R53). -/
def copyAll (ats : Bool) (j : CopyJob) : List CopyNeed :=
  let side (isHost dst : Bool) (a : Nat) : List CopyNeed :=
    if isHost then (if ats then (unitsOf 4096 (a + j.moved) (j.length - j.moved)).map fun p => CopyNeed.host p dst (if dst then 32 else 24) else [])
    else (unitsOf (2 ^ 29) (a + j.moved) (j.length - j.moved)).map fun p => CopyNeed.page p dst
  side j.srcHost false j.src.toNat ++ side j.dstHost true j.dst.toNat ++
    (if ats && !j.noRecord then [j.recordNeed] else [])

/-- Whether a copy holds what a need asks. -/
def CopyJob.holds (j : CopyJob) (n : CopyNeed) : Bool :=
  match n with
  | .page p dst => (if dst then j.dstPages else j.srcPages).any fun x => x.covers j.slice.toNat p
  | .host p w _ => j.hostPages.any fun e => e.page.toNat = p && e.grants w

/-- The needs not met yet. -/
def Dev.copyNeeds (d : Dev) (j : CopyJob) : List CopyNeed := (copyAll d.xlate.atsEnable j).filter fun n => !j.holds n

/-- A Translation Request, unless one for the page is outstanding (R52), or 512 are (R299); what is not asked for now is asked for at a later completion. -/
def Dev.askAts (d : Dev) (p : Nat) : Dev :=
  if (d.xlate.atsReqs.any fun r => r.page.toNat = p) || 512 ≤ d.xlate.atsReqs.length then d
  else
    let id := d.xlate.nextAts
    { d with xlate := { d.xlate with atsReqs := d.xlate.atsReqs ++ [AtsReq.mk id (BitVec.ofNat 52 p)], nextAts := id + 1 } }.emit
      (.atsRequest id (BitVec.ofNat 52 p))

/-- A need met from the buffers, or a walk or a request started for it; or the status that ends the copy and the byte of the field it
comes from (R47, R52, R309). -/
def Dev.meetNeed (d : Dev) (j : CopyJob) (n : CopyNeed) : Except (Nat × Nat) (CopyJob × Dev) :=
  match n with
  | .page p dst =>
    match d.lookup copyEngine j.slice.toNat p with
    | (some x, d) =>
      if !x.grants (if dst then 2 else 1) then .error (0x02, n.byte)
      else .ok (if dst then { j with dstPages := j.dstPages ++ [x] } else { j with srcPages := j.srcPages ++ [x] }, d)
    | (none, d) => .ok (j, d.startWalk copyEngine j.slice.toNat p)
  | .host p w _ =>
    match d.xlate.atc.find? fun e => e.page.toNat = p with
    | some e => if e.grants w then .ok ({ j with hostPages := j.hostPages ++ [e] }, d) else .error (0x02, n.byte)
    | none => .ok (j, d.askAts p)

/-- Needs met one after the other. -/
def Dev.meetNeeds (d : Dev) (j : CopyJob) (l : List CopyNeed) : Except (Nat × Nat) (CopyJob × Dev) :=
  match l with
  | [] => .ok (j, d)
  | n :: r => if j.holds n then Dev.meetNeeds d j r else
    match d.meetNeed j n with
    | .error s => .error s
    | .ok (j, d) => Dev.meetNeeds d j r

/-! ### Running -/

/-- Host pages a job holds, without those an invalidation names. -/
def CopyJob.dropHost (j : CopyJob) (hit : Nat → Bool) : CopyJob := { j with hostPages := j.hostPages.filter fun e => !hit e.page.toNat }

/-- Whether an invalidation names a page (R53). -/
def invHits (page : BitVec 52) (n : Nat) (all : Bool) (p : Nat) : Bool := all || (page.toNat ≤ p && p < page.toNat + n)

/-- Where a byte of a slice's range lies: node, offset, key. -/
def copyPlace (slice : Nat) (l : List XEntry) (a : Nat) : Option (BitVec 16 × BitVec 48 × BitVec 64) :=
  (l.find? fun x => x.covers slice (a / 2 ^ 29)).map fun x =>
    let (n, o, k) := x.target (a / 2 ^ 29)
    (n, o + BitVec.ofNat 48 (a % 2 ^ 29), k)

/-- The translations of a copy's host accesses: none while ATS Enable is clear (R52). -/
def Dev.copyPages (d : Dev) (j : CopyJob) : List AtcEntry := if d.xlate.atsEnable then j.hostPages else []

/-- The pairs of ports of a class G copy, both directions (R137): port 176 with the ports towards its targets. -/
def Dev.copyPairs (d : Dev) (j : CopyJob) : List (Nat × Nat × Nat) :=
  let ends := ((copyAll false j).filterMap fun n =>
    match n with
    | .page p dst => copyPlace j.slice.toNat (if dst then j.dstPages else j.srcPages) (p * 2 ^ 29)
    | .host _ _ _ => none)
  let outs := (ends.flatMap fun e =>
    let f : Frame := { dst := e.1, src := BitVec.ofNat 16 d.node, offset := e.2.1, cls := .g, op := BitVec.ofNat 8 opSTORE }
    match (d.routeFrame 176 { f with inter := (d.pickInter f).1 }).1 with
    | .out q _ => [q]
    | .hold q _ => [q]
    | .own g => match d.ownPlace 0 g with | .port q => [q] | _ => []
    | .dead => []).eraseDups
  outs.flatMap fun o => [(176, o, Config.copyFlits), (o, 176, Config.copyFlits)]

/-- The running copy changed. -/
def Dev.setRunning (d : Dev) (j : CopyJob) : Dev := { d with xlate := { d.xlate with running := some j } }

/-- The oldest queued copy starts, when none runs (R330): its stream opened, and its reservations made for class G. One that cannot have
them stays queued until a round boundary. -/
def Dev.startCopy (d : Dev) : Dev :=
  match d.xlate.running, d.xlate.copies with
  | none, j :: r =>
    let d1 := { d with xlate := { d.xlate with copies := r } }
    if j.status.isSome || (j.srcHost && j.dstHost) then d1.setRunning j
    else
      let d2 := if j.cls = .g then d1.reserveAll 4 0 j.slice.toNat (d1.copyPairs j) else some d1
      match d2 with
      | none => d
      | some d2 =>
        match d2.openStream 12 j.cls j.slice.toNat 20 1 0 with
        | none => d
        -- the engine's acquire at fabric scope before it reads (R99): it has no earlier read, so that the fence holds nothing back
        | some (n, d) => (d.fence .acquire .fabric [n] []).setRunning { j with stream := some n }
  | _, _ => d

/-- A copy whose translations are there joins the queue. -/
def Dev.queueCopy (d : Dev) (j : CopyJob) : Dev := { d with xlate := { d.xlate with copies := d.xlate.copies ++ [j] } }.startCopy

/-- The running copy ends with a status: what it has not sent is dropped. -/
def Dev.failCopy (d : Dev) (j : CopyJob) (st : Nat) : Dev :=
  (d.setRunning { j with status := some (j.status.getD st) }).dropOps fun o => j.stream = some (tagStream o.tag) && o.phase = .waiting

/-- Bytes that have been read, on their way to the destination. -/
def Dev.copyOut (d : Dev) (at' : Nat) (bs : List Byte) : Dev :=
  match d.xlate.running with
  | none => d
  | some j =>
    let a := j.dst.toNat + at'
    if j.dstHost then
      (d.hostPut (d.copyPages j) a bs).setRunning { j with moved := j.moved + bs.length }
    else
      match j.stream with
      | none => d
      | some st =>
        eachOf (fetchPieces (bs.length + 1) a bs.length) d fun d e =>
          match copyPlace j.slice.toNat j.dstPages e.1 with
          | none => d
          | some (n, o, k) =>
            d.issue st { dst := n, offset := o, key := k, op := BitVec.ofNat 8 opSTORE, length := BitVec.ofNat 12 e.2,
                         payload := cut bs (e.1 - a) e.2 } (.copyWrite (e.1 - j.dst.toNat))

/-- Reads of the chunk from `j.moved` on, `n` bytes. -/
def Dev.copyIn (d : Dev) (j : CopyJob) (n : Nat) : Dev :=
  match j.stream with
  | none => d
  | some st =>
    let a := j.src.toNat + j.moved
    eachOf (fetchPieces (n + 1) a n) d fun d e =>
      match copyPlace j.slice.toNat j.srcPages e.1 with
      | none => d
      | some (node, o, k) =>
        d.issue st { dst := node, offset := o, key := k, op := BitVec.ofNat 8 opLOAD, length := BitVec.ofNat 12 e.2 }
          (.copyRead (e.1 - j.src.toNat))

/-- Invalidations held back by a chunk are taken up (R53). -/
def Dev.takeInvalidations (d : Dev) : Dev :=
  let l := d.xlate.pendingInv
  let run := d.xlate.running.map fun j => l.foldl (fun (j : CopyJob) e => j.dropHost (invHits e.2.1 e.2.2.1 e.2.2.2)) j
  let d := { d with xlate := { d.xlate with pendingInv := [], running := run } }
  eachOf l d fun d e => d.emit (.atsInvalidated e.1)

/-- COPY_CHUNK (R53): at most 64 KiB, once the chunk before has ended and the host pages left are translated. -/
def copyChunkD (host : List Byte) (d : Dev) : Dev :=
  match d.xlate.running with
  | none => d
  | some j0 =>
    if j0.status.isSome || j0.moved ≠ j0.written || j0.moved = j0.length then d
    else
      let d := d.takeInvalidations
      let j := d.xlate.running.getD j0
      match d.meetNeeds j (d.copyNeeds j) with
      | .error (st, _) => d.failCopy j st
      | .ok (j, d) =>
        let d := d.setRunning j
        if !(d.copyNeeds j).isEmpty then d
        else
          let n := min 65536 (j.length - j.moved)
          let d := d.setRunning { j with written := j.moved + n }
          if j.srcHost then d.copyOut j.moved (padTo n host) else d.copyIn j n

/-- Whether an operation of the running copy has not ended. -/
def Dev.copyBusy (d : Dev) (j : CopyJob) : Bool := d.req.ops.any fun o => j.stream = some (tagStream o.tag)

/-- The 16 bytes of a copy record (R330). -/
def copyRecord (j : CopyJob) : List Byte := le 4 j.seq.toNat ++ le 1 (j.status.getD 0) ++ zeros 3 ++ le 8 j.moved

/-- Whether a copy's record can be written, or left out, now: its page is translated, or has no translation (R52). -/
def Dev.recordReady (d : Dev) (j : CopyJob) : Bool × CopyJob × Dev :=
  if !d.xlate.atsEnable || j.noRecord || j.holds j.recordNeed then (true, j, d)
  else
    match d.meetNeed j j.recordNeed with
    | .ok (j, d) => (j.holds j.recordNeed, j, d)
    | .error _ => (true, { j with noRecord := true }, d)

/-- A copy's record is written, then its vector signalled (R330). -/
def Dev.writeCopyRecord (d : Dev) (j : CopyJob) : Dev :=
  let d := { d with xlate := { d.xlate with completed := d.xlate.completed + 1 } }
  if j.noRecord then d
  else
    let d := d.hostPut (d.copyPages j) j.record.toNat (copyRecord j)
    if j.vector = 0xFFFF#16 then d else d.signal j.vector.toNat

/-- What a running copy holds is given up: its stream, with what is left of its operations, and its reservation. -/
def Dev.releaseCopy (d : Dev) (j : CopyJob) : Dev :=
  let d := match j.stream with | some n => d.closeStream n | none => d
  if j.cls = .g then d.releaseOwner 4 0 else d

/-- The SLICE record of a teardown or a disabled function (R355). -/
def sliceRec (sl action : Nat) : FaultRec := { mkRec 14 0 action (obj 0x09 sl) with slice := BitVec.ofNat 10 sl }

/-- Whether a copy of a slice has not ended. -/
def Dev.copiesLeft (d : Dev) (sl : Nat) : Bool :=
  (d.xlate.copies.any fun j => j.slice.toNat = sl) || (d.xlate.running.map fun j => decide (j.slice.toNat = sl)).getD false

/-- Whether everything a reply waits for has ended: the operations under the old entries (R37), and of a slice its copies (R366, R368). -/
def Dev.revoked (d : Dev) (v : Revoking) : Bool :=
  (v.ops.all fun o => (d.hop o.1 o.2).isNone) && !((v.slice.map d.copiesLeft).getD false)

/-- The replies, of those that `may` selects, that have nothing left to wait for; that to the end of a slice or of its function with the SLICE
record. -/
def Dev.settleRevoked (d : Dev) (may : Revoking → Bool) : Dev :=
  let past (v : Revoking) : Bool := may v && d.revoked v
  let ready := d.prot.revoking.filter past
  eachOf ready { d with prot := { d.prot with revoking := d.prot.revoking.filter fun v => !past v } } fun d v =>
    let d := match v.slice with | some sl => d.fault (sliceRec sl v.action) | none => d
    d.finishWait v.reply 0 0

/-- COPY_DONE (R330): the record is written after the data, then the vector signalled; the next copy starts. -/
def copyDoneD (d : Dev) : Dev :=
  match d.xlate.running with
  | none => d
  | some j0 =>
    if d.copyBusy j0 || (j0.status.isNone && j0.moved ≠ j0.length) then d
    else
      let d := d.takeInvalidations
      let (ready, j, d) := d.recordReady (d.xlate.running.getD j0)
      if !ready then d.setRunning j
      else
        let d := (d.writeCopyRecord j).releaseCopy j
        ({ d with xlate := { d.xlate with running := none } }.startCopy).settleRevoked fun v => v.slice.isSome

/-- The queued copies of a slice end with a status; those whose record must wait for its translation stay. -/
def Dev.endQueued (d : Dev) (slice st : Nat) (l : List CopyJob) : List CopyJob × Dev :=
  match l with
  | [] => ([], d)
  | j :: r =>
    if j.slice.toNat = slice then
      let (ready, j, d) := d.recordReady { j with status := some (j.status.getD st) }
      if ready then Dev.endQueued (d.writeCopyRecord j) slice st r
      else let (l, d) := Dev.endQueued d slice st r; (j :: l, d)
    else let (l, d) := Dev.endQueued d slice st r; (j :: l, d)

/-- The copies of a slice end with a status (R366, R368), those queued and the one that runs, each with its record; a record whose page has yet to
be translated is written by COPY_DONE (log 196). -/
def Dev.endCopies (d : Dev) (slice st : Nat) : Dev :=
  let mine (j : CopyJob) : Bool := j.slice.toNat = slice
  let gone := d.xlate.translating.filter fun e => mine e.1
  let d := { d with xlate := { d.xlate with translating := d.xlate.translating.filter fun e => !mine e.1 } }
  let d := eachOf gone d fun d e => d.finishWait e.2 st noDetail
  let (left, d) := d.endQueued slice st d.xlate.copies
  let d := { d with xlate := { d.xlate with copies := left } }
  match d.xlate.running with
  | some j =>
    if mine j then
      let d := (d.releaseCopy j).takeInvalidations
      let (ready, j, d) := d.recordReady { d.xlate.running.getD j with status := some (j.status.getD st), stream := none }
      if ready then { d.writeCopyRecord j with xlate := { (d.writeCopyRecord j).xlate with running := none } }.startCopy
      else d.setRunning j
    else d
  | none => d

/-! ### COPY (R330) -/

/-- The first field of a COPY with a reserved bit or encoding, or an address past 57 bits (R330, R44, R47). R95 lets a copy or relay descriptor carry
the fence of R96 as a flag and no layout gives the flag a bit: none is modelled, the bits stay reserved (DESIGN CHOICE, log 191). -/
def copyFormFault (c : Cmd) : Option Nat :=
  if 1024 ≤ c.u 16 2 then some 16
  else if c.u 18 1 % 16 ≠ 0 || field (c.u 18 1) 4 2 = 3 then some 18
  else if !(c.u 18 1).testBit 7 && 2 ^ 57 < c.u 24 8 + c.u 40 8 then some 24
  else if !(c.u 18 1).testBit 6 && 2 ^ 57 < c.u 32 8 + c.u 40 8 then some 32
  else none

/-- The first field of a COPY outside its range (R330). -/
def copyRangeFault (c : Cmd) : Option Nat :=
  if c.u 40 8 = 0 || 2 ^ 40 < c.u 40 8 then some 40
  else if c.u 48 8 % 16 ≠ 0 then some 48
  else if 2048 ≤ c.u 56 2 && c.u 56 2 ≠ 0xFFFF then some 56
  else none

/-- The job a COPY describes, with its first field outside its range: that refuses the command once its lookups have ended (R308). -/
def copyJobOf (c : Cmd) : CopyJob :=
  { seq := c.seq, slice := BitVec.ofNat 10 (c.u 16 2), srcHost := (c.u 18 1).testBit 7, dstHost := (c.u 18 1).testBit 6,
    cls := clsOf (BitVec.ofNat 2 (field (c.u 18 1) 4 2)), src := BitVec.ofNat 64 (c.u 24 8), dst := BitVec.ofNat 64 (c.u 32 8),
    length := min (2 ^ 40) (c.u 40 8), record := BitVec.ofNat 64 (c.u 48 8), vector := BitVec.ofNat 16 (c.u 56 2),
    bad := copyRangeFault c }

/-- The fate of a COPY whose addresses are all translated (R308): refused for a field outside its range or for want of room, or queued. -/
def Dev.copyFate (d : Dev) (j : CopyJob) : Option (Nat × Nat) :=
  match j.bad with
  | some b => some (0x43, b)
  | none => if 256 ≤ d.xlate.copies.length then some (0x42, noDetail) else none

/-- COPY: accepted once every address is translated; a failed lookup comes before the other refusals (R308, R330). -/
def copyBody (c : Cmd) (id _role : Nat) (d : Dev) : Answer × Dev :=
  let slice := c.u 16 2 % 1024
  match d.sliceEnded slice 2 with
  | some s => (.refuse s 16, d)
  | none =>
    match copyFormFault c with
    | some b => (.refuse 0x09 b, d)
    | none =>
      if !d.sliceLive slice then (.refuse 0x03 16, d)
      else if d.isConf slice then (.refuse 0x0A 16, d)
      else
        let j := copyJobOf c
        match d.meetNeeds j (d.copyNeeds j) with
        | .error (s, b) => (.refuse s b, d)
        | .ok (j, d) =>
          if (d.copyNeeds j).isEmpty then
            match d.copyFate j with
            | some (s, b) => (.denied s b, d)
            | none => (.started, d.queueCopy j)
          else (.wait, { d with xlate := { d.xlate with translating := d.xlate.translating ++ [(j, id)] } })

/-- COPY. -/
def copyD (c : Cmd) (d : Dev) : Dev :=
  d.runCmd { op := 0x0820, roles := [1], cls := some 0x1A, used := [(16, 19), (24, 58)] } c copyBody

/-! ### Translations that arrive -/

/-- A copy that waits for translations: refused, accepted, or still waiting. -/
def Dev.tryCopy (d : Dev) (id : Nat) : Dev :=
  match d.xlate.translating.find? fun e => e.2 = id with
  | none => d
  | some (j, _) =>
    let rest := d.xlate.translating.filter fun e => e.2 ≠ id
    match d.meetNeeds j (d.copyNeeds j) with
    | .error (s, b) => { d with xlate := { d.xlate with translating := rest } }.finishWait id s b
    | .ok (j, d) =>
      if (d.copyNeeds j).isEmpty then
        let d := { d with xlate := { d.xlate with translating := rest } }
        match d.copyFate j with
        | some (s, b) => d.finishWait id s b
        | none => ((d.modWait id fun w => { w with started := true }).finishWait id 0 0).queueCopy j
      else { d with xlate := { d.xlate with translating := d.xlate.translating.map fun e => if e.2 = id then (j, id) else e } }

/-- Every copy that waits tried again, in order. -/
def Dev.tryCopies (d : Dev) : Dev := eachOf (d.xlate.translating.map (·.2)) d Dev.tryCopy

/-- A walk failed: starts and copies that need the page end with its status (R47). -/
def Dev.walkFailed (d : Dev) (w : Walk) (st : Nat) : Dev :=
  let sl := w.slice.toNat
  let d := eachOf (tkeys d.tiles.pipes fun _ x => x.starting.isSome && x.unit = w.engine && x.slice = w.slice) d fun d p =>
    match (d.pipe p).windows.find? fun y => (windowPages y).contains w.svaPage && (tfind y.pages w.svaPage).isNone with
    | some y => d.refuseStart p st y.window
    | none => d
  if w.engine ≠ copyEngine then d
  else
    let needs (n : CopyNeed) : Bool := match n with | .page p _ => p = w.svaPage | .host _ _ _ => false
    let hurt := d.xlate.translating.filter fun e => e.1.slice.toNat = sl && (d.copyNeeds e.1).any needs
    let d := { d with xlate := { d.xlate with translating := d.xlate.translating.filter fun e => !(hurt.map fun (h : CopyJob × Nat) => h.2).contains e.2 } }
    eachOf hurt d fun d e => d.finishWait e.2 st ((((d.copyNeeds e.1).find? needs).map CopyNeed.byte).getD noDetail)

/-- A walk found its leaf: both buffers are filled (R46), and what waits goes on. -/
def Dev.walkFound (d : Dev) (w : Walk) (x : XEntry) : Dev :=
  let d := (d.fillEngine w.engine x).fillShared x
  let d := eachOf (tkeys d.tiles.pipes fun _ y => y.starting.isSome && y.unit = w.engine && y.slice = w.slice) d fun d p =>
    match takePage (d.pipe p) x w.svaPage with
    | .ok y => d.modPipe p fun _ => y
    | .error win => d.refuseStart p 0x02 win
  if w.engine = copyEngine then d.tryCopies else d

/-- TABLE_WALK_DONE (R46): one of the 64 walks that run at once. -/
def tableWalkDoneD (id : Nat) (d : Dev) : Dev :=
  match (d.xlate.walks.take 64).find? fun w => w.id = id with
  | none => d
  | some w =>
    let d := { d with xlate := { d.xlate with walks := d.xlate.walks.filter fun x => x.id ≠ id } }
    match d.walk w.slice.toNat w.svaPage with
    | .ok x => d.walkFound w x
    | .error st => (d.walkFault w.slice.toNat w.svaPage).walkFailed w st

/-! ### ATS (R51–R53) -/

/-- Host pages a copy waits for that have no translation, or not the permission it needs (R52). -/
def Dev.hostFailed (d : Dev) (page : Nat) (read write : Bool) : Dev :=
  let hits (n : CopyNeed) : Bool := match n with | .host p w _ => p = page && !(if w then write else read) | .page _ _ => false
  let needs (j : CopyJob) : Bool := (d.copyNeeds j).any hits
  let hurt := d.xlate.translating.filter fun e => needs e.1
  let d := { d with xlate := { d.xlate with translating := d.xlate.translating.filter fun e => !(hurt.map fun (h : CopyJob × Nat) => h.2).contains e.2 } }
  let d := eachOf hurt d fun d e => d.finishWait e.2 0x02 ((((d.copyNeeds e.1).find? hits).map CopyNeed.byte).getD noDetail)
  match d.xlate.running with
  | none => d
  | some j =>
    if j.record.toNat / 4096 = page && !write && !j.holds j.recordNeed then
      d.setRunning { j with noRecord := true, status := some (j.status.getD 0x02) }
    else if j.status.isNone && j.moved = j.written && needs j then d.failCopy j 0x02
    else d

/-- ATS_TRANSLATION_COMPLETION (R52): into the cache of 1,024; no permission or no translation fails what needs it. -/
def atsTranslationCompletionD (id : Nat) (a : AtsAnswer) (d : Dev) : Dev :=
  match d.xlate.atsReqs.find? fun r => r.id = id with
  | none => d
  | some r =>
    let d := { d with xlate := { d.xlate with atsReqs := d.xlate.atsReqs.filter fun x => x.id ≠ id } }
    match a.transl with
    | none => (d.hostFailed r.page.toNat false false).tryCopies
    | some t =>
      ((d.fillAtc (AtcEntry.mk r.page t a.read a.write)).hostFailed r.page.toNat a.read a.write).tryCopies

/-- ATS_INVALIDATION_REQUEST (R53): the cache and the copies not started lose the pages; a chunk under way is let finish first. -/
def atsInvalidationRequestD (itag : BitVec 5) (page : BitVec 52) (n : Nat) (global : Bool) (d : Dev) : Dev :=
  let hit := invHits page n global
  let d := { d with xlate := { d.xlate with
    atc := d.xlate.atc.filter fun (e : AtcEntry) => !hit e.page.toNat,
    translating := d.xlate.translating.map fun (e : CopyJob × Nat) => (e.1.dropHost hit, e.2),
    copies := d.xlate.copies.map fun (j : CopyJob) => j.dropHost hit } }
  let busy := (d.xlate.running.map fun (j : CopyJob) => decide (j.moved ≠ j.written) && (j.srcHost || j.dstHost)).getD false
  if busy then { d with xlate := { d.xlate with pendingInv := d.xlate.pendingInv ++ [(itag, page, n, global)] } }
  else ({ d with xlate := { d.xlate with running := d.xlate.running.map fun (j : CopyJob) => j.dropHost hit } }.emit (.atsInvalidated itag)).tryCopies

/-- ATS_ENABLE_CHANGE (R51): no translation is kept. -/
def atsEnableChangeD (enable : Bool) (d : Dev) : Dev :=
  let all : Nat → Bool := fun _ => true
  { d with xlate := { d.xlate with
    atsEnable := enable, atc := [], atsReqs := [],
    translating := d.xlate.translating.map fun (e : CopyJob × Nat) => (e.1.dropHost all, e.2),
    copies := d.xlate.copies.map fun (j : CopyJob) => j.dropHost all,
    running := d.xlate.running.map fun (j : CopyJob) => j.dropHost all } }.tryCopies

/-- Meaning of COPY. -/
def execCopy (c : Cmd) (s : State) : Host.Outcome State Fault Refusal := .next (s.onDev (copyD c))
/-- Meaning of COPY_CHUNK. -/
def execCopyChunk (host : List Byte) (s : State) : Host.Outcome State Fault Refusal := .next (s.onDev (copyChunkD host))
/-- Meaning of COPY_DONE. -/
def execCopyDone (s : State) : Host.Outcome State Fault Refusal := .next (s.onDev copyDoneD)
/-- Meaning of TABLE_WALK_DONE. -/
def execTableWalkDone (id : Nat) (s : State) : Host.Outcome State Fault Refusal := .next (s.onDev (tableWalkDoneD id))
/-- Meaning of ATS_TRANSLATION_COMPLETION. -/
def execAtsTranslationCompletion (id : Nat) (a : AtsAnswer) (s : State) : Host.Outcome State Fault Refusal :=
  .next (s.onDev (atsTranslationCompletionD id a))
/-- Meaning of ATS_INVALIDATION_REQUEST. -/
def execAtsInvalidationRequest (itag : BitVec 5) (page : BitVec 52) (n : Nat) (global : Bool) (s : State) : Host.Outcome State Fault Refusal :=
  .next (s.onDev (atsInvalidationRequestD itag page n global))
/-- Meaning of ATS_ENABLE_CHANGE. -/
def execAtsEnableChange (enable : Bool) (s : State) : Host.Outcome State Fault Refusal := .next (s.onDev (atsEnableChangeD enable))

end Sys2Proof.Machine
end

