-- ==== Sys2Proof/Machine/PoolUnits.lean ====
section
/-!
DEFINITION. Pool areas changed (R254), check-value units (R263–R265), the loss and return of a pool die (R267, R370).
-/
namespace Sys2Proof.Machine

open Sys2Proof

/-! ### Areas (R253, R254) -/

/-- The area a page lies in: 0 user, 1 residual, 2 log, 3 table, 4 spill. -/
def PoolSt.areaOf (p : PoolSt) (page : Nat) : Nat :=
  if page < p.userPages then 0
  else if page < p.userPages + p.residPages then 1
  else if page < p.userPages + p.residPages + p.logPages then 2
  else if page < 6016 then 3 else 4

/-- Lines for which `hit` holds zeroed, with OWNER 0 and no POISON. -/
def PoolSt.zeroLines (p : PoolSt) (hit : Nat → Bool) : PoolSt :=
  { p with mem := p.mem.filter fun (c : Host.Cell) => !hit (c.1 / 64), lmeta := p.lmeta.filter fun e => !hit e.1 }

/-- An accepted change of the areas: every page that changes area is zeroed (R254). The rings are empty where the log area moved. -/
def Dev.changeAreas (d : Dev) (tables logs resid reply : Nat) : Dev :=
  let old := d.pool
  let new := { old with tablePages := tables, logPages := logs, residPages := resid }
  let moved (line : Nat) : Bool := old.areaOf (pageOfLine line) ≠ new.areaOf (pageOfLine line)
  let p := new.zeroLines moved
  let d := { d with pool := { p with areaChange := some reply } }
  if old.logBase = new.logBase && old.logPages = new.logPages then d
  else
    let f := d.faults
    { d with faults := { f with ring := [], ringAt := 0, tailSeq := f.headSeq, mirrorRing := [], mirrorTail := f.mirrorHead } }

/-- POOL_AREAS_ZEROED (R254): the reply. -/
def poolAreasZeroedD (d : Dev) : Dev :=
  match d.pool.areaChange with
  | some id => (d.modPool fun p => { p with areaChange := none }).finishWait id 0 0
  | none => d

/-! ### Check values (R263–R265) -/

/-- The frame by which a step of a job is judged (R264, R34): the unit is not in the envelope. -/
def CheckCtx.frame (c : CheckCtx) (d : Dev) (op off : Nat) : Frame :=
  { dst := BitVec.ofNat 16 d.node, src := BitVec.ofNat 16 d.node, offset := BitVec.ofNat 48 off, op := BitVec.ofNat 8 op, key := c.key,
    slice := c.slice }

/-- A step's judgement: the region's number. APPEND needs R and W, the others R (R264). -/
def Dev.checkJudge (d : Dev) (c : CheckCtx) (off n : Nat) : Except Nat Nat :=
  if d.disabled c.slice.toNat 3 || d.pool.state = 0 then .error 0x07
  else if 2 ^ 48 ≤ off + n then .error 0x03
  else
    match d.judge (c.frame d opLOAD off) n with
    | .error (s, _) => .error s
    | .ok (i, _) =>
      if c.mode ≠ 1 then .ok i
      else match d.judge (c.frame d opSTORE off) n with
        | .error (s, _) => .error s
        | .ok _ => .ok i

/-- The key under which line steps at an offset open lines (R262). -/
def Dev.cipherAt (d : Dev) (off : Nat) : List Byte := match d.regionOf off with | some (_, r) => d.regionCipher r | none => []

/-- The bytes of one line step of a job (R257, R258, R261, R267); `ecc` is what the checks find on the lines read (log 10). -/
def Dev.checkRead (d : Dev) (c : CheckCtx) (ecc : List (Nat × Ecc)) (off n : Nat) : Except Nat (Nat × List Byte) × Dev :=
  match d.checkJudge c off n with
  | .error s => (.error s, d)
  | .ok i =>
    let (x, d) := d.readLine c.slice (d.cipherAt off) ecc (off / 64)
    (x.map fun bs => (i, cut bs (off % 64) n), d)

/-- A job's scan: register, bytes processed and the refusal that ended it. -/
def Dev.checkScan (d : Dev) (c : CheckCtx) (ecc : List (Nat × Ecc)) (l : List (Nat × Nat)) (reg done : Nat) : (Nat × Nat × Option Nat) × Dev :=
  match l with
  | [] => ((reg, done, none), d)
  | (o, n) :: r =>
    match d.checkRead c ecc o n with
    | (.error s, d) => ((reg, done, some s), d)
    | (.ok (_, bs), d) => Dev.checkScan d c ecc r (bs.foldl (checkByte c.poly) reg) (done + n)

/-- Bytes read in steps, in one region. -/
def Dev.checkBytes (d : Dev) (c : CheckCtx) (ecc : List (Nat × Ecc)) (region : Nat) (l : List (Nat × Nat)) : Except Nat (List Byte) × Dev :=
  match l with
  | [] => (.ok [], d)
  | (o, n) :: r =>
    match d.checkRead c ecc o n with
    | (.error s, d) => (.error s, d)
    | (.ok (i, bs), d) =>
      if i ≠ region then (.error 0x03, d)
      else match Dev.checkBytes d c ecc region r with
        | (.error s, d) => (.error s, d)
        | (.ok more, d) => (.ok (bs ++ more), d)

/-- The end of a job: the appended value written, or the stored one compared (R264). -/
def Dev.checkEnd (d : Dev) (i : Nat) (c : CheckCtx) (ecc : List (Nat × Ecc)) (v : Nat) : Dev :=
  let w := checkWidth c.poly
  let at' := c.offset + c.length
  let region := (d.regionOf c.offset).map (·.1)
  if c.mode = 0 then d
  else
    match d.checkBytes c ecc (region.getD 0) (linePieces at' w) with
    | (.error s, d) => d.modCheck i fun x => { x with status := s }
    | (.ok bs, d) =>
      if c.mode = 1 then d.modPool fun p => p.storeBytes c.slice (d.cipherAt at') at' (le w v)
      else d.modCheck i fun x => { x with isMatch := decide (unle bs = v) }

/-- CHECK_JOB_DONE (R264, R265). -/
def checkJobDoneD (die : PoolDie) (ctx : Fin 16) (ecc : List (Nat × Ecc)) (d : Dev) : Dev :=
  let i := 16 * die.val + ctx.val
  let c := d.checkCtx i
  if c.state ≠ 1 then d
  else
    let start := if c.cont then c.running.toNat ^^^ checkXor c.poly else checkInit c.poly
    let ((reg, done, bad), d) := d.checkScan c ecc (linePieces c.offset c.length) start 0
    let v := reg ^^^ checkXor c.poly
    let d := d.modCheck i fun x =>
      { x with state := 2, status := bad.getD 0, done := done, running := BitVec.ofNat 64 v, isMatch := false }
    if bad.isSome then d else d.checkEnd i c ecc v

/-- CHECK_JOB (R264): the descriptor in bytes 16–47. -/
def checkJobBody (c : Cmd) (_id _role : Nat) (d : Dev) : Answer × Dev :=
  let i := c.inst.toNat
  let b0 := c.u 16 1
  let mode := field b0 6 2
  let slice := c.u 18 2
  let off := c.u 24 8
  let len := c.u 32 8
  let enc := d.prot.regions.any fun e => e.2.valid && e.2.enc = 1 && e.2.base.toNat * pageSize < off + len &&
    off < (e.2.base.toNat + e.2.length.toNat) * pageSize
  if slice ≠ 0 && d.tornDown (slice % 1024) then (.refuse 0x0C 18, d)
  else if mode = 3 || field b0 2 3 ≠ 0 then (.refuse 0x09 16, d)
  else if 16 ≤ c.u 17 1 then (.refuse 0x09 17, d)
  else if 1024 ≤ slice then (.refuse 0x09 18, d)
  else if 2 ^ 48 ≤ off then (.refuse 0x09 24, d)
  else if 2 ^ 42 ≤ len then (.refuse 0x09 32, d)
  else if d.isConf slice then (.refuse 0x0A 18, d)
  else if enc then (.refuse 0x0A 24, d)
  else if c.u 17 1 ≠ i % 16 || 8 ≤ c.u 17 1 then (.refuse 0x43 17, d)
  else if slice = 0 then (.refuse 0x43 18, d)
  else if len = 0 || 3298534883328 < len then (.refuse 0x43 32, d)
  else if (d.checkCtx i).state = 1 then (.refuse 0x40 noDetail, d)
  else
    (.started, d.modCheck i fun x =>
      { x with state := 1, status := 0, done := 0, mode := mode, cont := b0.testBit 5, poly := field b0 0 2, slice := BitVec.ofNat 10 slice,
               offset := off, length := len, key := BitVec.ofNat 64 (c.u 40 8), isMatch := false })

/-- CHECK_JOB. -/
def checkJobD (c : Cmd) (d : Dev) : Dev :=
  d.runCmd { op := 0x0810, roles := [1], cls := some 0x19, hi := 63, used := [(16, 20), (24, 48)] } c checkJobBody

/-! ### A pool die resets, and returns (R267, R370) -/

/-- Everything queued at a home that resets ends TARGET_DEAD. -/
def Dev.failHome (d : Dev) (h : Nat) : Dev :=
  let s := d.home h
  let d := eachOf (s.ops ++ s.posted ++ s.heldIn) d fun d o => d.refuseOp h o 0x06 0 none
  let d := eachOf s.flushes d fun d w => d.reply (144 + w.pp) w.f 0x06 0 none
  d.modHome h fun s => { up := s.up, nextOp := s.nextOp }

/-- Operations of other homes with a line step queued on a lost die end TARGET_DEAD. -/
def Dev.failSteps (d : Dev) (h : Nat) : Dev :=
  let steps := d.pool.lineQ.flatMap fun e => if homeOfLine e.1 = h then e.2 else []
  eachOf steps d fun d s =>
    match d.hop s.home s.op with
    | some o => d.refuseOp s.home o 0x06 0 o.region
    | none => d

/-- Spilled frames whose block lay on a pool die that was lost: they read back corrupted (R130, R267). -/
def Dev.loseBlocks (d : Dev) (h : Nat) : Dev :=
  let lost (x : QFrame) : QFrame := if (x.blk.map fun b => decide (homeOfLine (b / 64) = h)).getD false then { x with blk := none } else x
  { d with sw := { d.sw with queues := tmap d.sw.queues fun _ Q => { Q with spilled := Q.spilled.map lost } } }

/-- POOL_DIE_RESET (R267, R185, R422). The stream table is one for the four homes (R74) and empty after the reset of any (R87; DESIGN CHOICE, log 197). -/
def poolDieResetD (die : PoolDie) (d : Dev) : Dev :=
  let h := die.val
  let d := ((d.failHome h).failSteps h).endpointReset h
  let d := eachOf (tkeys d.relay.groups fun _ g => g.state ≠ 0) d fun d g => d.dropGroup g
  let d := d.loseBlocks h
  let d := eachOf (tkeys d.test.perturbs fun _ x => x.state = 1 && (x.kind = 6 || x.kind = 12)) d fun d i => d.stopPerturb i 3
  let d := d.modPool fun p =>
    let p := p.zeroLines fun line => homeOfLine line = h
    { p with state := 3, streams := [], diesLost := if p.diesLost.contains h then p.diesLost else p.diesLost ++ [h],
             contexts := p.contexts.filter fun e => e.1 / 16 ≠ h, repairing := p.repairing.filter fun r => r.chan / 96 ≠ h }
  let d := { d with relay := { d.relay with slots := d.relay.slots.filter fun e => e.1 / 4 ≠ h } }
  d.serveHeld.fault (mkRec 4 0x06 6 (obj 0x18 0) [(32, 2, 96 * h)])

/-- POOL_DIE_RETURN (R370): the rings restart empty. -/
def poolDieReturnD (die : PoolDie) (d : Dev) : Dev :=
  if !d.pool.diesLost.contains die.val then d
  else
    let d := d.modPool fun p =>
      let left := p.diesLost.filter fun x => x ≠ die.val
      { p with diesLost := left, state := if !left.isEmpty then 3 else if p.mappedExtra.isEmpty then 1 else 2 }
    let f := d.faults
    { d with faults := { f with ring := [], ringAt := 0, tailSeq := f.headSeq, mirrorRing := [], mirrorTail := f.mirrorHead } }.fault
      (mkRec 17 0 0 (obj 0x38 0))

/-- Meaning of POOL_AREAS_ZEROED. -/
def execPoolAreasZeroed (s : State) : Host.Outcome State Fault Refusal := .next (s.onDev poolAreasZeroedD)
/-- Meaning of CHECK_JOB. -/
def execCheckJob (c : Cmd) (s : State) : Host.Outcome State Fault Refusal := .next (s.onDev (checkJobD c))
/-- Meaning of CHECK_JOB_DONE. -/
def execCheckJobDone (die : PoolDie) (ctx : Fin 16) (s : State) (ecc : List (Nat × Ecc) := []) : Host.Outcome State Fault Refusal :=
  .next (s.onDev (checkJobDoneD die ctx ecc))
/-- Meaning of POOL_DIE_RESET. -/
def execPoolDieReset (die : PoolDie) (s : State) : Host.Outcome State Fault Refusal := .next (s.onDev (poolDieResetD die))
/-- Meaning of POOL_DIE_RETURN. -/
def execPoolDieReturn (die : PoolDie) (s : State) : Host.Outcome State Fault Refusal := .next (s.onDev (poolDieReturnD die))

end Sys2Proof.Machine
end

