-- ==== Sys2Proof/Machine/HostPort.lean ====
section
/-!
DEFINITION. The host port (R299–R305, R313, R332): doorbells, ring and window registers, BAR2 accesses, MSI-X, the host-port reset; and
the control die's class M frames (R116, R308, R358).
-/
namespace Sys2Proof.Machine

open Sys2Proof

/-! ### Rings (R301, R305) -/

/-- Replies of a ring that are not written: its running command completes without one (R313). -/
def Dev.muteRing (d : Dev) (hit : Nat → Bool) : Dev :=
  { d with host := { d.host with waiting := d.host.waiting.map fun w =>
      match w.via with
      | .ring r => if hit r.val then { w with mute := true } else w
      | .fabric _ _ => w } }

/-- The word at offset 0x10 of a ring's block written (R301). VECTOR and SIZE_LOG2 hold still while ENABLE is 1. -/
def Dev.setRingWord (d : Dev) (r word : Nat) : Dev :=
  let en := word.testBit 31
  if (d.ring r).enable then
    if en then d
    else
      let d := d.muteRing fun x => x = r
      { d with host := { d.host with begun := d.host.begun.filter fun b => b.1 ≠ r } }.modRing r fun g => { g with enable := false, busy := false }
  else
    d.modRing r fun g =>
      let g := { g with vector := BitVec.ofNat 11 (field word 16 11), sizeLog2 := field word 0 5 }
      if en then { g with enable := true, cmdHead := 0, cmdTail := 0, rplTail := 0, rplHead := 0, unsignalled := 0, status := 0, busy := false }
      else g

/-- A ring's register block as bytes (R301). -/
def ringImage (g : Ring) : List Byte :=
  le 8 g.cmdBase.toNat ++ le 8 g.rplBase.toNat ++ le 4 (b2n g.enable * 2 ^ 31 + g.vector.toNat * 2 ^ 16 + g.sizeLog2) ++
  le 4 g.cmdHead.toNat ++ le 4 g.rplTail.toNat ++ le 4 g.rplHead.toNat ++ le 4 (g.coalTime.toNat * 2 ^ 16 + g.coalCount.toNat) ++
  le 4 g.lastSeq.toNat ++ le 4 g.status ++ le 4 g.cmdTail.toNat

/-- Bytes written into a ring's block. -/
def Dev.writeRing (d : Dev) (r at' : Nat) (bs : List Byte) : Dev :=
  let g := d.ring r
  let v := overwrite (ringImage g) at' bs
  let d := d.modRing r fun g =>
    { g with cmdBase := if g.enable then g.cmdBase else BitVec.ofNat 64 (num v 0 8),
             rplBase := if g.enable then g.rplBase else BitVec.ofNat 64 (num v 8 8),
             rplHead := BitVec.ofNat 32 (num v 0x1C 4), coalTime := BitVec.ofNat 16 (num v 0x22 2), coalCount := BitVec.ofNat 8 (num v 0x20 1) }
  d.setRingWord r (num v 0x10 4)

/-- DOORBELL (R305): CMD_TAIL. -/
def doorbellD (r : RingNo) (tail : BitVec 32) (d : Dev) : Dev := d.modRing r fun g => { g with cmdTail := tail }

/-- RPL_HEAD (R305). -/
def rplHeadD (r : RingNo) (head : BitVec 32) (d : Dev) : Dev := d.modRing r fun g => { g with rplHead := head }

/-- RING_ENABLE (R301). -/
def ringEnableD (r : RingNo) (word : BitVec 32) (d : Dev) : Dev := d.setRingWord r word.toNat

/-- REPLY_COALESCE_TIMEOUT (R332): COAL_TIME after the oldest unsignalled reply. -/
def replyCoalesceTimeoutD (r : RingNo) (d : Dev) : Dev :=
  let g := d.ring r
  if g.unsignalled = 0 || g.coalTime = 0 then d else (d.modRing r fun g => { g with unsignalled := 0 }).signal g.vector.toNat

/-! ### BAR2 windows (R302–R304) -/

/-- TIMEOUT of a window's stream, in µs (R303). -/
def Window.timeoutUs (w : Window) : Nat := min 1000 (max 2 w.timeout.toNat)

/-- A window's stream that carries nothing is closed, unless it is the window's still. -/
def Dev.settleStream (d : Dev) (w stream : Nat) : Dev :=
  if (d.window w).stream = some stream || (d.req.ops.any fun o => tagStream o.tag = stream) then d else d.closeStream stream

/-- A window enabled: its class O stream of the host endpoint (R302). -/
def Dev.openWindow (d : Dev) (w : Nat) : Dev :=
  let x := d.window w
  match d.openStream 12 .o x.slice.toNat x.timeoutUs 1 0 with
  | some (n, d) => d.modWindow w fun x => { x with enable := true, stream := some n }
  | none => d.modWindow w fun x => { x with enable := true, stream := none }

/-- A window disabled. -/
def Dev.closeWindow (d : Dev) (w : Nat) : Dev :=
  let old := (d.window w).stream
  let d := d.modWindow w fun x => { x with enable := false, stream := none }
  match old with | some n => d.settleStream w n | none => d

/-- A window's register block as bytes (R303). -/
def windowImage (x : Window) : List Byte :=
  le 8 x.key.toNat ++ le 8 (x.node.toNat * 2 ^ 48 + x.base.toNat) ++ le 2 x.slice.toNat ++
  le 1 (b2n x.enable * 128 + b2n x.release * 64 + b2n x.acquire * 32) ++ zeros 1 ++ le 4 x.timeout.toNat ++ le 4 x.lastStatus ++ zeros 4 ++
  le 8 x.errors

/-- Whether a write of `n` bytes at `at'` touches a field that holds still while ENABLE is 1. -/
def touchesFixed (at' n : Nat) : Bool := at' < 0x12 || (at' < 0x18 && 0x14 < at' + n)

/-- A status seen on a window (R303). -/
def Dev.windowStatus (d : Dev) (w st : Nat) : Dev :=
  if st = 0 then d else d.modWindow w fun x => { x with lastStatus := st, errors := satAdd 64 x.errors 1 }

/-- Bytes written into a window's block. A write that would leave the window to a confidential slice without a slot is refused with CONFIDENTIAL_DENIED
(R349): it changes nothing but LAST_STATUS and ERRORS, the only place where a register write's refusal can be seen (DESIGN CHOICE, log 220). -/
def Dev.writeWindow (d : Dev) (w at' : Nat) (bs : List Byte) : Dev :=
  let x := d.window w
  let v := overwrite (windowImage x) at' bs
  let en := (num v 0x12 1).testBit 7
  if x.enable then
    let modes := decide (field (num v 0x12 1) 5 2 ≠ field (num (windowImage x) 0x12 1) 5 2)
    let d := if touchesFixed at' bs.length || modes then d.modWindow w fun x => { x with errors := satAdd 64 x.errors 1 } else d
    if en then d else d.closeWindow w
  else if d.isConf (num v 0x10 2 % 1024) && (d.slotOf (num v 0x10 2 % 1024)).isNone then d.windowStatus w 0x0A
  else
    let d := d.modWindow w fun x =>
      { x with key := BitVec.ofNat 64 (num v 0 8), base := BitVec.ofNat 48 (num v 8 6), node := BitVec.ofNat 16 (num v 14 2),
               slice := BitVec.ofNat 10 (num v 0x10 2), release := (num v 0x12 1).testBit 6, acquire := (num v 0x12 1).testBit 5,
               timeout := BitVec.ofNat 32 (num v 0x14 4) }
    if en then d.openWindow w else d

/-- The bytes of a read whose pieces are all there, in the order of their offsets. -/
def HostRead.bytes (r : HostRead) : List Byte :=
  (upTo r.pieces.length).flatMap fun i => ((r.pieces.find? fun e => e.1 = i).map (·.2)).getD []

/-- An operation of a window has ended (R304). -/
def Dev.finishWindow (d : Dev) (w : Nat) (piece : Option (BitVec 14 × Nat)) (st : Nat) (bs : List Byte) : Dev :=
  let d := d.windowStatus w st
  match piece with
  | none => d
  | some (ptag, i) =>
    match d.host.reads.find? fun r => r.ptag = ptag with
    | none => d
    | some r =>
      let r := { r with left := r.left - 1, pieces := r.pieces ++ [(i, bs)], failed := r.failed || st ≠ 0 }
      let others := d.host.reads.filter fun x => x.ptag ≠ ptag
      if r.left = 0 then
        { d with host := { d.host with reads := others } }.emit
          (if r.failed then .pcieStatus ptag 4 else .pcieData ptag r.bytes)
      else { d with host := { d.host with reads := others ++ [r] } }

/-- The 2,048-byte-aligned pieces of a target offset range (R304). -/
def targetPieces (off n : Nat) : List (Nat × Nat) :=
  (upTo (ceilDiv (off % 2048 + n) 2048)).map fun i =>
    let lo := max off ((off / 2048 + i) * 2048)
    (lo, min (off + n) ((off / 2048 + i + 1) * 2048) - lo)

/-- The stream a window's access may use: none while the module originates nothing, or had no stream context to give. -/
def Dev.windowStream (d : Dev) (w : Nat) : Option Nat := if d.mayOriginate then (d.window w).stream else none

/-- BAR2_MEMORY_WRITE (R304). -/
def bar2MemoryWriteD (w : RingNo) (a : BitVec 32) (data : List Byte) (d : Dev) : Dev :=
  let x := d.window w
  let lost := d.modWindow w fun x => { x with errors := satAdd 64 x.errors 1 }
  if !x.enable then lost
  else
    match d.windowStream w with
    | none => lost
    | some st =>
      let off := x.base.toNat + a.toNat
      eachOf (targetPieces off data.length) d fun d e =>
        let f : Frame := { dst := x.node, offset := BitVec.ofNat 48 e.1, length := BitVec.ofNat 12 e.2, key := x.key, slice := x.slice,
                           op := if x.release then 0x02 else 0x03, ord := if x.release then .release else .relaxed,
                           scope := if x.release then .fabric else .tile, payload := cut data (e.1 - off) e.2 }
        d.issue st f (.window w none)

/-- BAR2_MEMORY_READ (R304). -/
def bar2MemoryReadD (w : RingNo) (a : BitVec 32) (n : Nat) (ptag : BitVec 14) (d : Dev) : Dev :=
  let x := d.window w
  if !x.enable then d.emit (.pcieStatus ptag 1)
  else
    match d.windowStream w with
    | none => (d.modWindow w fun x => { x with errors := satAdd 64 x.errors 1 }).emit (.pcieStatus ptag 4)
    | some st =>
      let off := x.base.toNat + a.toNat
      let ps := targetPieces off n
      if ps.isEmpty then d.emit (.pcieData ptag [])
      else
        let d := { d with host := { d.host with reads :=
          (d.host.reads.filter fun r => r.ptag ≠ ptag) ++ [{ ptag := ptag, w := w, left := ps.length }] } }
        eachOf (upTo ps.length) d fun d i =>
          let e := ps.getD i (0, 0)
          let f : Frame := { dst := x.node, offset := BitVec.ofNat 48 e.1, length := BitVec.ofNat 12 e.2, key := x.key, slice := x.slice,
                             op := 0x01, ord := if x.acquire then .acquire else .relaxed, scope := if x.acquire then .fabric else .tile }
          d.issue st f (.window w (some (ptag, i)))

/-! ### MSI-X and the registers of BAR0 (R300, R332) -/

/-- A vector is unmasked (R332): a pending message is sent. -/
def Dev.unmask (d : Dev) (v : Nat) : Dev :=
  let e := tget d.host.msix v {}
  let d := { d with host := { d.host with msix := tset d.host.msix v { e with masked := false, pending := false } } }
  if e.pending then d.emit (.msix v) else d

/-- Bytes written into a vector's table entry. -/
def Dev.writeMsix (d : Dev) (v at' : Nat) (bs : List Byte) : Dev :=
  let e := tget d.host.msix v {}
  let b := overwrite (le 8 e.addr.toNat ++ le 4 e.data.toNat ++ le 4 (b2n e.masked)) at' bs
  let off := !(num b 12 4).testBit 0
  let e := { e with addr := BitVec.ofNat 64 (num b 0 8), data := BitVec.ofNat 32 (num b 8 4), masked := e.masked || !off }
  let d := { d with host := { d.host with msix := tset d.host.msix v e } }
  if off && e.masked then d.unmask v else d

/-- MSIX_UNMASK (R332). -/
def msixUnmaskD (v : Fin 2048) (d : Dev) : Dev := d.unmask v

/-- One piece of a BAR0 write, inside one register block. Read-only registers and offsets not listed ignore it. -/
def Dev.writeBlock (d : Dev) (off : Nat) (bs : List Byte) : Dev :=
  if 0x010000 ≤ off && off < 0x014000 then
    if off % 256 < 0x30 then d.writeRing ((off - 0x010000) / 256) (off % 256) (bs.take (0x30 - off % 256)) else d
  else if 0x020000 ≤ off && off < 0x021000 then
    if off % 64 < 0x28 then d.writeWindow ((off - 0x020000) / 64) (off % 64) (bs.take (0x28 - off % 64)) else d
  else if 0x100000 ≤ off && off < 0x108000 then d.writeMsix ((off - 0x100000) / 16) (off % 16) bs
  else if 0x400000 ≤ off && off < 0x440000 && off % 4096 < 4 then
    let r := (off - 0x400000) / 4096
    d.modRing r fun g => { g with cmdTail := BitVec.ofNat 32 (num (overwrite (le 4 g.cmdTail.toNat) (off % 4096) (bs.take (4 - off % 4096))) 0 4) }
  else d

/-- Bytes of a register block at an offset: the pieces a write is cut into. -/
def blockSize (off : Nat) : Nat :=
  if off < 0x014000 then 256 else if off < 0x100000 then 64 else if off < 0x108000 then 16 else 4096

/-- A BAR0 write cut at the blocks' bounds. -/
def Dev.writeBar0 (fuel : Nat) (d : Dev) (off : Nat) (bs : List Byte) : Dev :=
  match fuel, bs with
  | 0, _ => d
  | _, [] => d
  | fuel + 1, bs =>
    let n := blockSize off - off % blockSize off
    Dev.writeBar0 fuel (d.writeBlock off (bs.take n)) (off + n) (bs.drop n)

/-- REGISTER_WRITE (R6, R7, R300). -/
def registerWriteD (off : BitVec 24) (data : List Byte) (d : Dev) : Dev := Dev.writeBar0 data.length d off.toNat data

/-! ### HOST_PORT_RESET (R313) -/

/-- The ATS cache emptied and ATS disabled, as at any reset of the function (R51); translations asked for before it are not used. -/
def Dev.clearAts (d : Dev) : Dev := { atsEnableChangeD false d with xlate := { (atsEnableChangeD false d).xlate with pendingInv := [] } }

/-- HOST_PORT_RESET. Vector 0 is signalled where a RING_STATUS becomes non-zero (R332). -/
def hostPortResetD (d : Dev) : Dev :=
  let olds := d.host.windows.filterMap fun e => e.2.stream
  let newly := (upTo 64).any fun r => (d.ring r).status = 0
  let d := d.muteRing fun _ => true
  let d := { d with host := { d.host with begun := d.host.begun.filter fun b => b.1 = 64, rings := (upTo 64).map fun r => (r, { status := 3 }), windows := [], reads := [],
                                          spdm := {} } }
  let d := eachOf olds d fun d n => if d.req.ops.any fun o => tagStream o.tag = n then d else d.closeStream n
  let d := (if newly then d.signal 0 else d).clearAts
  { d with host := { d.host with msix := [] } }

/-! ### Class M frames at the control die (R116, R308, R358) -/

/-- The reply's record of a fabric command that is refused as it arrives. -/
def arrivedCmd (d : Dev) (f : Frame) : WaitReply :=
  { id := d.host.nextWait, via := .fabric f.src f.tag, opcode := num f.payload 0 2, seq := BitVec.ofNat 32 (num f.payload 4 4), noIrq := true,
    object := BitVec.ofNat 32 (num f.payload 8 4), get := num f.payload 0 1 = 0, role := 0, isSigned := (num f.payload 2 2).testBit 1,
    params := BitVec.ofNat 384 (num f.payload 16 48) }

/-- MGMT_COMMAND (R308): accepted, at most 16 of a source at once. -/
def mgmtCommandD (f0 : Frame) (d : Dev) : Dev :=
  match d.takeIn 176 f0 with
  | (none, d) => d
  | (some f, d) =>
    let n := f.payload.length
    if n ≠ 64 && n ≠ 256 then d.countDiscard 176 discReserved
    else
      let w := arrivedCmd d f
      if 16 ≤ (d.host.fabric.filter fun x => x.src = f.src).length then d.sendReply { w with status := 0x42, detail := 0xFFFFFFFF }
      else if w.isSigned ≠ decide (n = 256) then d.sendReply { w with status := 0x09, detail := 2 }
      else { d with host := { d.host with fabric := d.host.fabric ++ [{ src := f.src, tag := f.tag, packet := f.payload }] } }

/-- The direction whose probe a reply answers (R161 step 3). -/
def Dev.probedDir (d : Dev) (f : Frame) : Option Nat :=
  (upTo 6).find? fun dir => (d.detour dir).probeTag = some f.tag && d.neighbourNode dir = f.src.toNat

/-- MGMT_REPLY (R116, R161): the answer to a probe of the module's own; a late one is recorded and STATE 3 stands. -/
def mgmtReplyD (f0 : Frame) (d : Dev) : Dev :=
  match d.takeIn 176 f0 with
  | (none, d) => d
  | (some f, d) =>
    match d.probedDir f with
    | none => d.countDiscard 176 discReserved
    | some dir =>
      let d := d.modDetour dir fun x => { x with probeTag := none }
      if (d.detour dir).state = 1 then d.setDetour dir 2 4
      else if (d.detour dir).state = 3 then d.fault (routingRec d dir 0)
      else d

/-- A foreign record that finds the queue full is merged into the overflow record (R357). -/
def Dev.foreignLost (d : Dev) (cls : Nat) : Dev :=
  let d := { d with faults := { d.faults with overflowed := bump 32 d.faults.overflowed cls 1 } }
  if d.faults.overflow then
    { d with faults := { d.faults with queue := d.faults.queue.map fun x =>
        if x.isOverflow then mergeOverflow x (num x.detail 8 8) cls else x } }
  else
    let seq := d.faults.nextSeq
    enqueueFault Dev.sendEvent { d with faults := { d.faults with overflow := true, nextSeq := seq + 1 } }
      { seq := seq, time := d.now, cls := 18, code := 0, action := 0, object := obj 0x38 0,
        detail := detail [(32, 8, seq), (40, 8, seq), (48, 8, 2 ^ cls)] }

/-- MGMT_EVENT (R358): queued with FOREIGN set, and never sent on. -/
def mgmtEventD (f0 : Frame) (d : Dev) : Dev :=
  match d.takeIn 176 f0 with
  | (none, d) => d
  | (some f, d) =>
    if f.payload.length ≠ 64 then d.countDiscard 176 discReserved
    else
      let r := faultOfBytes f.payload
      if d.faults.held < 4095 then enqueueFault (fun d _ => d) d r else d.foreignLost r.cls

/-- Meaning of DOORBELL. -/
def execDoorbell (r : RingNo) (tail : BitVec 32) (s : State) : Host.Outcome State Fault Refusal := .next (s.onDev (doorbellD r tail))
/-- Meaning of RPL_HEAD. -/
def execRplHead (r : RingNo) (head : BitVec 32) (s : State) : Host.Outcome State Fault Refusal := .next (s.onDev (rplHeadD r head))
/-- Meaning of RING_ENABLE. -/
def execRingEnable (r : RingNo) (word : BitVec 32) (s : State) : Host.Outcome State Fault Refusal := .next (s.onDev (ringEnableD r word))
/-- Meaning of REGISTER_WRITE. -/
def execRegisterWrite (off : BitVec 24) (data : List Byte) (s : State) : Host.Outcome State Fault Refusal :=
  .next (s.onDev (registerWriteD off data))
/-- Meaning of BAR2_MEMORY_WRITE. -/
def execBar2MemoryWrite (w : RingNo) (a : BitVec 32) (data : List Byte) (s : State) : Host.Outcome State Fault Refusal :=
  .next (s.onDev (bar2MemoryWriteD w a data))
/-- Meaning of BAR2_MEMORY_READ. -/
def execBar2MemoryRead (w : RingNo) (a : BitVec 32) (n : Nat) (ptag : BitVec 14) (s : State) : Host.Outcome State Fault Refusal :=
  .next (s.onDev (bar2MemoryReadD w a n ptag))
/-- Meaning of HOST_PORT_RESET. -/
def execHostPortReset (s : State) : Host.Outcome State Fault Refusal := .next (s.onDev hostPortResetD)
/-- Meaning of REPLY_COALESCE_TIMEOUT. -/
def execReplyCoalesceTimeout (r : RingNo) (s : State) : Host.Outcome State Fault Refusal := .next (s.onDev (replyCoalesceTimeoutD r))
/-- Meaning of MSIX_UNMASK. -/
def execMsixUnmask (v : Fin 2048) (s : State) : Host.Outcome State Fault Refusal := .next (s.onDev (msixUnmaskD v))
/-- Meaning of MGMT_COMMAND. -/
def execMgmtCommand (f : Frame) (s : State) : Host.Outcome State Fault Refusal := .next (s.onDev (mgmtCommandD f))
/-- Meaning of MGMT_REPLY. -/
def execMgmtReply (f : Frame) (s : State) : Host.Outcome State Fault Refusal := .next (s.onDev (mgmtReplyD f))
/-- Meaning of MGMT_EVENT. -/
def execMgmtEvent (f : Frame) (s : State) : Host.Outcome State Fault Refusal := .next (s.onDev (mgmtEventD f))

end Sys2Proof.Machine
end

