-- ==== Sys2Proof/Machine/Completion.lean ====
section
/-!
DEFINITION. How an operation of an internal requester ends (R62, R70, R75), and what each unit does with it.
-/
namespace Sys2Proof.Machine

open Sys2Proof

/-- The codes of R10 whose fate is lost. -/
def isLost (st : Nat) : Bool := st = 0x05 || st = 0x06 || st = 0x0C

/-! ### What each unit does -/

/-- The replay ends (R377), with its LOG record. -/
def Dev.endReplay (d : Dev) (state st : Nat) : Dev :=
  { d with faults := { d.faults with replayState := state, replayStatus := st } }.fault (mkRec 17 st (if st = 0 then 0 else 7) (obj 0x38 0))

/-- A replayed operation has ended: one not performed stops the replay, and what is not sent yet is not sent. -/
def Dev.replayDone (d : Dev) (st : Nat) : Dev :=
  if st = 0 || d.faults.replayState ≠ 1 then d
  else
    (d.dropOps fun o => decide (o.why = Purpose.replay) && o.phase = .waiting).endReplay 3 st

/-- A member record, or a FLUSH of a drain, of a launch failed (R184). -/
def Dev.recordFailed (d : Dev) (gi launch st : Nat) : Dev :=
  let g := d.group gi
  if g.launchSeq.toNat ≠ launch || (g.state ≠ 2 && g.state ≠ 3) || st = 0x08 || st = 0x05 || st = 0x0C then d
  else if st = 0x06 then d.abortAndGo gi 0x06 0x06 true
  else d.abortAndGo gi 0x04 st true

/-- Fetched bytes, or the failure of a fetch (R240, R243). -/
def Dev.fetchDone (d : Dev) (pos sp seq st : Nat) (bs : List Byte) : Dev :=
  let p := (d.pos pos).pipe
  if (d.pipe p).halted then d
  else if st ≠ 0 then d.stopPipe p pcFetch st pos 0
  else d.modStreamQ p pos sp false fun q =>
    pourFetches { q with fetches := q.fetches.map fun e => if e.1 = seq then (seq, some bs) else e }

/-- An exit write has ended (R243). -/
def Dev.writeDone (d : Dev) (pipe stream st : Nat) : Dev :=
  if st = 0 || st = 0x08 then d
  else
    let pos := (((d.pipe pipe).queues.find? fun q => q.out && q.stream = stream).map (·.pos)).getD 255
    d.stopPipe pipe pcWrite st pos 0

/-- A batch record has ended (R239): refusals but RETRY_LATER are counted. -/
def Dev.batchRecordDone (d : Dev) (pipe st : Nat) : Dev :=
  if st = 0 || st = 0x08 || isLost st then d else d.modPipe pipe fun x => { x with recordFails := satAdd 32 x.recordFails 1 }

/-- An access of the running copy has ended (R330). -/
def Dev.copyStep (d : Dev) (stream : Nat) (st : Nat) (body : Dev → CopyJob → Dev) : Dev :=
  match d.xlate.running with
  | some j =>
    if j.stream ≠ some stream then d
    else if st ≠ 0 then d.failCopy j st
    else body d j
  | none => d

/-- What the unit that asked for an operation does with its end. -/
def Dev.finishOut (d : Dev) (o : OutOp) (st : Nat) (bs : List Byte) : Dev :=
  let stream := tagStream o.tag
  match o.why with
  | .window w piece => (d.finishWindow w piece st bs).settleStream w stream
  | .fetch pos sp seq => d.fetchDone pos sp seq st bs
  | .write pipe _ => d.writeDone pipe stream st
  | .batchRecord pipe _ => d.batchRecordDone pipe st
  | .memberRecord g launch => if st = 0 then d else d.recordFailed g launch st
  | .drain g launch => if st = 0 || st = 0x05 || st = 0x08 then d.drained g launch else d.recordFailed g launch st
  | .result g _ => if st = 0 then d else d.recordFailed g (d.group g).launchSeq.toNat st
  | .mirror seq => if st = 0 then d.mirrorAcked seq else d
  | .replay => d.replayDone st
  | .copyRead at' => d.copyStep stream st fun d j => if j.status.isSome then d else d.copyOut at' bs
  | .copyWrite _ => d.copyStep stream st fun d j => d.setRunning { j with moved := j.moved + o.f.length.toNat }
  | .flush => d

/-! ### The end of an operation -/

/-- An operation ends with a status: it leaves the table, its path is drained, and what waited for it goes on. -/
def Dev.endOut (d : Dev) (o : OutOp) (st : Nat) (bs : List Byte) : Dev :=
  let stream := tagStream o.tag
  let d := (d.dropOp o.tag).modCtx stream fun c => if o.behind then c else { c with postedOn := c.postedOn.filter fun p => p ≠ opPath o.f }
  let d := ((d.finishOut o st bs).resendRefused stream o.f.dst).pumpAll
  if d.relay.waitWrites.isEmpty then d else d.settleWrites

/-- RETRY_LATER (R75): the stream sends nothing to the node until this back-off has elapsed. The operation joins those to be re-sent then; after its 16th
re-send it ends. -/
def Dev.refusedLater (d : Dev) (o : OutOp) : Dev :=
  let d := d.modCtx (tagStream o.tag) fun c => { c with blocked := (c.blocked.filter fun b => b.1 ≠ o.f.dst) ++ [(o.f.dst, false)] }
  if 16 ≤ o.resends then d.endOut o 0x08 [] else d.setOp { o with phase := .refused }

/-- COMPLETION and COMPLETION_DATA (R62): the first for an outstanding tag; any other is discarded and counted. One with a reserved BACKOFF is
discarded as corrupted whatever its STATUS (R108); a code that no module sends counts as lost (R13). -/
def completionIn (p : Port) (f0 : Frame) (d : Dev) : Dev :=
  match d.takeIn p f0 with
  | (none, d) => d
  | (some f, d) =>
    if 10 < f.backoff then d.countDiscard p discReserved
    else
      match d.req.ops.find? fun o => o.tag = f.tag && o.phase = .flying with
      | none => d.countEp p
      | some o =>
        let d := if f.echo && o.f.cls ≠ .g then d.limiterDecrease o.ep o.f.dst else d
        if f.status = 0x08 then d.refusedLater o else d.endOut o (fateCode f.status) (padTo o.f.length.toNat f.payload)

/-- COMPLETION. -/
def completionD (p : Port) (f : Frame) (d : Dev) : Dev := completionIn p { f with op := 0x30 } d

/-- COMPLETION_DATA. -/
def completionDataD (p : Port) (f : Frame) (d : Dev) : Dev := completionIn p { f with op := 0x31 } d

/-- Whether an operation's presentation has been refused by the pacer, so that no attempt of it is outstanding (R70). -/
def Dev.notPresented (d : Dev) (o : OutOp) : Bool := d.sw.gWait.any fun w => w.f.tag = o.tag && w.inp = o.inp

/-- REQUESTER_TIMEOUT (R70). -/
def requesterTimeoutD (tag : BitVec 32) (d : Dev) : Dev :=
  match d.req.ops.find? fun o => o.tag = tag && o.phase = .flying with
  | none => d
  | some o =>
    if d.notPresented o then d
    else
      match d.ctx (tagStream tag) with
      | none => d
      | some c =>
        if !o.retried && (o.f.opn = opLOAD || o.f.opn = opFLUSH || c.timeoutUs ≤ 60) then
          let o := { o with retried := true }
          (d.setOp o).sendAttempt c o
        else d.endOut o 0x05 []

/-- Meaning of COMPLETION. -/
def execCompletion (p : Port) (f : Frame) (s : State) : Host.Outcome State Fault Refusal := .next (s.onDev (completionD p f))
/-- Meaning of COMPLETION_DATA. -/
def execCompletionData (p : Port) (f : Frame) (s : State) : Host.Outcome State Fault Refusal := .next (s.onDev (completionDataD p f))
/-- Meaning of REQUESTER_TIMEOUT. -/
def execRequesterTimeout (tag : BitVec 32) (s : State) : Host.Outcome State Fault Refusal := .next (s.onDev (requesterTimeoutD tag))

end Sys2Proof.Machine
end

