-- ==== Sys2Proof/Machine/Round.lean ====
section
/-!
DEFINITION. What happens at a round boundary (R135, R137, R176), and when a neighbour is found dead (R161 step 4, R184).
-/
namespace Sys2Proof.Machine

open Sys2Proof

/-- Groups that wait for their resources, in the order in which they started waiting (R176). -/
def Dev.waitingGroups (d : Dev) : List Nat :=
  let put (l : List Nat) (g : Nat) : List Nat :=
    let before (x : Nat) : Bool := (d.launch x).turn ≤ (d.launch g).turn
    l.takeWhile before ++ [g] ++ l.dropWhile before
  (tkeys d.relay.groups fun _ g => g.state = 2).foldl put []

/-- Running groups whose members' RATE has changed since their records were written (R177). -/
def Dev.ratesChanged (d : Dev) : List Nat :=
  tkeys d.relay.groups fun i g => g.state = 3 && (g.launch.map (·.rates)).getD [] ≠ d.memberRates i

/-- The records' contents come into force, each with its EFFECTIVE (R137, R139). A record released has no owner from then on. -/
def Dev.turnRound (d : Dev) : Dev :=
  let owned (r : Resv) (n : Nat) : Nat := if r.fields.valid then n else 0
  { d with sw := { d.sw with round := d.sw.round + 1, gSent := [], admitted := [], roundWaits := [] },
           resvs := tmap d.resvs fun _ r =>
             { r with cur := r.fields, effective := d.effectiveOf r.fields, owner := owned r r.owner, ownerInst := owned r r.ownerInst } }

/-- ROUND_BOUNDARY (R137). -/
def roundBoundaryD (d : Dev) : Dev :=
  let waits := d.sw.roundWaits
  let d := d.turnRound
  let d := eachOf d.ratesChanged d fun d g => d.writeRecords g 1 0 0
  let d := d.representAll.settleWrites
  let d := eachOf d.waitingGroups d fun d g => if (d.group g).state = 2 then d.tryLaunch g else d
  eachOf waits d.startCopy fun d id => d.finishWait id 0 0

/-- DETOUR_PROBE_TIMEOUT (R161 step 4): STATE 3; the held frames are routed again, and launches with a dead member abort. A module without a node
number, which sends no probe, comes to it too (log 178). -/
def detourProbeTimeoutD (dir : Dir) (d : Dev) : Dev :=
  if (d.detour dir).state = 1 then ((d.setDetour dir 3 3).rerouteDir dir fun _ => true).abortDead else d

/-- Meaning of ROUND_BOUNDARY. -/
def execRoundBoundary (s : State) : Host.Outcome State Fault Refusal := .next (s.onDev roundBoundaryD)
/-- Meaning of DETOUR_PROBE_TIMEOUT. -/
def execDetourProbeTimeout (d : Dir) (s : State) : Host.Outcome State Fault Refusal := .next (s.onDev (detourProbeTimeoutD d))

end Sys2Proof.Machine
end

