-- ==== Sys2Proof/Machine/PowerCtl.lean ====
section
/-!
DEFINITION. The power controller's figures (R387–R393, R397, R398): limits, reasons, the throttle level and its records.
-/
namespace Sys2Proof.Machine

open Sys2Proof

/-- No cap (R389). -/
def noCap : Nat := 0xFFFFFFFF

/-- RM_TERM (R389, R393). -/
def PowerSt.rmTerm (p : PowerSt) : Nat := if p.hbState = 1 then p.rmCap.toNat else min p.rmCap.toNat p.fallback

/-- LIMIT_W (R389). -/
def PowerSt.limit (p : PowerSt) : Nat := min (min 4000 p.rmTerm) (min p.opCap.toNat p.thermal)

/-- THERMAL_LIMIT_W for a flow in mL/min and an inlet in 0.01 °C (R389). -/
def thermalLimit (flowMl : Nat) (inlet : Int) : Nat :=
  let byInlet : Nat := if inlet ≤ 4000 then 4000 else (4000 - 250 * (inlet - 4000) / 100).toNat
  min (min 4000 flowMl) byInlet

/-- The 0.5 ms average of the 10 µs samples (R390). -/
def PowerSt.average (p : PowerSt) : Nat := if p.samples.isEmpty then 0 else p.samples.foldl (· + ·) 0 / p.samples.length

/-- Largest of a list of temperatures with its place (R396). -/
def hottest (l : List Int) : Int × Nat :=
  match l with
  | [] => (0, 0)
  | t :: r =>
    let (best, at', _) := r.foldl (fun (a : Int × Nat × Nat) x => if a.1 < x then (x, a.2.2, a.2.2 + 1) else (a.1, a.2.1, a.2.2 + 1)) (t, 0, 1)
    (best, at')

/-- A signed 16-bit field. -/
def int16 (v : Int) : Nat := (v % 65536).toNat

/-- REASONS (R397). -/
def PowerSt.reasons (p : PowerSt) : Nat :=
  b2n (p.limit < p.average) + 2 * b2n p.forcedPin + 4 * b2n p.forcedDroop + 8 * b2n p.forcedPeak + 16 * b2n (p.forcedTj || p.tempHigh) +
  32 * b2n p.forcedCool + 64 * b2n (p.hbState ≠ 1) + 128 * b2n p.dramHigh

/-- Whether a condition of R391 forces level 4. -/
def PowerSt.forced (p : PowerSt) : Bool := p.forcedPin || p.forcedDroop || p.forcedPeak || p.forcedTj || p.forcedCool

/-- Most input power of a level (R387). -/
def levelMax (level : Nat) : Nat := match level with | 0 => 4000 | 1 => 3500 | 2 => 3000 | 3 => 2400 | _ => 1500

/-- The lowest level whose maximum is at most a limit (R390). -/
def levelFor (limit : Nat) : Nat := ((upTo 5).find? fun l => levelMax l ≤ limit).getD 4

/-- The output pins of the management connector (R436): MOD_PRESENT# tied to ground, THERMAL_TRIP# low from a shutdown until the next power-on
reset, PWR_GOOD high while conversion runs. The DEBUG pins are inert: no command of the table drives them (log 214). -/
structure OutPins where
  modPresent  : Bool
  thermalTrip : Bool
  pwrGood     : Bool
deriving DecidableEq, Repr

/-- The levels of the output pins; an open-drain pin that is not driven reads high. -/
def Dev.pins (d : Dev) : OutPins := { modPresent := false, thermalTrip := !(d.power.auxOn && d.power.shutdown), pwrGood := d.power.mainOn }

/-- A POWER record (R398). -/
def powerRec (d : Dev) (code : Nat) : FaultRec :=
  let p := d.power
  let (t, i) := hottest p.tj
  mkRec 12 code 0 (obj 0x20 0)
    [(32, 1, d.throttle), (33, 1, p.reasons), (36, 4, p.limit), (40, 4, p.average), (44, 2, int16 t), (46, 1, i)]

/-- The power controller changed. -/
def Dev.modPower (d : Dev) (f : PowerSt → PowerSt) : Dev := { d with power := f d.power }

/-- The level in force becomes another one (R387, R388, R399): at level 4 EFFECTIVE is scaled at once. -/
def Dev.setLevel (d : Dev) (level : Nat) (f : PowerSt → PowerSt) : Dev :=
  let old := d.throttle
  let d := d.modPower fun p => { f p with level := level }
  if d.throttle = old then d
  else
    let d := d.fault (powerRec d 0x01)
    if d.throttle = 4 then { d with resvs := tmap d.resvs fun _ r => { r with effective := d.effectiveOf r.cur } } else d

/-- A command lowered LIMIT_W (R390): below the average, the level becomes the lowest that meets it; a forced level stands (R399). -/
def Dev.limitLowered (d : Dev) : Dev :=
  if d.power.forced then d
  else if d.power.limit < d.power.average then d.setLevel (max d.power.level (levelFor d.power.limit)) id else d

end Sys2Proof.Machine
end

