-- ==== Sys2Proof/Machine/Objects.lean ====
section
/-!
DEFINITION. The objects of R316 as GET returns them: their images, and for each class the fields that are not reserved with those a
SET writes.
-/
namespace Sys2Proof.Machine

open Sys2Proof

/-! ### Fields -/

/-- A field of an object: its lowest bit counted from byte 0, its width, and whether a SET writes it (RW, RW1C or WO of R6). -/
structure Fld where
  lo : Nat
  n  : Nat
  rw : Bool

/-- Bits `hi` to `lo` of the word that starts at byte `b`, read-only. -/
def ro (b hi lo : Nat) : Fld := ⟨8 * b + lo, hi + 1 - lo, false⟩
/-- As above, written by a SET. -/
def rw (b hi lo : Nat) : Fld := ⟨8 * b + lo, hi + 1 - lo, true⟩

/-- Link record (R295), role record (R149) and the rest of a port object (R318). -/
def portFields : List Fld :=
  [ro 0 31 0, ro 4 7 2, rw 4 1 0, ro 5 7 0, ro 6 15 0, ro 8 8 0, ro 10 8 0, rw 12 15 0, rw 14 15 0, rw 16 31 0, ro 20 31 0, ro 24 31 0,
   ro 28 7 0, ro 32 63 0, ro 40 63 0, rw 48 7 0, ro 50 0 0, rw 52 31 0, rw 56 31 0, ro 64 255 0, ro 96 15 0, ro 98 9 0, ro 100 0 0,
   ro 104 63 0, ro 128 1023 0, ro 256 319 0, ro 296 575 0, ro 368 127 0, ro 384 703 0]

/-- A member-table entry at byte `b` (R168). -/
def memberFields (b : Nat) : List Fld := [rw b 63 0, rw (b + 8) 63 0, rw (b + 16) 47 0]

/-- The fields of a class of objects, of an object of `size` bytes (R316). -/
def fieldsOf (cls size : Nat) : List Fld :=
  match cls with
  | 0x01 => [ro 0 63 0, ro 8 15 0, ro 10 15 0, ro 12 15 0, ro 14 2 0, ro 16 63 0, ro 24 63 0, ro 32 0 0, ro 33 7 0, ro 40 63 0]
  | 0x02 => portFields
  | 0x03 => [ro 0 15 0, ro 4 95 0]
  | 0x04 => [rw 0 15 0, ro 2 15 0, rw 4 7 0, rw 5 7 0, rw 6 9 0, ro 8 3 0, ro 9 23 0, ro 16 63 0, ro 24 31 0, rw 28 0 0]
  | 0x05 => [ro 0 15 0, ro 2 10 0, rw 4 28 15, rw 8 31 7] ++
      (upTo 6).flatMap fun i => [rw (16 + 8 * i) 2 0, ro (17 + 8 * i) 2 0, ro (20 + 8 * i) 31 0]
  | 0x06 => [rw 0 63 62, rw 0 50 40, rw 0 39 32, ro 0 31 0]
  | 0x07 => [rw 0 63 0, rw 8 63 63, rw 8 58 56, rw 8 55 44, rw 8 31 0, ro 16 32 0]
  | 0x08 => [ro 0 9 0, ro 2 7 0, ro 4 31 0, ro 8 31 0, ro 16 319 0]
  | 0x09 => [ro 0 9 0, ro 2 7 0, ro 3 0 0, ro 4 3 0, ro 8 47 0, ro 16 31 0]
  | 0x0B => [rw 0 63 0, ro 8 15 0, ro 10 23 0, rw 14 9 0, rw 16 7 0, rw 17 7 4, rw 17 2 0, rw 18 15 0, ro 20 15 0, rw 22 15 0, rw 24 31 0,
             rw 28 31 0, rw 32 31 0, rw 36 31 0, rw 40 7 0, ro 44 31 0, rw 48 47 0, ro 56 63 0] ++
      (upTo ((size - 64) / 32)).flatMap fun i => memberFields (64 + 32 * i)
  | 0x10 => [ro 0 7 0, ro 2 15 0, ro 4 9 0, ro 6 1 0, ro 7 7 0, ro 8 31 0, ro 12 5 0, ro 13 4 0, rw 14 4 0, ro 16 127 0, ro 32 31 0, ro 40 63 0]
  | 0x11 => [ro 0 2 0, ro 1 1 0, ro 2 15 0, ro 4 31 0]
  | 0x12 => [ro 0 31 0, ro 4 9 0, ro 6 15 0, rw 8 63 0, ro 16 31 0, rw 20 31 0, ro 24 255 0]
  | 0x18 => [ro 0 7 0, rw 2 15 0, rw 4 15 0, rw 6 15 0, ro 8 47 0, ro 16 63 0, ro 24 127 0, ro 40 63 0, ro 48 63 0]
  | 0x19 => [ro 0 15 0, ro 2 2 0, rw 8 63 0, ro 16 63 0]
  | 0x1A => [ro 0 31 0, ro 8 63 0]
  | 0x20 => [ro 0 23 0, ro 4 95 0, rw 16 31 0, ro 20 95 0, ro 32 95 0, ro 44 7 0, ro 48 255 0, ro 80 127 0, ro 96 127 0]
  | 0x28 => [ro 0 31 0, ro 4 159 0, ro 24 7 0, ro 28 95 0, ro 40 63 0]
  | 0x29 => [ro 0 31 0, ro 4 95 0, ro 16 63 0, ro 24 31 0, ro 64 (8 * (size - 64) - 1) 0].filter fun f => f.lo + f.n ≤ 8 * size
  | 0x30 => [rw 0 7 0, ro 1 7 0, rw 2 1 0, ro 3 7 0, rw 4 31 0, rw 8 11 0, rw 12 31 0, rw 16 31 0, rw 20 31 0, ro 32 191 0]
  | 0x31 => [rw 0 7 0, ro 1 7 0, rw 4 31 0, rw 8 31 0, rw 12 31 0, ro 16 63 0, ro 24 63 0]
  | 0x38 => [ro 0 63 0, ro 8 15 0, ro 10 0 0, ro 16 63 0, ro 24 31 0, ro 32 607 0, rw 128 0 0, ro 128 1 1, ro 130 31 0, ro 136 319 0, rw 176 1 0,
             ro 177 15 0, rw 180 31 0, rw 184 9 0, rw 192 255 0, ro 224 127 0]
  | 0x39 => [ro 0 255 0, ro 64 383 0]
  | 0x3A => [ro 0 15 0, ro 8 63 0, ro 64 767 0]
  | _ => []

/-- The bits of an object that fields of a kind cover. -/
def fieldBits (fs : List Fld) (p : Fld → Bool) : Nat :=
  fs.foldl (fun m f => if p f then m ||| ((2 ^ f.n - 1) <<< f.lo) else m) 0

/-! ### Images -/

/-- `n` bytes, most significant first, as ECDSA numbers stand (R334). -/
def be (n v : Nat) : List Byte := (le n v).reverse

/-- The number a big-endian byte string spells. -/
def unbe (bs : List Byte) : Nat := unle bs.reverse

/-- VERSION of an image (R402), 0 where there is none. -/
def imageVersion (i : Option Image) : Nat := match i with | some i => num i.header 8 4 | none => 0

/-- Whether a confidential slice exists (R317). -/
def Dev.confActive (d : Dev) : Bool := d.prot.slices.any fun e => e.2.conf && e.2.state ≠ 0

/-- Identity object (R317). -/
def identityImage (d : Dev) : List Byte :=
  let s := d.ident.straps
  let straps := if d.ident.sampled then b2n s.bootSrc * 2 ^ 15 + b2n s.parity * 2 ^ 14 + s.plane.toNat * 2 ^ 11 + s.z.toNat * 256 + s.y.toNat * 16 + s.x.toNat
    else 0
  ascii "IZH-1152" ++ [0xB1, 0x01] ++ le 2 d.node ++ le 2 straps ++
  le 1 (4 * b2n d.sec.debugUnlocked + 2 * b2n d.confActive + b2n d.strapsOk) ++ zeros 1 ++ le 8 Config.serial.toNat ++
  le 4 d.fw.version.toNat ++ le 4 (imageVersion (tfind d.flash.banks (1 - d.fw.running))) ++ le 1 d.ident.bootBank ++ le 1 d.fw.fwState ++ zeros 6 ++
  le 8 d.now ++ zeros 16

/-- The link record of an external port (R295). -/
def linkImage (s : PortSt) : List Byte :=
  le 1 s.lstate ++ le 1 s.txLanes.toNat ++ le 1 s.rxLanes.toNat ++ le 1 (widthOf s.txLanes * 16 + widthOf s.rxLanes) ++
  le 1 (b2n s.txClkSrc * 128 + b2n s.rxClkSrc * 64 + s.txPwr * 16 + s.rxPwr * 4 + s.pwrPolicy) ++ le 1 s.hold ++ le 2 s.rtt ++ le 2 s.txMapped.toNat ++
  le 2 s.rxMapped.toNat ++ le 2 s.quietIdle ++ le 2 s.checkInterval ++ le 4 s.sleepIdle ++ le 4 s.narrowings ++ le 4 s.fullTrainings ++
  le 1 s.eqSource ++ zeros 3 ++ le 8 s.corrected ++ le 8 s.uncorrectable

/-- Whether a node is busy at this module as a group member or the source of a running batch (R41). -/
def Dev.nodeBusy (d : Dev) (n : Nat) : Bool :=
  (d.relay.groups.any fun e => (e.2.state = 2 || e.2.state = 3) && e.2.members.any fun m => m.node.toNat = n) ||
  d.tiles.pipes.any fun e => e.2.batches.any fun b => b.running && b.src.toNat = n

/-- Whether the endpoint on an edge port is active at this module (R41). -/
def Dev.endpointActive (d : Dev) (p : Nat) : Bool :=
  (d.port p).recentFrame || match d.edgeNode p with | none => false | some n => d.nodeBusy n

/-- Port object (R318): bytes 0–51 and 60–127 of an internal port read 0. -/
def portImage (d : Dev) (p : Nat) : List Byte :=
  let s := d.port p
  let low := if p < 144 then linkImage s ++ le 1 s.role.toNat ++ zeros 1 ++ le 1 (b2n s.heldGrant) ++ zeros 1 else zeros 52
  let mid := if p < 144 then
      padTo 32 s.profile ++ le 2 ((d.edgeNode p).getD 0xFFFF) ++ le 2 s.slice.toNat ++ le 1 (b2n (s.kind = 1 && d.endpointActive p)) ++
      zeros 3 ++ le 8 s.lastFrameNs ++ zeros 16
    else zeros 64
  let cls := (upTo 4).flatMap fun i =>
    le 8 (s.framesIn.getD i 0) ++ le 8 (s.flitsIn.getD i 0) ++ le 8 (s.framesOut.getD i 0) ++ le 8 (s.flitsOut.getD i 0)
  low ++ le 4 s.markDepth ++ le 4 s.spillThresh ++ zeros 4 ++ mid ++ cls ++
  le 8 s.cutThrough ++ le 8 s.marked ++ le 8 s.spillWritten ++ le 8 s.spillRead ++ le 8 s.spillPeak ++ (upTo 9).flatMap (fun i => le 8 (s.creditWait.getD i 0)) ++
  le 8 s.pacerAccept ++ le 8 s.pacerRefuse ++ (upTo 11).flatMap (fun i => le 8 (s.discards.getD i 0)) ++ zeros 40

/-- Lane object (R296). -/
def laneImage (d : Dev) (inst : Nat) : List Byte :=
  let n := (d.port (inst / 16)).lane (inst % 16)
  if 144 ≤ inst / 16 then zeros 16
  else le 1 n.state ++ le 1 n.cause ++ zeros 2 ++ le 4 n.losEvents ++ le 4 n.lolEvents ++ le 4 n.lastBer.toNat

/-- Reservation record (R137, R353). -/
def resvImage (d : Dev) (i : Nat) : List Byte :=
  let r := d.resv i
  let x := r.fields
  let hide := d.isConf x.slice.toNat
  le 2 x.flits ++ le 2 r.effective ++ le 1 x.input ++ le 1 x.output ++ le 2 x.slice.toNat ++ le 1 r.owner ++ le 3 r.ownerInst ++ zeros 4 ++
  le 8 (if hide then 0 else r.admitted) ++ le 4 (if hide then 0 else r.refused) ++ le 4 (b2n x.valid)

/-- Routing object (R147, R160). -/
def routingImage (d : Dev) : List Byte :=
  le 2 d.node ++ le 2 d.rack ++ le 4 (ringsWord d.rt) ++ le 4 (domainWord d.rt) ++ zeros 4 ++
  (upTo 6).flatMap fun i =>
    let x := d.detour i
    le 1 x.side ++ le 1 (4 * b2n x.released + x.state) ++ zeros 2 ++ le 4 x.activations

/-- Node entry (R151). -/
def nodeImage (e : NodeEntry) : List Byte :=
  le 8 (b2n e.valid * 2 ^ 63 + b2n e.dead * 2 ^ 62 + e.rack.toNat * 2 ^ 40 + e.edgePort.toNat * 2 ^ 32 + e.discards)

/-- Region entry (R33), with R38. -/
def regionImage (d : Dev) (i : Nat) : List Byte :=
  let r := d.region i
  let hide := d.isConf r.slice.toNat
  le 8 (if hide then 0 else r.key.toNat) ++
  le 8 (b2n r.valid * 2 ^ 63 + b2n r.a * 2 ^ 58 + b2n r.w * 2 ^ 57 + b2n r.r * 2 ^ 56 + r.slice.toNat * 2 ^ 46 + r.enc.toNat * 2 ^ 44 +
        r.length.toNat * 2 ^ 19 + r.base.toNat) ++
  le 8 (b2n hide * 2 ^ 32 + r.refusals) ++ zeros 8

/-- Key slot (R350). -/
def keySlotImage (d : Dev) (i : Nat) : List Byte :=
  let k := tget d.prot.keySlots i {}
  let r := if k.state = 1 then d.releaseOf k.slice.toNat else none
  le 2 k.slice.toNat ++ le 1 k.state ++ zeros 1 ++ le 4 k.releaseId.toNat ++ le 2 ((r.map fun r => r.nodes.length).getD 0) ++
  le 2 ((r.map fun r => r.lasts.length).getD 0) ++ zeros 4 ++ be 40 k.wrapped.toNat ++ zeros 8

/-- Slice object (R319). -/
def sliceImage (d : Dev) (i : Nat) : List Byte :=
  let s := d.slice i
  le 2 i ++ le 1 s.state ++ le 1 (b2n s.conf) ++ le 1 s.disabled.toNat ++ zeros 3 ++ le 8 s.l1Table.toNat ++
  le 2 (d.ports.filter fun e => e.1 < 144 && e.2.kind = 1 && i ≠ 0 && e.2.slice.toNat = i).length ++
  le 2 (d.req.streams.filter fun c => c.slice.toNat = i).length ++ zeros 12

/-- Group object and member table (R167, R168), keys under R38. -/
def groupImage (d : Dev) (gi : Nat) : List Byte :=
  let g := d.group gi
  let hide := d.isConf g.slice.toNat
  let entry (m : MemberEntry) : List Byte :=
    le 6 m.result.toNat ++ le 2 m.node.toNat ++ le 8 (if hide then 0 else m.key.toNat) ++ le 6 m.record.toNat ++ zeros 10
  le 8 (if hide then 0 else g.key.toNat) ++ le 2 g.launchSeq.toNat ++ le 1 g.state ++ le 1 g.lastStatus ++ le 1 g.lastCause ++ zeros 1 ++
  le 2 g.slice.toNat ++ le 1 (g.coll * 16 + g.reduce * 4 + g.transport) ++ le 1 (g.dtype * 16 + g.axisOrder) ++ le 2 g.members.length ++
  le 2 (d.localMembers g).length ++ le 2 g.depth ++ le 4 g.elements ++ le 2 g.rate ++ le 2 g.torusRate ++ le 4 g.timeout ++ le 2 g.xSet.toNat ++
  le 2 g.ySet.toNat ++ le 1 g.zSet.toNat ++ zeros 3 ++ le 4 (if g.dtype = 5 then g.saturations else 0) ++ le 8 g.residual.toNat ++ le 4 g.launches ++ le 4 g.aborts ++
  g.members.flatMap entry

/-- A position as its object shows it: a pass-through one is in STATE 6 and has no compute of its own (R188, log 189). -/
def Dev.shownPos (d : Dev) (i : Nat) : PosSt := if isPassThrough i then { d.pos i with state := 6, servedBy := 2 } else d.pos i

/-- Position object (R214), with the lockout of R216. -/
def positionImage (d : Dev) (i : Nat) : List Byte :=
  let x := d.shownPos i
  let hide := d.isConf x.slice.toNat
  let sh (v : Nat) : Nat := if hide then 0 else v
  le 2 i ++ le 1 x.state ++ le 1 x.cause ++ le 2 x.slice.toNat ++ le 1 x.servedBy ++ le 1 1 ++ le 4 (sh x.faultIdx) ++ le 1 (sh x.faultSlot) ++
  le 1 (sh x.faultBank) ++ le 2 (sh x.flags.toNat) ++ le 8 (sh x.cycles) ++ le 8 (sh x.heldCycles) ++ le 4 x.corrected ++ zeros 4 ++
  le 8 (sh x.srSeed.toNat) ++ zeros 16

/-- Positions of a tile die with compute (R215). -/
def Dev.placeable (d : Dev) (t : Nat) : Nat := ((upTo 200).filter fun i => tileDieOf i = t && !isPassThrough i && (d.pos i).state ≠ 5).length

/-- Tile die object (R215). -/
def tileDieImage (d : Dev) (t : Nat) : List Byte :=
  let x := d.tileDie t
  le 1 t ++ le 1 x.spare ++ le 1 x.sparePos ++ le 1 (d.placeable t) ++ le 4 x.substituted ++ zeros 8

/-- Pipeline object (R232). -/
def pipeImage (d : Dev) (i : Nat) : List Byte :=
  let p := d.pipe i
  let hide := d.isConf p.slice.toNat
  let sh (v : Nat) : Nat := if hide then 0 else v
  le 1 i ++ le 1 p.state ++ le 1 p.cause ++ le 1 p.status ++ le 2 p.slice.toNat ++ le 1 p.faultPos ++ le 1 p.faultCause ++ le 8 (sh p.entryKey.toNat) ++
  le 4 p.lastCrc.toNat ++ le 4 p.stallUs ++ le 8 (sh p.meshCycles) ++ le 8 (sh p.heldCycles) ++ le 8 p.batchesDone ++ le 8 p.build.toNat ++ zeros 8

/-- Pool object (R254). -/
def poolImage (d : Dev) : List Byte :=
  let p := d.pool
  le 1 p.state ++ zeros 1 ++ le 2 p.tablePages ++ le 2 p.logPages ++ le 2 p.residPages ++ le 8 p.residBase ++
  le 4 (p.mappedOut ++ p.mappedExtra).eraseDups.length ++ le 4 p.sweeping.length ++ le 8 p.corrected ++ le 8 p.uncorrectable ++
  le 4 p.repairs ++ le 4 p.exhausted.length ++ le 8 p.patrolDone ++ zeros 8

/-- Check-value context (R265). -/
def checkImage (d : Dev) (i : Nat) : List Byte :=
  let c := d.checkCtx i
  le 1 c.state ++ le 1 c.status ++ le 1 (4 * b2n c.isMatch + c.poly) ++ zeros 5 ++ le 8 c.running.toNat ++ le 8 c.done ++ zeros 8

/-- Copy engine (R329). -/
def copyImage (d : Dev) : List Byte :=
  le 2 d.xlate.copies.length ++ le 2 (b2n d.xlate.running.isSome) ++ zeros 4 ++ le 8 d.xlate.completed

/-- Power and thermal object (R397). -/
def powerImage (d : Dev) : List Byte :=
  let p := d.power
  let (t, i) := hottest p.tj
  le 1 d.throttle ++ le 1 p.reasons ++ le 1 p.hbState ++ zeros 1 ++ le 4 p.limit ++ le 4 p.rmCap.toNat ++ le 4 p.opCap.toNat ++ le 4 p.fallback ++
  le 4 p.thermal ++ le 4 p.average ++ le 4 p.peak ++ le 2 p.inputMv ++ le 2 p.auxMv ++ le 2 (int16 p.inlet) ++ le 2 (int16 p.outlet) ++ le 2 p.flow ++
  le 2 (int16 t) ++ le 1 i ++ zeros 3 ++ (upTo 15).flatMap (fun k => le 2 (int16 (p.tj.getD k 0))) ++ le 2 (int16 p.pkgMax) ++ le 8 p.throttledNs ++
  le 8 p.level4Ns ++ le 4 p.pinEvents ++ le 4 p.droopEvents ++ le 4 p.peakEvents ++ le 4 p.thermalEvents ++ zeros 16

/-- The highest erase count of sectors `lo` to `lo + n − 1` (R401). -/
def FlashSt.maxErases (f : FlashSt) (lo n : Nat) : Nat := (f.erases.map fun e => if lo ≤ e.1 && e.1 < lo + n then e.2 else 0).foldl max 0

/-- A FIRMWARE record (R417). -/
def fwRec (d : Dev) (code version : Nat) : FaultRec := mkRec 13 code 0 (obj 0x28 0) [(32, 4, version), (36, 1, d.fw.lastFallback)]

/-- Sectors erased once more; one whose count passes 90,000 is recorded. -/
def Dev.eraseSectors (d : Dev) (lo n : Nat) : Dev :=
  let count (k : Nat) : Nat := tget d.flash.erases k 0
  let worn := (List.range' lo n).any fun k => count k = 90000
  let d := { d with flash := { d.flash with erases := (List.range' lo n).foldl (fun t k => tmod t k 0 (· + 1)) d.flash.erases } }
  if worn then d.fault (fwRec d 0x08 d.fw.version.toNat) else d

/-! ### Images (R402, R403) -/

/-- SVN of an image. -/
def Image.svn (i : Image) : Nat := num i.header 7 1
/-- BODY_LEN. -/
def Image.bodyLen (i : Image) : Nat := num i.header 12 4
/-- STR_MIN. -/
def Image.strMin (i : Image) : Nat := num i.header 16 2
/-- STR_MAX. -/
def Image.strMax (i : Image) : Nat := num i.header 18 2
/-- STR_OUT. -/
def Image.strOut (i : Image) : Nat := num i.header 20 2
/-- BODY_DIGEST. -/
def Image.digest (i : Image) : BitVec 384 := BitVec.ofNat 384 (num i.header 32 48)
/-- VERSION. -/
def Image.version (i : Image) : Nat := num i.header 8 4

/-- Whether an image's STR_OUT is a format that another image reads. -/
def Image.readBy (i j : Image) : Bool := j.strMin ≤ i.strOut && i.strOut ≤ j.strMax

/-- Whether the module accepts an image's header (R404, R403): its maker signature, its security version, its module. -/
def headerOk (fz : Fuses) (i : Image) : Bool :=
  let h := i.header
  let bind := num h 24 8
  h.length = 512 && num h 0 4 = 0x57465A49 && num h 4 2 = 1 && num h 6 1 = 0xB1 && allZero (cut h 22 2) && allZero (cut h 80 336) &&
  i.svn ≤ 63 && fz.svnFloor ≤ i.svn && 1 ≤ i.bodyLen && i.bodyLen ≤ 67108352 && (bind = 0 || bind = Config.serial.toNat) && i.readBy i &&
  Config.ecdsaVerify Config.makerPub (Config.sha384 (h.take 416)) (BitVec.ofNat 384 (unbe (cut h 416 48))) (BitVec.ofNat 384 (unbe (cut h 464 48)))

/-- Whether an image's body is whole and matches BODY_DIGEST. -/
def Image.bodyOk (i : Image) : Bool := i.body.length = i.bodyLen && decide (Config.sha384 i.body = i.digest)

/-- Whether an image verifies. -/
def imageOk (fz : Fuses) (i : Image) : Bool := headerOk fz i && i.bodyOk

/-- The 64 bytes of a boot-select record (R411), MAGIC and CRC with them. A copy is `valid` while both hold; a torn one is not. -/
def BootSelect.bytes (b : BootSelect) : List Byte :=
  let head := le 4 0x4C455342 ++ le 4 b.seq ++ le 1 b.bootBank ++ le 1 (b2n b.stagedOk) ++ zeros 2 ++ le 48 b.digest.toNat
  head ++ le 4 (crc32c head)

/-- The boot-select record in force: the valid copy with the higher SEQ (R411). -/
def FlashSt.inForce (f : FlashSt) : BootSelect :=
  f.select.foldl (fun b x => if x.valid && (b.seq < x.seq || !b.valid) then x else b) (f.select.headD {})

/-- Firmware object (R412). -/
def firmwareImage (fz : Fuses) (d : Dev) : List Byte :=
  let f := d.fw
  let bank (b : Nat) : Nat := match tfind d.flash.banks b with | some i => if imageOk fz i then i.version else 0 | none => 0
  le 1 f.fwState ++ le 1 f.stageState ++ le 1 f.lastFallback ++ le 1 fz.svnFloor ++ le 4 (imageVersion f.staging) ++ le 4 f.stagedBytes ++
  le 4 (if f.fwState = 1 then 120000 - (d.now - f.trialStart) / 1000000 else 0) ++ le 4 (bank 0) ++ le 4 (bank 1) ++ le 1 d.flash.inForce.bootBank ++ zeros 3 ++
  le 4 d.flash.handovers ++ le 4 d.flash.fallbacks ++ le 4 (d.flash.maxErases 0 8192) ++ le 8 f.lastHandover ++ zeros 16

/-- Configuration object of a copy (R416): its status, then its newest valid block. -/
def configImage (d : Dev) (copy : Nat) : List Byte :=
  let mine := d.flash.config.filter fun b => b.copy = copy
  let good := mine.filter CfgBlock.valid
  let newest := cfgInForce good
  let inForce := ((cfgInForce d.flash.config).map fun b => decide (b.copy = copy)).getD false
  let st := if mine.isEmpty then 0 else if good.isEmpty then 3 else if (mine.getLast?.map (·.valid)).getD false then 1 else 2
  let erases := le 4 (d.flash.maxErases (0x1000 + 256 * copy) 256)
  match newest with
  | none => le 1 st ++ zeros 23 ++ erases ++ zeros 36
  | some b => le 1 st ++ le 1 (b2n inForce) ++ le 1 b.slot ++ le 1 b.role ++ le 4 b.seq ++ le 4 b.bytes.length ++ cut b.bytes 60 4 ++ le 8 b.time ++
      erases ++ zeros 36 ++ b.bytes

/-- Perturbation object (R419); CONTROL reads 0. -/
def perturbImage (d : Dev) (i : Nat) : List Byte :=
  let x := d.perturb i
  le 1 x.kind ++ le 1 x.state ++ zeros 1 ++ le 1 x.cause ++ le 4 x.target.toNat ++ le 2 (x.classMask.toNat * 256 + x.vcMask.toNat) ++ zeros 2 ++
  le 4 x.paramA.toNat ++ le 4 x.paramB.toNat ++ le 4 x.duration.toNat ++ zeros 8 ++ le 8 x.applied ++ le 8 x.started ++ le 8 x.ended ++ zeros 8

/-- Drill object (R378). -/
def drillImage (d : Dev) (i : Nat) : List Byte :=
  let x := tget d.test.drills i {}
  le 1 x.kind ++ le 1 x.state ++ zeros 2 ++ le 4 x.target.toNat ++ le 4 x.interval.toNat ++ le 4 x.jitter.toNat ++ le 4 x.injected ++ le 4 x.skipped ++
  le 8 x.last

/-- Fault queue object with the input log block (R359, R374); REPLAY_CTL reads 0. -/
def faultImage (d : Dev) : List Byte :=
  let f := d.faults
  le 8 f.nextSeq ++ le 2 f.held ++ le 1 (b2n f.overflow) ++ zeros 5 ++ le 8 f.eventMask.toNat ++ le 2 f.vector.toNat ++ le 2 f.eventNode.toNat ++ zeros 4 ++
  (upTo 19).flatMap (fun i => le 4 (f.overflowed.getD i 0)) ++ zeros 20 ++
  le 1 (2 * b2n f.mirrorOk + b2n f.logEnable) ++ zeros 1 ++ le 2 (d.buddy.getD 0xFFFF) ++ le 2 (d.mirrorSourceOf.getD 0xFFFF) ++ zeros 2 ++ le 8 f.headSeq ++
  le 8 f.tailSeq ++ le 8 f.mirroredSeq ++ le 8 f.mirrorHead ++ le 8 f.mirrorTail ++ zeros 1 ++ le 1 f.replayState ++ le 1 f.replayStatus ++ zeros 1 ++
  le 2 f.deadNode.toNat ++ le 2 f.target.toNat ++ le 2 f.newSlice.toNat ++ zeros 6 ++ le 8 f.fromSeq.toNat ++ le 8 f.toSeq.toNat ++ le 8 f.oldKey.toNat ++
  le 8 f.newKey.toNat ++ le 8 f.replayed ++ le 8 f.skipped ++ zeros 16

/-- Audit object (R338). -/
def auditImage (d : Dev) : List Byte :=
  let oldest := (((d.flash.audit ++ d.sec.unwritten).head?).map (·.seq)).getD d.sec.nextSeq
  le 8 d.sec.nextSeq ++ le 8 oldest ++ le 8 d.sec.lastSeal ++ le 8 d.flash.overwritten ++ zeros 32 ++ le 48 d.sec.head.toNat ++ zeros 16

/-- Credential object (R334). -/
def credImage (d : Dev) (i : Nat) : List Byte :=
  let c := d.cred i
  le 1 c.role ++ le 1 c.state ++ zeros 6 ++ le 8 c.last ++ zeros 48 ++ be 96 c.pub.toNat

/-- The lowest and highest instance of a class (R316). -/
def instances (cls : Nat) : Nat × Nat :=
  match cls with
  | 0x02 => (0, 176) | 0x03 => (0, 2824) | 0x04 => (0, 16383) | 0x06 => (0, 49151) | 0x07 => (0, 65535) | 0x08 => (0, 63) | 0x09 => (0, 1023)
  | 0x0B => (0, 4095) | 0x10 => (0, 199) | 0x11 => (0, 7) | 0x12 => (1, 192) | 0x19 => (0, 63) | 0x29 => (0, 1) | 0x30 => (0, 255) | 0x31 => (0, 63)
  | 0x3A => (0, 31) | _ => (0, 0)

/-- Whether an object exists (R316): lanes are 0 to 8 of their port. -/
def instanceOk (cls inst : Nat) : Bool :=
  (instances cls).1 ≤ inst && inst ≤ (instances cls).2 && !(cls = 0x03 && 8 < inst % 16)

/-- An object as GET returns it (R320, R321). -/
def Dev.image (fz : Fuses) (d : Dev) (cls inst : Nat) : List Byte :=
  match cls with
  | 0x01 => identityImage d | 0x02 => portImage d inst | 0x03 => laneImage d inst | 0x04 => resvImage d inst | 0x05 => routingImage d
  | 0x06 => nodeImage (tget d.rt.nodes inst {}) | 0x07 => regionImage d inst | 0x08 => keySlotImage d inst | 0x09 => sliceImage d inst
  | 0x0B => groupImage d inst | 0x10 => positionImage d inst | 0x11 => tileDieImage d inst | 0x12 => pipeImage d inst | 0x18 => poolImage d
  | 0x19 => checkImage d inst | 0x1A => copyImage d | 0x20 => powerImage d | 0x28 => firmwareImage fz d | 0x29 => configImage d inst
  | 0x30 => perturbImage d inst | 0x31 => drillImage d inst | 0x38 => faultImage d | 0x39 => auditImage d | 0x3A => credImage d inst
  | _ => []

end Sys2Proof.Machine
end

