-- ==== Sys2Proof/Machine/GetSet.lean ====
section
/-!
DEFINITION. GET and SET (R320), common to all families: OFFSET and LENGTH, the bytes read, and the fields a SET writes.
-/
namespace Sys2Proof.Machine

open Sys2Proof

/-- What R320 finds of OFFSET and LENGTH, before any other parameter, of an object of `size` bytes. -/
def spanFault (c : Cmd) (classes : List Nat) (size : Nat) : Option (Nat × Nat) :=
  if !classes.contains c.cls.toNat then some (0x09, 8)
  else if c.u 16 4 % 8 ≠ 0 then some (0x09, 16)
  else if c.u 20 4 % 8 ≠ 0 || c.u 20 4 = 0 then some (0x09, 20)
  else if instanceOk c.cls.toNat c.inst.toNat && size < c.u 16 4 + c.u 20 4 then some (0x03, 20)
  else none

/-- The first parameter byte from byte `b` on that is not zero. -/
def strayFrom (c : Cmd) (b : Nat) : Option Nat := (List.range' b ((if c.ref.isSome then 52 else 64) - b)).find? fun i => c.u i 1 ≠ 0

/-- GET (R320). Bytes 24–63 are unused: they are not reserved, and what they hold does not matter. -/
def getBody (fz : Fuses) (c : Cmd) (classes : List Nat) (_id _role : Nat) (d : Dev) : Answer × Dev :=
  let len := c.u 20 4
  let img := d.image fz c.cls.toNat c.inst.toNat
  match spanFault c classes img.length with
  | some e => (.refuse e.1 e.2, d)
  | none =>
    let bs := cut img (c.u 16 4) len
    if !instanceOk c.cls.toNat c.inst.toNat then (.refuse 0x03 8, d)
    else if len ≤ 48 then (.ok 0 bs, d)
    else if c.ref.isNone || refLen c ≠ len then (.refuse 0x49 52, d)
    else (.toRef 0 bs, d)

/-- A GET command of a family: every role may issue it, a sender without a role only the identity's (R308, R320, R333). -/
def Dev.getCmd (fz : Fuses) (op : Nat) (classes : List Nat) (c : Cmd) (d : Dev) : Dev :=
  d.runCmd { op := op, roles := if c.cls = 0x01 then [0, 1, 2, 3] else [1, 2, 3], used := [(16, 64)], ref := 2, out := true, get := true } c
    fun c => getBody fz c classes

/-! ### Reads of BAR0 (R300) -/

/-- The bytes that a BAR0 read finds from an offset on to the end of its block: register blocks as stored, a confidential slice's window KEY as 0
(R38, R303, R321), the doorbells, which are write-only, and offsets not listed 0 (R300). -/
def Dev.bar0Block (fz : Fuses) (d : Dev) (off : Nat) : List Byte :=
  if off < 0x40 then (d.image fz 0x01 0).drop off
  else if off < 0x48 then (le 8 (b2n d.host.fwReady + 2 * b2n d.host.handover)).drop (off - 0x40)
  else if off < 0x50 then (le 8 d.now).drop (off - 0x48)
  else if 0x010000 ≤ off && off < 0x014000 then (padTo 256 (ringImage (d.ring ((off - 0x010000) / 256)))).drop (off % 256)
  else if 0x020000 ≤ off && off < 0x021000 then
    let x := d.window ((off - 0x020000) / 64)
    (padTo 64 (windowImage (if d.isConf x.slice.toNat then { x with key := 0 } else x))).drop (off % 64)
  else if 0x100000 ≤ off && off < 0x108000 then
    let e := tget d.host.msix ((off - 0x100000) / 16) {}
    (le 8 e.addr.toNat ++ le 4 e.data.toNat ++ le 4 (b2n e.masked)).drop (off % 16)
  else if 0x108000 ≤ off && off < 0x108100 then
    le 1 (((upTo 8).map fun i => b2n (tget d.host.msix (8 * (off - 0x108000) + i) {}).pending * 2 ^ i).sum)
  else zeros 1

/-- What a host read of `n` bytes at a BAR0 offset returns (R300). A read changes nothing. -/
def Dev.bar0Read (fz : Fuses) (d : Dev) (off n : Nat) : List Byte := (upTo n).map fun i => ((d.bar0Block fz (off + i)).head?).getD 0

/-! ### SET -/

/-- A SET as its object's rules see it: the bytes written, in their place in the object, and the object before and after. -/
structure SetReq where
  inst : Nat
  off  : Nat
  len  : Nat
  data : Nat
  old  : Nat
  new  : Nat

/-- A field after the SET. -/
def SetReq.now (r : SetReq) (b hi lo : Nat) : Nat := field r.new (8 * b + lo) (hi + 1 - lo)
/-- A field before the SET. -/
def SetReq.was (r : SetReq) (b hi lo : Nat) : Nat := field r.old (8 * b + lo) (hi + 1 - lo)
/-- What the SET writes over a field, 0 where it writes nothing. -/
def SetReq.put (r : SetReq) (b hi lo : Nat) : Nat := field r.data (8 * b + lo) (hi + 1 - lo)
/-- Whether the SET changes a field. -/
def SetReq.changes (r : SetReq) (b hi lo : Nat) : Bool := r.now b hi lo ≠ r.was b hi lo
/-- Whether the SET writes a byte of `[a, b)`. -/
def SetReq.writes (r : SetReq) (a b : Nat) : Bool := r.off < b && a < r.off + r.len

/-- The first byte written that holds a reserved bit that is not zero (R7). -/
def SetReq.reservedByte (r : SetReq) (known : Nat) : Option Nat :=
  let bad := r.data ^^^ (r.data &&& known)
  if bad = 0 then none else (List.range' r.off r.len).find? fun b => field bad (8 * b) 8 ≠ 0

/-- SET (R320): judged as a whole, applied as one change. `denied` names the first field that the SET changes and
the role may not write; `apply`
is the rule of the object's chapter. Reserved bits are found before an instance that does not exist (R11). -/
def setBody (fz : Fuses) (c : Cmd) (classes : List Nat) (denied : SetReq → Nat → Option Nat) (apply : Nat → SetReq → Dev → Answer × Dev)
    (id role : Nat) (d : Dev) : Answer × Dev :=
  let off := c.u 16 4
  let len := c.u 20 4
  let img := d.image fz c.cls.toNat c.inst.toNat
  match spanFault c classes img.length with
  | some e => (.refuse e.1 e.2, d)
  | none =>
    match (if c.ref.isSome then strayFrom c 24 else if 40 < len then none else strayFrom c (24 + len)) with
    | some b => (.refuse 0x09 b, d)
    | none =>
      let misfit := if c.ref.isSome then decide (refLen c ≠ len) else decide (40 < len)
      let known := !misfit && reached c
      let data := (if c.ref.isSome then unle (refBytes c) else c.u 24 len) <<< (8 * off)
      let fs := fieldsOf c.cls.toNat img.length
      let old := unle img
      let range := (2 ^ (8 * len) - 1) <<< (8 * off)
      let r : SetReq := { inst := c.inst.toNat, off := off, len := len, data := data, old := old,
                          new := old ^^^ ((old ^^^ data) &&& (fieldBits fs (·.rw) &&& range)) }
      match (if known then denied r role else none) with
      | some b => (.refuse 0x44 b, d)
      | none =>
      match (if known then r.reservedByte (fieldBits fs fun _ => true) else none) with
      | some b => (.refuse 0x09 b, d)
      | none =>
        if !instanceOk c.cls.toNat c.inst.toNat then (.refuse 0x03 8, d)
        else if misfit then (.refuse 0x49 (if c.ref.isSome then 52 else 20), d)
        else if !known then (.ok 0 [], d)
        else apply id r d

/-- A SET command of a family. -/
def Dev.setCmd (fz : Fuses) (op : Nat) (roles classes : List Nat) (c : Cmd) (denied : SetReq → Nat → Option Nat)
    (apply : Nat → SetReq → Dev → Answer × Dev) (d : Dev) : Dev :=
  d.runCmd { op := op, roles := roles, used := [(16, 64)], ref := 2 } c fun c => setBody fz c classes denied apply

/-- No field of the object is kept from a role that the opcode allows. -/
def noneDenied (_r : SetReq) (_role : Nat) : Option Nat := none

/-- A SET of an object whose fields are all read-only (R6). -/
def noFields (_id : Nat) (_r : SetReq) (d : Dev) : Answer × Dev := (.ok 0 [], d)

/-- The first refusal of a list. -/
def firstBad (l : List (Bool × Nat × Nat)) : Option (Nat × Nat) := (l.find? (·.1)).map (·.2)

/-- A refusal where one is found, else the effect. -/
def judged (bad : Option (Nat × Nat)) (d : Dev) (go : Dev → Answer × Dev) : Answer × Dev :=
  match bad with
  | some e => (.refuse e.1 e.2, d)
  | none => go d

/-- Executed, with no result. -/
def done (d : Dev) : Answer × Dev := (.ok 0 [], d)

/-- FIELD_RANGE. -/
def cFIELD_RANGE : Nat := 0x43
/-- OBJECT_BUSY. -/
def cOBJECT_BUSY : Nat := 0x40
/-- CONFLICT. -/
def cCONFLICT : Nat := 0x41
/-- NO_RESOURCE. -/
def cNO_RESOURCE : Nat := 0x42
/-- CONFIDENTIAL_DENIED (R10). -/
def cCONFIDENTIAL : Nat := 0x0A

/-- The key stored for an object that a slice owns (R349): for a confidential slice the written key must be 0 and its slot in force, and
the object key of R347 is stored. None for a refusal's code. -/
def Dev.keyFor (d : Dev) (slice cls inst : Nat) (written : Nat) : Except Nat (BitVec 64) :=
  if !d.isConf slice then .ok (BitVec.ofNat 64 written)
  else match d.slotOf slice with
  | none => .error cCONFIDENTIAL
  | some k => if written ≠ 0 then .error cFIELD_RANGE else .ok (objectKey d k cls inst)

end Sys2Proof.Machine
end

