-- ==== Sys2Proof/Machine/PortCmds.lean ====
section
/-!
DEFINITION. Commands on ports, lanes, reservations and routing (R323, R324): SETs (R127, R136, R137, R148, R149, R152, R160, R295,
R318), LINK_UP, LINK_DOWN and LINK_RETRAIN, detour release and restore (R164), and GETs of every family (R320).
-/
namespace Sys2Proof.Machine

open Sys2Proof

/-! ### Ports (R149, R295, R318) -/

/-- The torus ports of a direction other than `p`, as MEMBER and Kamro die (R149). -/
def Dev.othersOf (d : Dev) (p dir : Nat) : List (Nat × Nat) :=
  (d.ports.filter fun e => e.1 < 144 && e.1 ≠ p && e.2.kind = 2 && e.2.dir = dir).map fun e => (e.2.member, dieOf e.1)

/-- Whether MEMBER values run from 0 without gaps (R149). -/
def noGap (ms : List Nat) : Bool := (upTo ms.length).all ms.contains

/-- The refusal of a role write (R149), in the order of its cases, that makes port `p` a member of its bundle, or takes it out: `role` is the new record. -/
def Dev.roleFault (d : Dev) (p : Nat) (role : Nat) : Option (Nat × Nat) :=
  let kind := role / 64
  let dir := field role 3 3
  let old := d.port p
  let dirs := ((if old.kind = 2 then [old.dir] else []) ++ if kind = 2 then [dir] else []).eraseDups
  let after (k : Nat) : List (Nat × Nat) := d.othersOf p k ++ if kind = 2 && dir = k then [(field role 0 3, dieOf p)] else []
  let served (k : Nat) : Bool := d.ports.any fun e => e.1 < 144 && e.2.kind = 2 && e.2.dir = k && e.2.lstate = 7
  if dirs.any fun k => let ms := (after k).map (·.1); ms.eraseDups.length ≠ ms.length then some (cCONFLICT, 48)
  else if dirs.any fun k => 1 < ((after k).map (·.2)).eraseDups.length then some (cFIELD_RANGE, 48)
  else if dirs.any fun k => served k && !noGap ((after k).map (·.1)) then some (cFIELD_RANGE, 48)
  else if old.lstate = 7 then some (0x48, 48)
  else none

/-- After a role write: a port out of service starts over under its new role (R289, R280), but for one that only LINK_RETRAIN, or the end of a
test, returns. The ports that a gap held come up once it is closed, and those whose exchange was under way are held where it opened (R149, R150). -/
def Dev.roleWritten (d : Dev) (p oldKind oldDir : Nat) : Dev :=
  let s := d.port p
  let d :=
    if s.lstate = 9 || s.lstate = 10 then d
    else if s.kind ≠ 1 && s.kind ≠ 2 then d.modPort p fun s => portDown s 0 0
    else d.bringUp p
  let dirs := (if oldKind = 2 then [oldDir] else []) ++ if s.kind = 2 then [s.dir] else []
  let held (k : Nat) : List Nat := tkeys d.ports fun q x => q < 144 && x.kind = 2 && x.dir = k && x.lstate = 8 && x.hold = 1
  let judged (k : Nat) : List Nat := tkeys d.ports fun q x => q < 144 && x.kind = 2 && x.dir = k && x.lstate = 6 && x.profileOk
  let whole (k : Nat) : Bool := noGap ((d.othersOf 999 k).map (·.1))
  let d := eachOf ((dirs.eraseDups.filter whole).flatMap held) d fun d q => d.bringUp q
  eachOf ((dirs.eraseDups.filter fun k => !whole k).flatMap judged) d fun d q => d.holdPort q 1

/-- SET on a port object (R318). -/
def portSet (_id : Nat) (r : SetReq) (d : Dev) : Answer × Dev :=
  let p := r.inst
  let ext := decide (p < 144)
  let role := r.now 48 7 0
  let inside (lo hi v : Nat) : Bool := lo ≤ v && v ≤ hi
  let bad := firstBad
    [(r.now 4 1 0 = 3, 0x09, 4), (field role 6 2 = 3 || 5 < field role 3 3, 0x09, 48),
     (!ext && r.put 4 1 0 ≠ 0, cFIELD_RANGE, 4), (!ext && r.put 12 15 0 ≠ 0, cFIELD_RANGE, 12), (!ext && r.put 14 15 0 ≠ 0, cFIELD_RANGE, 14),
     (!ext && r.put 16 31 0 ≠ 0, cFIELD_RANGE, 16), (!ext && r.put 48 7 0 ≠ 0, cFIELD_RANGE, 48),
     (ext && r.now 12 15 0 = 0, cFIELD_RANGE, 12), (ext && !inside 1 10080 (r.now 14 15 0), cFIELD_RANGE, 14),
     (ext && !inside 10 1000000 (r.now 16 31 0), cFIELD_RANGE, 16), (!inside 512 262144 (r.now 52 31 0), cFIELD_RANGE, 52),
     (!inside 4096 262144 (r.now 56 31 0), cFIELD_RANGE, 56)]
  let changed := ext && r.changes 48 7 0
  let bad := match bad with | some e => some e | none => if changed then d.roleFault p role else none
  judged bad d fun d =>
    let old := d.port p
    let d := d.modPort p fun s => { s with markDepth := r.now 52 31 0, spillThresh := r.now 56 31 0 }
    if !ext then done d
    else
      let d := d.modPort p fun s => { s with pwrPolicy := r.now 4 1 0, quietIdle := r.now 12 15 0, checkInterval := r.now 14 15 0,
                                             sleepIdle := r.now 16 31 0, role := BitVec.ofNat 8 role }
      let d := if (d.port p).lstate = 7 && (d.port p).pwrPolicy < (d.port p).txPwr then d.resumeTx p else d
      done (if changed then d.roleWritten p old.kind old.dir else d)

/-! ### Reservations (R136, R137) -/

/-- SET on a reservation record; the reply waits for the round boundary at which the change takes effect (R137, R310). -/
def resvSet (id : Nat) (r : SetReq) (d : Dev) : Answer × Dev :=
  let old := d.resv r.inst
  let x : ResvFields := { flits := r.now 0 15 0, input := r.now 4 7 0, output := r.now 5 7 0, slice := BitVec.ofNat 10 (r.now 6 9 0),
                          valid := r.now 28 0 0 = 1 }
  let same := old.fields.valid && decide (old.fields.input = x.input && old.fields.output = x.output && old.fields.slice = x.slice)
  judged (firstBad
    [(old.owner ≠ 0, cOBJECT_BUSY, 8), (176 < x.input, cFIELD_RANGE, 4), (176 < x.output, cFIELD_RANGE, 5),
     (x.valid && x.flits = 0, cFIELD_RANGE, 0), (x.valid && x.input = x.output, cFIELD_RANGE, 5),
     (x.valid && !(same && x.flits ≤ old.fields.flits) && !d.resvFits r.inst x, cNO_RESOURCE, 0)]) d fun d =>
    if x = old.fields then done d
    else
      let fresh := !old.fields.valid && !old.cur.valid
      let d := d.modResv r.inst fun v =>
        if fresh then { v with fields := x, admitted := 0, refused := 0 } else { v with fields := x }
      (.wait, { d with sw := { d.sw with roundWaits := d.sw.roundWaits ++ [id] } })

/-! ### Routing (R148, R152, R160) -/

/-- A routing object with the ring and domain fields that a SET leaves. -/
def ringsOf (r : SetReq) (o : RoutingSt) : RoutingSt :=
  { o with nx := r.now 4 28 24, ny := r.now 4 23 19, nz := r.now 4 18 15, x0 := r.now 8 31 28, xw := r.now 8 27 23, y0 := r.now 8 22 19,
           yw := r.now 8 18 14, z0 := r.now 8 13 11, zw := r.now 8 10 7 }

/-- SIDE of R162. -/
def usualSide (dir : Nat) : Nat := match dir / 2 with | 0 => 2 | 1 => 4 | _ => 0

/-- A changed domain decides which torus ports R42 holds off. -/
def Dev.boxChanged (d : Dev) : Dev :=
  eachOf (tkeys d.ports fun p s => p < 144 && s.kind = 2 && s.lstate ≠ 7 && s.lstate ≠ 9 && s.lstate ≠ 10) d fun d p =>
    if !d.boxAllows p then d.modPort p fun s => portDown s 0 3
    else if (d.port p).hold = 3 then d.bringUp p
    else d

/-- SET on the routing object. -/
def routingObjSet (_id : Nat) (r : SetReq) (d : Dev) : Answer × Dev :=
  let n := ringsOf r d.rt
  let changed := r.now 4 63 0 ≠ r.was 4 63 0
  let side (i : Nat) : Nat := r.now (16 + 8 * i) 2 0
  let size (i top : Nat) : Bool := let k := n.n i; k = 0 || top < k || k ≤ coord d.rack i
  let width (i : Nat) : Bool := n.w i = 0 || n.n i < n.w i
  let torus := d.ports.any fun e => e.1 < 144 && e.2.kind = 2 && e.2.lstate = 7
  let changed1 (i : Nat) : Bool := side i ≠ (d.detour i).side
  let reserved := (upTo 6).find? fun i => changed1 i && 5 < side i
  let sideBad := (upTo 6).find? fun i => changed1 i && side i / 2 = i / 2
  let bad := firstBad
    [(reserved.isSome, 0x09, 16 + 8 * reserved.getD 0),
     (size 0 16 || size 1 16 || size 2 8, cFIELD_RANGE, 4), (width 0 || width 1 || width 2, cFIELD_RANGE, 8),
     (!inDomain n d.rack, cFIELD_RANGE, 8), (sideBad.isSome, cFIELD_RANGE, 16 + 8 * sideBad.getD 0), (changed && torus, 0x48, 4)]
  judged bad d fun d =>
    let moved := (upTo 6).filter fun i => side i ≠ (d.detour i).side
    let d := { d with rt := n }
    let d := eachOf moved d fun d i =>
      let d := d.modDetour i fun x => { x with side := side i }
      if side i = usualSide i then d else d.fault (routingRec d i 0)
    done (if changed then d.boxChanged else d)

/-- Who may write what of the routing object (R324): NX, NY, NZ and SIDE the installer, the domain the operator. The first field that a role may not
change, by its byte. -/
def routingDenied (r : SetReq) (role : Nat) : Option Nat :=
  if role = 2 then if r.changes 8 31 7 then some 8 else none
  else if r.changes 4 28 15 then some 4
  else ((upTo 6).find? fun i => r.changes (16 + 8 * i) 2 0).map (16 + 8 * ·)

/-- SET on a node-table entry (R152, R284). -/
def nodeSet (_id : Nat) (r : SetReq) (d : Dev) : Answer × Dev :=
  let old := tget d.rt.nodes r.inst {}
  let x : NodeEntry := { valid := r.now 0 63 63 = 1, dead := r.now 0 62 62 = 1, rack := BitVec.ofNat 11 (r.now 0 50 40),
                         edgePort := BitVec.ofNat 8 (r.now 0 39 32), discards := 0 }
  let rack := x.rack.toNat
  let ep := x.edgePort.toNat
  let own := rack = d.rack
  let moved := old.rack ≠ x.rack || old.edgePort ≠ x.edgePort
  let taken := d.rt.nodes.any fun e => e.1 ≠ r.inst && e.2.valid && e.2.edgePort.toNat = ep
  let active := d.nodeBusy r.inst || (old.valid && old.edgePort.toNat < 144 && (d.port old.edgePort.toNat).recentFrame)
  let bad := if !x.valid then none else firstBad
    [(!inDomain d.rt rack, cFIELD_RANGE, 5), ((ep = 0xFF) = own || (ep ≠ 0xFF && 143 < ep), cFIELD_RANGE, 4),
     (ep ≠ 0xFF && (d.port ep).kind ≠ 1, cFIELD_RANGE, 4), (ep ≠ 0xFF && taken, cCONFLICT, 4), (moved && active, cOBJECT_BUSY, 4)]
  judged bad d fun d =>
    let d := { d with rt := { d.rt with nodes := tset d.rt.nodes r.inst x } }
    let before := if old.valid && old.edgePort.toNat < 144 then [old.edgePort.toNat] else []
    let after := if x.valid && ep < 144 then [ep] else []
    let gone := before.filter fun p => !after.contains p
    let d := eachOf gone d fun d p => if (d.port p).assignSent then d.sendNodeAssign p 0xFFFF (d.port p).slice.toNat else d
    let d := eachOf (after.filter fun p => !before.contains p) d fun d p => d.assignNode p
    done (if x.valid && x.dead then d.abortDead else d)

/-! ### Link commands (R323) -/

/-- A port taken out of service for a test or a perturbation (R423): LINK_DOWN with reason 3, LSTATE 10, HOLD 4, held grant. While the reference is lost
every external port is held off (R383), and none is taken. -/
def Dev.takePort (d : Dev) (p : Nat) : Dev :=
  if d.power.refHeld then d.modPort p fun s => { s with refOff := true }
  else
  let d := if (d.port p).lstate = 7 then d.sendDown p 3 10 4 else d.leaveService p 10 4 0
  d.modPort p fun s => { s with heldGrant := true }

/-- The installation test starts on a port (R293, R425): its runs in ascending order. -/
def Dev.startTest (d : Dev) (p runs : Nat) (clears : Bool) : Dev :=
  let l := (bitsOf 3 runs).map (· + 1)
  if d.power.refHeld then d.takePort p
  else
  let d := (d.takePort p).modPort p fun s => { s with testRuns := l, testFailed := 0, testOpen := 0, retrain := clears }
  match l with | n :: _ => d.emit (.pattern p n) | [] => d

/-- LINK_RETRAIN (R294). -/
def retrainBody (c : Cmd) (_id _role : Nat) (d : Dev) : Answer × Dev :=
  let p := c.inst.toNat
  let s := d.port p
  if 144 ≤ p then (.refuse cFIELD_RANGE 8, d)
  else if (s.kind ≠ 1 && s.kind ≠ 2) || s.hold = 3 || s.hold = 5 then (.refuse cOBJECT_BUSY noDetail, d)
  else (.started, d.startTest p 7 true)

/-- LINK_DOWN (R323, R282). -/
def linkOffBody (c : Cmd) (_id _role : Nat) (d : Dev) : Answer × Dev :=
  let p := c.inst.toNat
  if 3 < c.u 16 1 then (.refuse 0x09 16, d)
  else if 144 ≤ p then (.refuse cFIELD_RANGE 8, d)
  else if (d.port p).lstate ≠ 7 then (.ok 0 [], d)
  else (.ok 0 [], d.sendDown p (c.u 16 1) 0 0)

/-- LINK_UP (R323). -/
def linkUpBody (c : Cmd) (_id _role : Nat) (d : Dev) : Answer × Dev :=
  let p := c.inst.toNat
  let s := d.port p
  if 144 ≤ p then (.refuse cFIELD_RANGE 8, d)
  else if (s.kind ≠ 1 && s.kind ≠ 2) || s.hold = 3 || s.hold = 4 || s.hold = 5 || s.lstate = 9 then (.refuse cOBJECT_BUSY noDetail, d)
  else if s.lstate = 7 then (.ok 0 [], d)
  else if 1 ≤ s.lstate && s.lstate ≤ 6 then (.started, d)
  else (.started, d.bringUp p)

/-! ### Detours (R164) -/

/-- DETOUR_RELEASE. -/
def detourReleaseBody (c : Cmd) (_id _role : Nat) (d : Dev) : Answer × Dev :=
  let dir := c.u 16 1
  if 5 < dir then (.refuse 0x09 16, d)
  else if (d.detour dir).state ≠ 2 then (.refuse cOBJECT_BUSY 16, d)
  else if (d.detour dir).released then (.ok 0 [], d)
  else
    let d := d.modDetour dir fun x => { x with released := true }
    (.ok 0 [], d.rerouteDir dir fun _ => true)

/-- DETOUR_RESTORE. -/
def detourRestoreBody (c : Cmd) (_id _role : Nat) (d : Dev) : Answer × Dev :=
  let dir := c.u 16 1
  if 5 < dir then (.refuse 0x09 16, d)
  else if !((d.bundle dir).any d.inService) then (.refuse cOBJECT_BUSY 16, d)
  else if (d.detour dir).state = 0 then (.ok 0 [], d)
  else
    let d := d.modDetour dir fun x => { x with released := false, probeTag := none }
    (.ok 0 [], (d.setDetour dir 0 0).rerouteDir dir fun _ => true)

/-! ### Meanings -/

/-- PORT_SET (R323): the role record is the installer's. -/
def portSetD (fz : Fuses) (c : Cmd) (d : Dev) : Dev :=
  let denied (r : SetReq) (role : Nat) : Option Nat := if c.cls = 0x02 && role ≠ 2 && r.changes 48 7 0 then some 48 else none
  let apply := if c.cls = 0x02 then portSet else if c.cls = 0x04 then resvSet else noFields
  d.setCmd fz 0x0201 [1, 2] [0x02, 0x03, 0x04] c denied apply
/-- LINK_RETRAIN (R294). -/
def linkRetrainD (c : Cmd) (d : Dev) : Dev := d.runCmd { op := 0x0210, roles := [2], cls := some 0x02, hi := 176 } c retrainBody
/-- LINK_DOWN as a command (R323). -/
def linkDownCommandD (c : Cmd) (d : Dev) : Dev :=
  d.runCmd { op := 0x0211, roles := [1, 2], cls := some 0x02, used := [(16, 17)], hi := 176 } c linkOffBody
/-- LINK_UP (R323). -/
def linkUpD (c : Cmd) (d : Dev) : Dev := d.runCmd { op := 0x0212, roles := [1, 2], cls := some 0x02, hi := 176 } c linkUpBody
/-- ROUTING_SET (R148). -/
def routingSetD (fz : Fuses) (c : Cmd) (d : Dev) : Dev :=
  if c.cls = 0x06 then d.setCmd fz 0x0301 [1] [0x05, 0x06] c noneDenied nodeSet
  else d.setCmd fz 0x0301 [1, 2] [0x05, 0x06] c routingDenied routingObjSet
/-- DETOUR_RELEASE (R164). -/
def detourReleaseD (c : Cmd) (d : Dev) : Dev :=
  d.runCmd { op := 0x0310, roles := [1], cls := some 0x05, used := [(16, 17)] } c detourReleaseBody
/-- DETOUR_RESTORE (R164). -/
def detourRestoreD (c : Cmd) (d : Dev) : Dev :=
  d.runCmd { op := 0x0311, roles := [1], cls := some 0x05, used := [(16, 17)] } c detourRestoreBody

/-- Meaning of IDENTITY_GET. -/
def execIdentityGet (c : Cmd) (s : State) : Host.Outcome State Fault Refusal :=
  .next (s.onDevF fun fz d => d.getCmd fz 0x0100 [0x01, 0x3A] c)
/-- Meaning of PORT_GET. -/
def execPortGet (c : Cmd) (s : State) : Host.Outcome State Fault Refusal :=
  .next (s.onDevF fun fz d => d.getCmd fz 0x0200 [0x02, 0x03, 0x04] c)
/-- Meaning of ROUTING_GET. -/
def execRoutingGet (c : Cmd) (s : State) : Host.Outcome State Fault Refusal :=
  .next (s.onDevF fun fz d => d.getCmd fz 0x0300 [0x05, 0x06] c)
/-- Meaning of REGION_GET. -/
def execRegionGet (c : Cmd) (s : State) : Host.Outcome State Fault Refusal :=
  .next (s.onDevF fun fz d => d.getCmd fz 0x0400 [0x07, 0x08] c)
/-- Meaning of SLICE_GET. -/
def execSliceGet (c : Cmd) (s : State) : Host.Outcome State Fault Refusal :=
  .next (s.onDevF fun fz d => d.getCmd fz 0x0500 [0x09] c)
/-- Meaning of GROUP_GET. -/
def execGroupGet (c : Cmd) (s : State) : Host.Outcome State Fault Refusal :=
  .next (s.onDevF fun fz d => d.getCmd fz 0x0600 [0x0B] c)
/-- Meaning of TILE_GET. -/
def execTileGet (c : Cmd) (s : State) : Host.Outcome State Fault Refusal :=
  .next (s.onDevF fun fz d => d.getCmd fz 0x0700 [0x10, 0x11, 0x12] c)
/-- Meaning of POOL_GET. -/
def execPoolGet (c : Cmd) (s : State) : Host.Outcome State Fault Refusal :=
  .next (s.onDevF fun fz d => d.getCmd fz 0x0800 [0x18, 0x19, 0x1A] c)
/-- Meaning of POWER_GET. -/
def execPowerGet (c : Cmd) (s : State) : Host.Outcome State Fault Refusal :=
  .next (s.onDevF fun fz d => d.getCmd fz 0x0900 [0x20] c)
/-- Meaning of FIRMWARE_GET. -/
def execFirmwareGet (c : Cmd) (s : State) : Host.Outcome State Fault Refusal :=
  .next (s.onDevF fun fz d => d.getCmd fz 0x0A00 [0x28, 0x29] c)
/-- Meaning of PERTURBATION_GET. -/
def execPerturbationGet (c : Cmd) (s : State) : Host.Outcome State Fault Refusal :=
  .next (s.onDevF fun fz d => d.getCmd fz 0x0B00 [0x30, 0x31] c)
/-- Meaning of FAULT_GET. -/
def execFaultGet (c : Cmd) (s : State) : Host.Outcome State Fault Refusal :=
  .next (s.onDevF fun fz d => d.getCmd fz 0x0C00 [0x38, 0x39] c)
/-- Meaning of PORT_SET. -/
def execPortSet (c : Cmd) (s : State) : Host.Outcome State Fault Refusal := .next (s.onDevF fun fz d => portSetD fz c d)
/-- Meaning of ROUTING_SET. -/
def execRoutingSet (c : Cmd) (s : State) : Host.Outcome State Fault Refusal := .next (s.onDevF fun fz d => routingSetD fz c d)
/-- Meaning of LINK_RETRAIN. -/
def execLinkRetrain (c : Cmd) (s : State) : Host.Outcome State Fault Refusal := .next (s.onDev (linkRetrainD c))
/-- Meaning of LINK_DOWN_COMMAND. -/
def execLinkDownCommand (c : Cmd) (s : State) : Host.Outcome State Fault Refusal := .next (s.onDev (linkDownCommandD c))
/-- Meaning of LINK_UP. -/
def execLinkUp (c : Cmd) (s : State) : Host.Outcome State Fault Refusal := .next (s.onDev (linkUpD c))
/-- Meaning of DETOUR_RELEASE. -/
def execDetourRelease (c : Cmd) (s : State) : Host.Outcome State Fault Refusal := .next (s.onDev (detourReleaseD c))
/-- Meaning of DETOUR_RESTORE. -/
def execDetourRestore (c : Cmd) (s : State) : Host.Outcome State Fault Refusal := .next (s.onDev (detourRestoreD c))

end Sys2Proof.Machine
end

