-- ==== Sys2Proof/Machine/Slices.lean ====
section
/-!
DEFINITION. Regions (R33, R37), slices (R41, R43, R326, R366, R368), translation commands (R49, R326) and what ends with a slice.
-/
namespace Sys2Proof.Machine

open Sys2Proof

/-! ### Regions (R33, R37, R349) -/

/-- The KEY an entry keeps once it is not valid: that of a confidential slice goes, so that no later GET can hand it out (R38). -/
def Dev.keptKey (d : Dev) (e : Region) : BitVec 64 := if d.isConf e.slice.toNat then 0 else e.key

/-- An entry loses force (R37): perturbations on it end (R422). -/
def Dev.invalidateRegion (d : Dev) (i cause : Nat) : Dev :=
  let d := d.endPerturbs [6, 12] (obj 0x07 i) cause
  d.modRegion i fun e => { e with valid := false, key := d.keptKey e }

/-- The operations being performed under an entry, by home and number. -/
def Dev.opsUnder (d : Dev) (i : Nat) : List (Nat × Nat) :=
  d.homes.flatMap fun e => (e.2.ops.filter fun o => o.region = some i).map fun o => (e.1, o.id)

/-- The operations being performed under the entries of a slice. -/
def Dev.opsOfSlice (d : Dev) (sl : Nat) : List (Nat × Nat) :=
  d.homes.flatMap fun e => (e.2.ops.filter fun o => o.region.isSome && o.slice.toNat = sl).map fun o => (e.1, o.id)

/-- The reply to a teardown, or to a function disabled, whose work is done: at once, with the SLICE record, or after what is left (R366, R368). -/
def Dev.sliceReply (d : Dev) (id sl action : Nat) : Option Dev :=
  let ops := d.opsOfSlice sl
  if ops.isEmpty && !d.copiesLeft sl then none
  else some { d with prot := { d.prot with revoking := d.prot.revoking ++ [⟨65536, id, ops, some sl, action⟩] } }

/-- The refusal of R33 of an entry to be made valid. -/
def Dev.regionFault (d : Dev) (i : Nat) (x : Region) : Option (Nat × Nat) :=
  let past := x.base.toNat + x.length.toNat
  let meets (y : Region) : Bool := y.valid && y.base.toNat < past && x.base.toNat < y.base.toNat + y.length.toNat
  firstBad
    [(6144 < past, cFIELD_RANGE, 8), (x.length = 0, cFIELD_RANGE, 10), (d.prot.regions.any fun e => e.1 ≠ i && meets e.2, cCONFLICT, 8),
     (d.pool.userPages < past, cFIELD_RANGE, 8), (x.enc = 1 && !d.isConf x.slice.toNat, cFIELD_RANGE, 13),
     ((List.range' x.base.toNat x.length.toNat).any d.pool.isMappedOut, cFIELD_RANGE, 8)]

/-- SET on a region entry. -/
def regionSet (id : Nat) (r : SetReq) (d : Dev) : Answer × Dev :=
  let i := r.inst
  let old := d.region i
  let sl := r.now 8 55 46
  if 1 < r.now 8 45 44 then (.refuse 0x09 13, d)
  else match d.keyFor sl 0x07 i (r.now 0 63 0) with
  | .error code => (.refuse code 0, d)
  | .ok key =>
    let x : Region := { key := key, valid := r.now 8 63 63 = 1, a := r.now 8 58 58 = 1, w := r.now 8 57 57 = 1, r := r.now 8 56 56 = 1,
                        slice := BitVec.ofNat 10 sl, enc := BitVec.ofNat 2 (r.now 8 45 44), length := BitVec.ofNat 13 (r.now 8 31 19),
                        base := BitVec.ofNat 19 (r.now 8 18 0), refusals := 0 }
    judged (if x.valid then d.regionFault i x else none) d fun d =>
      let under := if old.valid && { old with refusals := 0 } ≠ x then d.opsUnder i else []
      let d := if old.valid && !x.valid then d.invalidateRegion i 5 else d
      let d := d.modRegion i fun _ => if x.valid then x else { x with key := d.keptKey x }
      if under.isEmpty then done d
      else (.wait, { d with prot := { d.prot with revoking := d.prot.revoking ++ [{ region := i, reply := id, ops := under }] } })

/-- REGION_SET (R33): a key slot takes no SET (R325, R350). -/
def regionSetD (fz : Fuses) (c : Cmd) (d : Dev) : Dev :=
  d.setCmd fz 0x0401 [1] [0x07, 0x08] c noneDenied (if c.cls = 0x07 then regionSet else noFields)

/-- REGION_REVOCATION_DONE (R37): the replies whose operations under the old entry have ended; that to a teardown waits for those of every entry
of its slice. -/
def regionRevocationDoneD (region : Fin 65536) (d : Dev) : Dev := d.settleRevoked fun v => v.region = region.val || v.slice.isSome

/-! ### The end of a slice (R43, R351, R366) -/

/-- The streams of a slice close (R366); their operations end SLICE_TORN_DOWN. -/
def Dev.closeSliceStreams (d : Dev) (sl : Nat) : Dev :=
  let ns := (d.req.streams.filter fun c => c.slice.toNat = sl).map (·.stream)
  let mine (o : OutOp) : Bool := ns.contains (tagStream o.tag)
  let ops := d.req.ops.filter mine
  let d := eachOf ops (d.dropOps mine) fun d o => d.finishOut o 0x0C []
  let d := eachOf ns d Dev.closeStream
  let shut (w : Window) : Window := if (w.stream.map ns.contains).getD false then { w with stream := none } else w
  { d with host := { d.host with windows := tmap d.host.windows fun _ w => shut w },
           faults := { d.faults with replayStream := if (d.faults.replayStream.map ns.contains).getD false then none else d.faults.replayStream } }

/-- The regions of a slice lose force. -/
def Dev.invalidateRegions (d : Dev) (sl cause : Nat) : Dev :=
  eachOf (tkeys d.prot.regions fun _ e => e.valid && e.slice.toNat = sl) d fun d i => d.invalidateRegion i cause

/-- The replay floor table in a place zeroed (R352). -/
def Dev.clearFloors (d : Dev) (place : Nat) : Dev := d.modPool fun p => { p with mem := memZero p.mem (p.tableBase + 2 ^ 19 * place) (2 ^ 19) }

/-- A slice's slot is emptied, its release record, with its replay floor table, and open destroyed (R351, R352). -/
def Dev.destroyKeys (d : Dev) (sl : Nat) : Dev :=
  let d := eachOf (d.prot.releases.filter fun r => r.slice.toNat = sl) d fun d r => d.clearFloors r.place
  { d with prot := { d.prot with keySlots := d.prot.keySlots.filter fun e => e.2.slice.toNat ≠ sl || e.2.state = 0,
                                 releases := d.prot.releases.filter fun r => r.slice.toNat ≠ sl,
                                 opens := d.prot.opens.filter fun o => o.slice.toNat ≠ sl } }

/-- A slice joins the sweep at once, whether or not a lap is under way (R258). -/
def Dev.joinSweep (d : Dev) (sl : Nat) : Dev :=
  d.modPool fun p => if p.sweeping.contains sl then p else { p with sweeping := p.sweeping ++ [sl] }

/-- Whether the target of a perturbation, a pipeline, an edge port or a lane of one, is of a slice (R422). -/
def Dev.targetsSlice (d : Dev) (x : Perturb) (sl : Nat) : Bool :=
  let i := x.target.toNat % 2 ^ 24
  let edge (p : Nat) : Bool := p < 144 && (d.port p).kind = 1 && (d.port p).slice.toNat = sl
  match x.kind with
  | 6 | 12 => false
  | 8 => edge (i / 16)
  | 11 => (d.pipe i).slice.toNat = sl
  | _ => edge i

/-- Everything SLICE_TEARDOWN completes before its reply (R366). Perturbations of the slice's regions end as these are invalidated. -/
def Dev.teardown (d : Dev) (sl : Nat) : Dev :=
  let d := d.modSlice sl fun s => { s with tornDown := true }
  let ports := tkeys d.ports fun p s => p < 144 && s.kind = 1 && s.slice.toNat = sl && s.lstate = 7
  let d := eachOf ports d fun d p => d.sendNodeAssign p 0xFFFF sl
  let d := eachOf (tkeys d.test.perturbs fun _ x => x.state = 1 && d.targetsSlice x sl) d fun d k => d.endPerturb k 6
  let d := (((d.dropPipes sl).teardownGroups sl).endCopies sl 0x0C).closeSliceStreams sl
  let d := (((d.dropSliceOps sl).invalidateRegions sl 6).destroyKeys sl).invalidate sl 0 0
  let d := { d with xlate := { d.xlate with walks := d.xlate.walks.filter fun w => w.slice.toNat ≠ sl } }
  (d.joinSweep sl).modSlice sl fun s => { s with state := 3, disabled := 0 }

/-! ### Slice commands (R326) -/

/-- SLICE_CREATE (R326, R354, R340). -/
def sliceCreateBody (c : Cmd) (_id _role : Nat) (d : Dev) : Answer × Dev :=
  let i := c.inst.toNat
  let conf := c.u 16 1 = 1
  let l1 := c.u 24 8
  let st := (d.slice i).state
  judged (firstBad
    [(1 < c.u 16 1, 0x09, 16), (conf && (d.sec.debugUnlocked || d.fw.fwState = 1), cCONFIDENTIAL, 16), (i = 0, cFIELD_RANGE, 8),
     (st = 3, 0x47, noDetail), (st ≠ 0, cOBJECT_BUSY, noDetail), (l1 ≠ 0 && (l1 % 65536 ≠ 0 || !d.pool.inTables l1 65536), cFIELD_RANGE, 24)]) d fun d =>
    done (d.modSlice i fun s => { s with state := 1, conf := conf, disabled := 0, l1Table := BitVec.ofNat 48 l1, tornDown := false,
                                          measure := if conf then Config.sha384 (le 2 i) else 0 })

/-- SLICE_TEARDOWN (R366): a slice that is not active has nothing to tear down. The reply, with the SLICE record, comes once no operation under the
slice's old entries is left at a home (R37) and its copies have ended. -/
def sliceTeardownBody (c : Cmd) (id _role : Nat) (d : Dev) : Answer × Dev :=
  let i := c.inst.toNat
  if i = 0 then (.refuse cFIELD_RANGE 8, d)
  else if (d.slice i).state ≠ 1 then done d
  else
    let d := d.teardown i
    match d.sliceReply id i 8 with
    | some d => (.wait, d)
    | none => done (d.fault (sliceRec i 8))

/-- PORT_SLICE (R41, R284). -/
def portSliceBody (c : Cmd) (_id _role : Nat) (d : Dev) : Answer × Dev :=
  let p := c.inst.toNat
  let sl := c.u 16 2
  judged (firstBad
    [(144 ≤ p || (d.port p).kind ≠ 1, cFIELD_RANGE, 8), (sl = 0 || 1023 < sl, cFIELD_RANGE, 16), (d.endpointActive p, cOBJECT_BUSY, 8)]) d fun d =>
    let s := d.port p
    if s.slice.toNat = sl && s.assignSent then done d
    else done ((d.modPort p fun s => { s with slice := BitVec.ofNat 10 sl }).assignNode p)

/-- FUNCTION_DISABLE (R368): admission stops; the reply follows the drain. -/
def functionDisableBody (c : Cmd) (_id _role : Nat) (d : Dev) : Answer × Dev :=
  let i := c.inst.toNat
  let fn := c.u 16 1
  judged (firstBad [(3 < fn, 0x09, 16), (i = 0, cFIELD_RANGE, 8), ((d.slice i).state ≠ 1, cOBJECT_BUSY, noDetail)]) d fun d =>
    if d.disabled i fn then done d
    else (.wait, d.modSlice i fun s => { s with disabled := s.disabled ||| BitVec.ofNat 8 (2 ^ fn) })

/-- Operations of a slice queued at the homes end FUNCTION_DISABLED (R368). -/
def Dev.endSliceOps (d : Dev) (sl : Nat) : Dev :=
  eachOf d.homes d fun d e =>
    eachOf ((e.2.ops ++ e.2.posted ++ e.2.heldIn).filter fun o => o.f.slice.toNat = sl) d fun d o => d.refuseOp e.1 o 0x07 0 o.region

/-- What is left of a function's work after the drain (R368). -/
def Dev.functionEnd (d : Dev) (sl fn : Nat) : Dev :=
  match fn with
  | 0 => d.disableGroups sl
  | 1 => d.disablePipes sl
  | 2 => d.endCopies sl 0x07
  | _ => ((d.endSliceOps sl).invalidateRegions sl 5).joinSweep sl

/-- FUNCTION_DISABLE_DRAIN_END (R368): with the SLICE record and the reply. A drain pauses during a handover (R406). -/
def functionDisableDrainEndD (slice : BitVec 10) (fn : Fin 4) (d : Dev) : Dev :=
  let mine (w : WaitReply) : Bool := w.effect && w.opcode = 0x0513 && w.object = obj 0x09 slice.toNat && field w.params.toNat 0 8 = fn.val
  match (if d.host.handover then none else d.host.waiting.find? mine) with
  | some w =>
    if d.prot.revoking.any fun v => v.reply = w.id then d
    else
      let d := d.functionEnd slice.toNat fn.val
      match (if fn.val = 2 then d.sliceReply w.id slice.toNat 7 else none) with
      | some d => d
      | none => (d.fault (sliceRec slice.toNat 7)).finishWait w.id 0 0
  | none => d

/-! ### Translation commands (R49, R326) -/

/-- XLATE_INVALIDATE (R49). -/
def xlateInvalidateBody (c : Cmd) (_id _role : Nat) (d : Dev) : Answer × Dev :=
  let a := c.u 24 8
  let n := c.u 32 8
  judged (firstBad [(a % pageSize ≠ 0 || 2 ^ 57 ≤ a, cFIELD_RANGE, 24), (n % pageSize ≠ 0, cFIELD_RANGE, 32)]) d fun d =>
    done (d.invalidate c.inst.toNat (a / pageSize) (n / pageSize))

/-- The refusal common to XLATE_WRITE and XLATE_READ (R326, R261). -/
def Dev.tableFault (d : Dev) (c : Cmd) : Option (Nat × Nat) :=
  let a := c.u 24 8
  let n := c.u 32 4
  let pages := [pageOf a, pageOf (a + n - 1)]
  firstBad [(!d.pool.inTables a n, 0x03, 24), (pages.any d.pool.isMappedOut, 0x04, 24), (a % 16 ≠ 0, cFIELD_RANGE, 24),
            (n % 16 ≠ 0 || n = 0 || 2 ^ 24 < n, cFIELD_RANGE, 32), (refLen c ≠ n, 0x49, 52)]

/-- A table access judged: a refusal, with the pool fault where it meets a mapped-out page (R261), or its effect. -/
def Dev.tableJudged (d : Dev) (c : Cmd) (go : Dev → Answer × Dev) : Answer × Dev :=
  let a := c.u 24 8
  match d.tableFault c with
  | some (code, det) =>
    match [a, a + c.u 32 4 - 1].find? fun o => code = 0x04 && d.pool.isMappedOut (pageOf o) with
    | some o => (.denied code det, d.areaFault o)
    | none => (.refuse code det, d)
  | none => go d

/-- XLATE_WRITE (R326): bytes copied, not judged. -/
def xlateWriteBody (ecc : List (Nat × Ecc)) (c : Cmd) (_id _role : Nat) (d : Dev) : Answer × Dev :=
  d.tableJudged c fun d =>
    match d.writeBytes 0 [] ecc (c.u 24 8) (refBytes c) with
    | (some s, d) => (.denied s 24, d)
    | (none, d) => done d

/-- Tables that the pointer entries of a table name: those in force, with the place of the next table. -/
def PoolSt.pointers (p : PoolSt) (base size : Nat) : List Nat :=
  p.mem.filterMap fun (c : Host.Cell) =>
    if base ≤ c.1 && c.1 < base + size && (c.1 - base) % 16 = 15 && c.2.getLsbD 7 && c.2.getLsbD 2 then
      some (field (unle (memReads p.mem (c.1 - 7) 8)) 0 48)
    else none

/-- The tables of the confidential slices that may hold leaves (R44): place and size. -/
def Dev.confTables (d : Dev) : List (Nat × Nat) :=
  d.prot.slices.flatMap fun e =>
    if e.2.conf && e.2.state ≠ 0 && e.2.l1Table ≠ 0 then
      let l2 := d.pool.pointers e.2.l1Table.toNat 65536
      l2.map (·, 32768) ++ (l2.flatMap fun t => d.pool.pointers t 32768).map (·, 512)
    else []

/-- XLATE_READ (R326, R321): KEYs of a confidential slice's leaves read 0. -/
def xlateReadBody (ecc : List (Nat × Ecc)) (c : Cmd) (_id _role : Nat) (d : Dev) : Answer × Dev :=
  let a := c.u 24 8
  let n := c.u 32 4
  d.tableJudged c fun d =>
    match d.readLines 0 [] ecc (linesOf a n) with
    | (.error s, d) => (.denied s 24, d)
    | (.ok lines, d) =>
      let ts := d.confTables
      let all := d.isConf c.inst.toNat
      let hides (b : Nat) : Bool := all || ts.any fun t => t.1 ≤ b && b < t.1 + t.2
      let entry (i : Nat) : List Byte :=
        let e := cut lines (a % 64 + 16 * i) 16
        if hides (a + 16 * i) then zeros 8 ++ e.drop 8 else e
      (.toRef 0 ((upTo (n / 16)).flatMap entry), d)

/-! ### Meanings -/

/-- SLICE_CREATE (R326). -/
def sliceCreateD (c : Cmd) (d : Dev) : Dev :=
  d.runCmd { op := 0x0510, roles := [1], cls := some 0x09, used := [(16, 17), (24, 32)], hi := 1023 } c sliceCreateBody
/-- SLICE_TEARDOWN (R366). -/
def sliceTeardownD (c : Cmd) (d : Dev) : Dev := d.runCmd { op := 0x0511, roles := [1], cls := some 0x09, hi := 1023 } c sliceTeardownBody
/-- PORT_SLICE (R41). -/
def portSliceD (c : Cmd) (d : Dev) : Dev :=
  d.runCmd { op := 0x0512, roles := [1], cls := some 0x02, used := [(16, 18)], hi := 176 } c portSliceBody
/-- FUNCTION_DISABLE (R368). -/
def functionDisableD (c : Cmd) (d : Dev) : Dev :=
  d.runCmd { op := 0x0513, roles := [1], cls := some 0x09, used := [(16, 17)], hi := 1023 } c functionDisableBody
/-- XLATE_INVALIDATE (R49). -/
def xlateInvalidateD (c : Cmd) (d : Dev) : Dev :=
  d.runCmd { op := 0x0520, roles := [1], cls := some 0x09, used := [(24, 40)], hi := 1023 } c xlateInvalidateBody
/-- XLATE_WRITE (R326). -/
def xlateWriteD (c : Cmd) (ecc : List (Nat × Ecc)) (d : Dev) : Dev :=
  d.runCmd { op := 0x0521, roles := [1], cls := some 0x09, used := [(24, 36)], hi := 1023, ref := 1 } c (xlateWriteBody ecc)
/-- XLATE_READ (R326). -/
def xlateReadD (c : Cmd) (ecc : List (Nat × Ecc)) (d : Dev) : Dev :=
  d.runCmd { op := 0x0522, roles := [1], cls := some 0x09, used := [(24, 36)], hi := 1023, ref := 1, out := true } c (xlateReadBody ecc)

/-- Meaning of REGION_SET. -/
def execRegionSet (c : Cmd) (s : State) : Host.Outcome State Fault Refusal := .next (s.onDevF fun fz d => regionSetD fz c d)
/-- Meaning of REGION_REVOCATION_DONE. -/
def execRegionRevocationDone (region : Fin 65536) (s : State) : Host.Outcome State Fault Refusal :=
  .next (s.onDev (regionRevocationDoneD region))
/-- Meaning of SLICE_CREATE. -/
def execSliceCreate (c : Cmd) (s : State) : Host.Outcome State Fault Refusal := .next (s.onDev (sliceCreateD c))
/-- Meaning of SLICE_TEARDOWN. -/
def execSliceTeardown (c : Cmd) (s : State) : Host.Outcome State Fault Refusal := .next (s.onDev (sliceTeardownD c))
/-- Meaning of PORT_SLICE. -/
def execPortSlice (c : Cmd) (s : State) : Host.Outcome State Fault Refusal := .next (s.onDev (portSliceD c))
/-- Meaning of FUNCTION_DISABLE. -/
def execFunctionDisable (c : Cmd) (s : State) : Host.Outcome State Fault Refusal := .next (s.onDev (functionDisableD c))
/-- Meaning of FUNCTION_DISABLE_DRAIN_END. -/
def execFunctionDisableDrainEnd (slice : BitVec 10) (fn : Fin 4) (s : State) : Host.Outcome State Fault Refusal :=
  .next (s.onDev (functionDisableDrainEndD slice fn))
/-- Meaning of XLATE_INVALIDATE. -/
def execXlateInvalidate (c : Cmd) (s : State) : Host.Outcome State Fault Refusal := .next (s.onDev (xlateInvalidateD c))
/-- Meaning of XLATE_WRITE. -/
def execXlateWrite (c : Cmd) (s : State) (ecc : List (Nat × Ecc) := []) : Host.Outcome State Fault Refusal :=
  .next (s.onDev (xlateWriteD c ecc))
/-- Meaning of XLATE_READ. -/
def execXlateRead (c : Cmd) (s : State) (ecc : List (Nat × Ecc) := []) : Host.Outcome State Fault Refusal :=
  .next (s.onDev (xlateReadD c ecc))

end Sys2Proof.Machine
end

