-- ==== Sys2Proof/Machine/Groups.lean ====
section
/-!
DEFINITION. The relay commands (R327): groups created, changed and deleted (R167, R168, R185, R255), launched (R176), aborted (R184), and
their residuals reset (R182).
-/
namespace Sys2Proof.Machine

open Sys2Proof

/-- The member entry that starts at byte `b` of an object (R168). -/
def memberOfNum (v b : Nat) : MemberEntry :=
  { node := BitVec.ofNat 16 (field v (8 * b + 48) 16), result := BitVec.ofNat 48 (field v (8 * b) 48), key := BitVec.ofNat 64 (field v (8 * b + 64) 64),
    record := BitVec.ofNat 48 (field v (8 * b + 128) 48) }

/-- The fields that a create or a SET writes of a group (R167), and its member table of `n` entries. -/
def groupOfNum (g : Group) (v n : Nat) : Group :=
  let f (b hi lo : Nat) : Nat := field v (8 * b + lo) (hi + 1 - lo)
  { g with key := BitVec.ofNat 64 (f 0 63 0), slice := BitVec.ofNat 10 (f 14 9 0), coll := f 16 7 4, reduce := f 16 3 2, transport := f 16 1 0,
           dtype := f 17 7 4, axisOrder := f 17 2 0, depth := f 22 15 0, elements := f 24 31 0, rate := f 28 15 0, torusRate := f 30 15 0,
           timeout := f 32 31 0, xSet := BitVec.ofNat 16 (f 36 15 0), ySet := BitVec.ofNat 16 (f 38 15 0), zSet := BitVec.ofNat 8 (f 40 7 0),
           residual := BitVec.ofNat 48 (f 48 47 0), members := (upTo n).map fun i => memberOfNum v (64 + 32 * i) }

/-- Racks of an axis's set that take part. -/
def Group.axisCount (g : Group) (a : Nat) : Nat := popCount 16 (g.axisSet a)

/-- Whether a group spans more than one rack (R168). -/
def Group.isWide (g : Group) : Bool := (upTo 3).any fun a => 1 < g.axisCount a

/-- The bytes a group's residual area occupies, as first byte and first byte past it; none without TRANSPORT (R182, R255). -/
def Group.residArea (g : Group) : Option (Nat × Nat) :=
  if g.transport = 0 then none else some (g.residual.toNat, g.residual.toNat + residSize g.elements)

/-- The range of a member entry's fields (R168), with the byte of its entry. -/
def memberRange (m : MemberEntry) (b : Nat) : Option (Nat × Nat) :=
  firstBad [(0xBFFF < m.node.toNat, cFIELD_RANGE, b + 6), (m.record.toNat % 64 ≠ 0, cFIELD_RANGE, b + 16)]

/-- What R168 refuses of a member's node, with the byte of its entry. -/
def Dev.memberFault (d : Dev) (g : Group) (m : MemberEntry) (b : Nat) : Option (Nat × Nat) :=
  let n := tget d.rt.nodes m.node.toNat {}
  let ep := n.edgePort.toNat
  firstBad [(!n.valid, cFIELD_RANGE, b + 6), (ep < 144 && (d.port ep).slice ≠ g.slice, cFIELD_RANGE, b + 6)]

/-- Whether the set of an axis with more than one rack leaves the routing domain (R168). -/
def Dev.axisLeaves (d : Dev) (g : Group) : Bool :=
  (upTo 3).any fun a => 1 < g.axisCount a && (bitsOf 16 (g.axisSet a)).any fun c => !inDomain d.rt (setCoord d.rack a c)

/-- The fields of a group outside their ranges or with a reserved encoding, with the byte of the object (R167, R168). -/
def Group.rangeFault (g : Group) : Option (Nat × Nat) :=
  let inside (lo hi v : Nat) : Bool := lo ≤ v && v ≤ hi
  firstBad
    [(4 < g.coll, cFIELD_RANGE, 16), (2 ≤ g.coll && g.reduce ≠ 0, cFIELD_RANGE, 16), (g.transport = 3, cFIELD_RANGE, 16),
     (5 < g.dtype, cFIELD_RANGE, 17), (5 < g.axisOrder, cFIELD_RANGE, 17), (!inside 2 49152 g.members.length, cFIELD_RANGE, 18),
     (!inside 8 256 g.depth || g.depth % 8 ≠ 0, cFIELD_RANGE, 22), (!inside 1 268435456 g.elements, cFIELD_RANGE, 24),
     (!inside 16 4096 g.rate || g.rate % 16 ≠ 0, cFIELD_RANGE, 28), (3072 < g.torusRate, cFIELD_RANGE, 30),
     (!inside 10 100000 g.timeout, cFIELD_RANGE, 32), (g.transport = 0 && g.residual ≠ 0, cFIELD_RANGE, 48)]

/-- Whether a group's residual area is not one that it may have (R168, R182, R255). -/
def Dev.residBad (d : Dev) (gi : Nat) (g : Group) : Bool :=
  let others := tkeys d.relay.groups fun k x => k ≠ gi && x.state ≠ 0
  let meets (a : Nat × Nat) : Bool := others.any fun k =>
    match (d.group k).residArea with
    | some b => a.1 < b.2 && b.1 < a.2
    | none => false
  match g.residArea with
  | none => false
  | some a => a.1 % 4096 ≠ 0 || a.1 < d.pool.residBase || d.pool.logBase < a.2 || meets a

/-- What R168 and R255 refuse of the contents of a group in slot `gi`, in the order in which R168 lists it (R308), with the byte of the object. -/
def Dev.groupFault (d : Dev) (gi : Nat) (g : Group) : Option (Nat × Nat) :=
  let racks := g.racks
  let held := g.members.map d.memberRack
  let entries := g.members.zip (upTo g.members.length)
  let others := tkeys d.relay.groups fun k x => k ≠ gi && x.state ≠ 0
  (firstBad [(g.key = 0, cFIELD_RANGE, 0), (others.any fun k => (d.group k).key = g.key, cCONFLICT, 0)]).orElse fun _ =>
  g.rangeFault.orElse fun _ =>
  (entries.findSome? fun m => memberRange m.1 (64 + 32 * m.2)).orElse fun _ =>
  (firstBad [(!racks.contains d.rack || held.any (fun r => !racks.contains r) || racks.any (fun r => !held.contains r), cFIELD_RANGE, 36)]).orElse fun _ =>
  (entries.findSome? fun m => d.memberFault g m.1 (64 + 32 * m.2)).orElse fun _ =>
  firstBad
    [(g.transport ≠ 0 && (1 < g.coll || g.reduce = 1 || g.reduce = 2 || g.dtype = 5), cFIELD_RANGE, 16), (d.residBad gi g, cFIELD_RANGE, 48),
     (g.coll = 4 && g.elements % max 1 g.members.length ≠ 0, cFIELD_RANGE, 24), (d.axisLeaves g, cFIELD_RANGE, 36),
     (g.torusRate = 0 && g.isWide, cFIELD_RANGE, 30)]

/-- The KEY stored for a group, or the refusal: CONFIDENTIAL_DENIED comes before what the slot itself is refused for, and that before every other
code of the relay commands (R308). -/
def Dev.groupKey (d : Dev) (slot : Option (Nat × Nat)) (slice gi written : Nat) : Except (Nat × Nat) (BitVec 64) :=
  match d.keyFor slice 0x0B gi written, slot with
  | .error code, some e => .error (if code = cCONFIDENTIAL then (code, 0) else e)
  | .error code, none => .error (code, 0)
  | .ok _, some e => .error e
  | .ok key, none => .ok key

/-- GROUP_CREATE (R168): the object and its member table, in a free slot. -/
def groupCreateBody (c : Cmd) (_id _role : Nat) (d : Dev) : Answer × Dev :=
  let gi := c.inst.toNat
  let v := unle (refBytes c)
  let n := field v 144 16
  let size := 64 + 32 * n
  let stray := v ^^^ (v &&& fieldBits (fieldsOf 0x0B (refLen c)) fun _ => true)
  if !reached c then done d
  else if refLen c < 64 || refLen c ≠ size then (.refuse 0x49 52, d)
  else if stray ≠ 0 then (.refuse 0x09 (((List.range size).find? fun b => field stray (8 * b) 8 ≠ 0).getD 0), d)
  else
    let g := groupOfNum { state := 1 } v n
    match d.groupKey (if (d.group gi).state ≠ 0 then some (cCONFLICT, 8) else none) g.slice.toNat gi g.key.toNat with
    | .error e => (.refuse e.1 e.2, d)
    | .ok key =>
      let g := { g with key := key }
      judged (d.groupFault gi g) d fun d => done ((d.modGroup gi fun _ => g).clearResiduals g)

/-- SET on a group (R327): KEYs that it does not write stay as they are. -/
def groupSet (_id : Nat) (r : SetReq) (d : Dev) : Answer × Dev :=
  let gi := r.inst
  let old := d.group gi
  let n := old.members.length
  let new := groupOfNum old r.new n
  let kept (m o : MemberEntry) (b : Nat) : MemberEntry := if r.writes b (b + 8) then m else { m with key := o.key }
  let ms := (new.members.zip (old.members.zip (upTo n))).map fun e => kept e.1 e.2.1 (72 + 32 * e.2.2)
  let slot := firstBad [(old.state ≠ 1 && old.state ≠ 4 && old.state ≠ 5, cOBJECT_BUSY, noDetail), (r.now 18 15 0 ≠ n, cFIELD_RANGE, 18)]
  match d.groupKey slot new.slice.toNat gi new.key.toNat with
  | .error e => (.refuse e.1 e.2, d)
  | .ok key =>
    let new := { new with key := key, members := ms }
    judged (d.groupFault gi new) d fun d =>
      let cleared := old.residual ≠ new.residual || old.elements ≠ new.elements || old.transport ≠ new.transport
      let d := if old.slice = new.slice then d else eachOf old.streams d fun d s => d.closeStream s.2.2.2
      let new := if old.slice = new.slice then new else { new with streams := [] }
      let d := d.modGroup gi fun _ => new
      done (if cleared then d.clearResiduals new else d)

/-- GROUP_DELETE (R185, R327). -/
def groupDeleteBody (c : Cmd) (_id _role : Nat) (d : Dev) : Answer × Dev :=
  let gi := c.inst.toNat
  let st := (d.group gi).state
  if st = 2 || st = 3 then (.refuse cOBJECT_BUSY noDetail, d) else if st = 0 then done d else done (d.dropGroup gi)

/-- GROUP_LAUNCH (R176): a free slot has no launch to start. -/
def groupLaunchBody (c : Cmd) (_id _role : Nat) (d : Dev) : Answer × Dev :=
  let gi := c.inst.toNat
  if (d.group gi).state = 0 then (.refuse 0x03 16, d)
  else
    let ((st, _), d') := d.askLaunch gi (BitVec.ofNat 16 (c.u 16 2)) (c.u 18 2)
    if st = 0 then done d' else (.refuse st 16, d)

/-- GROUP_ABORT (R184 COMMAND, R185). -/
def groupAbortBody (c : Cmd) (_id _role : Nat) (d : Dev) : Answer × Dev :=
  let st := (d.group c.inst.toNat).state
  if st = 2 || st = 3 then done (d.abortAndGo c.inst.toNat 0x05 0x07 true) else done d

/-- RESIDUAL_RESET (R182). -/
def residualResetBody (c : Cmd) (_id _role : Nat) (d : Dev) : Answer × Dev :=
  let g := d.group c.inst.toNat
  if g.state = 2 || g.state = 3 then (.refuse cOBJECT_BUSY noDetail, d) else if g.state = 0 then done d else done (d.clearResiduals g)

/-- GROUP_SET. -/
def groupSetD (fz : Fuses) (c : Cmd) (d : Dev) : Dev := d.setCmd fz 0x0601 [1] [0x0B] c noneDenied groupSet
/-- A relay command on a group's slot. -/
def groupCmd (op : Nat) (used : List (Nat × Nat)) (ref : Nat) (c : Cmd) (d : Dev) (body : Cmd → Nat → Nat → Dev → Answer × Dev) : Dev :=
  d.runCmd { op := op, roles := [1], cls := some 0x0B, used := used, hi := 4095, ref := ref } c body

/-- Meaning of GROUP_SET. -/
def execGroupSet (c : Cmd) (s : State) : Host.Outcome State Fault Refusal := .next (s.onDevF fun fz d => groupSetD fz c d)
/-- Meaning of GROUP_CREATE. -/
def execGroupCreate (c : Cmd) (s : State) : Host.Outcome State Fault Refusal :=
  .next (s.onDev fun d => groupCmd 0x0610 [] 1 c d groupCreateBody)
/-- Meaning of GROUP_DELETE. -/
def execGroupDelete (c : Cmd) (s : State) : Host.Outcome State Fault Refusal :=
  .next (s.onDev fun d => groupCmd 0x0611 [] 0 c d groupDeleteBody)
/-- Meaning of GROUP_LAUNCH. -/
def execGroupLaunch (c : Cmd) (s : State) : Host.Outcome State Fault Refusal :=
  .next (s.onDev fun d => groupCmd 0x0612 [(16, 20)] 0 c d groupLaunchBody)
/-- Meaning of GROUP_ABORT. -/
def execGroupAbort (c : Cmd) (s : State) : Host.Outcome State Fault Refusal :=
  .next (s.onDev fun d => groupCmd 0x0613 [] 0 c d groupAbortBody)
/-- Meaning of RESIDUAL_RESET. -/
def execResidualReset (c : Cmd) (s : State) : Host.Outcome State Fault Refusal :=
  .next (s.onDev fun d => groupCmd 0x0614 [] 0 c d residualResetBody)

end Sys2Proof.Machine
end

