-- ==== Sys2Proof/Machine/UnitCmds.lean ====
section
/-!
DEFINITION. SETs on tiles, pipelines and the pool (R214, R232, R254, R265), and the commands of the power controller (R389, R393, R397).
-/
namespace Sys2Proof.Machine

open Sys2Proof

/-! ### Tiles (R214, R216, R232, R245) -/

/-- SET on a position: FLAGS are cleared by ones; a confidential slice's position ignores the write (R216). -/
def positionSet (_id : Nat) (r : SetReq) (d : Dev) : Answer × Dev :=
  if d.isConf (d.pos r.inst).slice.toNat then done d
  else done (d.modPos r.inst fun x => { x with flags := x.flags &&& ~~~ (BitVec.ofNat 5 (r.put 14 4 0)) })

/-- SET on a pipeline: ENTRY_KEY only in STATE 1 (R232, R245, R349), STALL_US in its range. -/
def pipeSet (_id : Nat) (r : SetReq) (d : Dev) : Answer × Dev :=
  let p := d.pipe r.inst
  let keyed := r.writes 8 16
  let stall := r.now 20 31 0
  let key := if keyed && p.state ≠ 0 then d.keyFor p.slice.toNat 0x12 r.inst (r.put 8 63 0) else .ok p.entryKey
  let denied := match key with | .error code => decide (code = cCONFIDENTIAL) | .ok _ => false
  if denied then (.refuse cCONFIDENTIAL 8, d)
  else if p.state = 0 || (keyed && p.state ≠ 1) then (.refuse cOBJECT_BUSY noDetail, d)
  else if stall < 10 || 100000 < stall then (.refuse cFIELD_RANGE 20, d)
  else match key with
  | .error code => (.refuse code 8, d)
  | .ok key => done (d.modPipe r.inst fun p => { p with entryKey := key, stallUs := stall })

/-- TILE_SET (R328). -/
def tileSetD (fz : Fuses) (c : Cmd) (d : Dev) : Dev :=
  d.setCmd fz 0x0701 [1] [0x10, 0x11, 0x12] c noneDenied
    (if c.cls = 0x10 then positionSet else if c.cls = 0x12 then pipeSet else noFields)

/-! ### Pool (R254, R265) -/

/-- SET on the pool object: the areas. The reply follows the zeroing of every page that changes area. -/
def poolObjSet (id : Nat) (r : SetReq) (d : Dev) : Answer × Dev :=
  let t := r.now 2 15 0
  let l := r.now 4 15 0
  let q := r.now 6 15 0
  let p := d.pool
  let past := 6016 - t - l - q
  judged (if !r.writes 2 8 then none else firstBad
    [(t < 1 || 16 < t, cFIELD_RANGE, 2), (64 < l || l % 2 ≠ 0, cFIELD_RANGE, 4), (512 < q, cFIELD_RANGE, 6),
     (d.prot.regions.any fun e => e.2.valid && past < e.2.base.toNat + e.2.length.toNat, cOBJECT_BUSY, 2),
     (d.prot.slices.any fun e => e.2.state ≠ 0 && e.2.l1Table ≠ 0, cOBJECT_BUSY, 2), (d.faults.logEnable, cOBJECT_BUSY, 4),
     (d.relay.groups.any fun e => e.2.state ≠ 0 && e.2.transport ≠ 0, cOBJECT_BUSY, 6)]) d fun d =>
    if t = p.tablePages && l = p.logPages && q = p.residPages then done d else (.wait, d.changeAreas t l q id)

/-- SET on a check-value context: RUNNING, but for a job in progress. -/
def checkSet (_id : Nat) (r : SetReq) (d : Dev) : Answer × Dev :=
  if (d.checkCtx r.inst).state = 1 then (if r.writes 8 16 then (.refuse cOBJECT_BUSY 8, d) else done d)
  else done (d.modCheck r.inst fun c => { c with running := BitVec.ofNat 64 (r.now 8 63 0) })

/-- POOL_SET (R329). -/
def poolSetD (fz : Fuses) (c : Cmd) (d : Dev) : Dev :=
  d.setCmd fz 0x0801 [1] [0x18, 0x19, 0x1A] c noneDenied
    (if c.cls = 0x18 then poolObjSet else if c.cls = 0x19 then checkSet else noFields)

/-! ### Power (R389, R393, R397) -/

/-- A term of LIMIT_W changed by a command; where LIMIT_W fell, R390 acts at once. -/
def Dev.changeLimit (d : Dev) (f : PowerSt → PowerSt) : Dev :=
  let e := d.modPower f
  if e.power.limit < d.power.limit then e.limitLowered else e

/-- SET on the power and thermal object. -/
def powerObjSet (_id : Nat) (r : SetReq) (d : Dev) : Answer × Dev :=
  let w := r.now 16 31 0
  if w < 1500 || 4000 < w then (.refuse cFIELD_RANGE 16, d)
  else done (d.changeLimit fun p => { p with fallback := w })

/-- CAP_SET (R389). -/
def capSetBody (c : Cmd) (_id _role : Nat) (d : Dev) : Answer × Dev :=
  let w := c.u 16 4
  let cap := BitVec.ofNat 32 w
  if 1 < c.u 20 1 then (.refuse 0x09 20, d)
  else if w ≠ noCap && (w < 1500 || 4000 < w) then (.refuse cFIELD_RANGE 16, d)
  else done (d.changeLimit fun p => if c.u 20 1 = 0 then { p with rmCap := cap } else { p with opCap := cap })

/-- HEARTBEAT (R393): a return after a loss is recorded with ENDED. -/
def heartbeatBody (_id _role : Nat) (d : Dev) : Answer × Dev :=
  let lost := decide (d.power.hbState = 2)
  let d := d.modPower fun p => { p with hbState := 1 }
  done (if lost then d.fault { powerRec d 0x07 with ended := true } else d)

/-- Meaning of TILE_SET. -/
def execTileSet (c : Cmd) (s : State) : Host.Outcome State Fault Refusal := .next (s.onDevF fun fz d => tileSetD fz c d)
/-- Meaning of POOL_SET. -/
def execPoolSet (c : Cmd) (s : State) : Host.Outcome State Fault Refusal := .next (s.onDevF fun fz d => poolSetD fz c d)
/-- Meaning of POWER_SET. -/
def execPowerSet (c : Cmd) (s : State) : Host.Outcome State Fault Refusal :=
  .next (s.onDevF fun fz d => d.setCmd fz 0x0901 [1] [0x20] c noneDenied powerObjSet)
/-- Meaning of CAP_SET. -/
def execCapSet (c : Cmd) (s : State) : Host.Outcome State Fault Refusal :=
  .next (s.onDev fun d => d.runCmd { op := 0x0910, roles := [1], cls := some 0x20, used := [(16, 21)] } c capSetBody)
/-- Meaning of HEARTBEAT. -/
def execHeartbeat (c : Cmd) (s : State) : Host.Outcome State Fault Refusal :=
  .next (s.onDev fun d => d.runCmd { op := 0x0911, roles := [1], cls := some 0x20 } c fun _ => heartbeatBody)
/-- Meaning of FIRMWARE_SET: every field is read-only (R412, R416). -/
def execFirmwareSet (c : Cmd) (s : State) : Host.Outcome State Fault Refusal :=
  .next (s.onDevF fun fz d => d.setCmd fz 0x0A01 [1, 2] [0x28, 0x29] c noneDenied noFields)

end Sys2Proof.Machine
end

