-- ==== Sys2Proof/Machine/Resets.lean ====
section
/-!
DEFINITION. Resets of a Kamro die (R141, R298, R386), shutdowns (R395), the reference clock (R383), and the power controller's events
(R390–R394).
-/
namespace Sys2Proof.Machine

open Sys2Proof

/-! ### Kamro dies (R141, R298) -/

/-- Mark depth and spill threshold that the configuration in force sets for a port, or the defaults of R127 (R141). -/
def Dev.cfgDepths (d : Dev) (p : Nat) : Nat × Nat :=
  match cfgInForce d.flash.config with
  | some b =>
    match tfind b.values.ports p with
    | some l => (l.getD 1 8192, l.getD 2 32768)
    | none => (8192, 32768)
  | none => (8192, 32768)

/-- The counters of R146 at 0. -/
def zeroCounters (s : PortSt) : PortSt :=
  let z := List.replicate 4 0
  { s with framesIn := z, flitsIn := z, framesOut := z, flitsOut := z, cutThrough := 0, marked := 0, spillWritten := 0, spillRead := 0, spillPeak := 0,
           creditWait := List.replicate 9 0, pacerAccept := 0, pacerRefuse := 0, discards := List.replicate 11 0, ctypeUnknown := 0 }

/-- A port of a Kamro die that starts over (R141, R298, R146): queue limits from the configuration, every counter 0. -/
def freshPort (mark spill : Nat) (s : PortSt) : PortSt :=
  let lane (l : Lane) : Lane := { l with losEvents := 0, lolEvents := 0, lastBer := 0 }
  let s := zeroCounters s
  { s with markDepth := mark, spillThresh := spill, narrowings := 0, fullTrainings := 0, corrected := 0, uncorrectable := 0, heldGrant := false,
           testRuns := [], testFailed := 0, testOpen := 0, retrain := false, dropDrill := false, corruptNext := false, starved := 0,
           lanes := tmap s.lanes fun _ l => lane l }

/-- The external ports of a Kamro die. -/
def diePorts (k : Nat) : List Nat := (upTo 144).filter fun p => dieOf p = k

/-- Everything the queues, the staging and the combining unit of a die hold is gone, and no reservation record is valid (R141, R87); its stream
owners stand. -/
def Dev.emptyDie (d : Dev) (k : Nat) : Dev :=
  let d := eachOf (diePorts k) d Dev.dropIncoming
  let sw := d.sw
  let kam : KamroSt := let x := d.kamro k; { up := x.up, nextComb := x.nextComb, combSeq := x.combSeq, owners := x.owners }
  let mine (q : Nat) : Bool := dieOf (q / 25) = k
  let sw : SwitchSt := { sw with kamro := tset sw.kamro k kam, queues := sw.queues.filter fun e => !mine e.1,
                                 cuts := sw.cuts.filter fun c => dieOf c.out ≠ k && dieOf c.inp ≠ k }
  { d with sw := sw, resvs := [] }

/-- ACTIVATIONS of the directions whose bundle is on a Kamro die start anew at its reset (R160; log 193). -/
def Dev.zeroActivations (d : Dev) (k : Nat) : Dev :=
  eachOf ((upTo 6).filter fun dir => (d.bundle dir).any fun p => dieOf p = k) d fun d dir => d.modDetour dir fun x => { x with activations := 0 }

/-- A Kamro die resets (R141, R298, R422): its ports leave service and start bring-up. -/
def Dev.kamroReset (d : Dev) (k : Nat) : Dev :=
  if !(d.kamro k).up then d
  else
    let ps := diePorts k
    let onDie (x : Perturb) : Bool :=
      let cls := x.target.toNat / 2 ^ 24
      let i := x.target.toNat % 2 ^ 24
      (cls = 2 && dieOf i = k) || (cls = 3 && dieOf (i / 16) = k)
    let d := eachOf (tkeys d.test.perturbs fun _ x => x.state = 1 && onDie x) d fun d i => d.stopPerturb i 3
    let d := d.emptyDie k
    let d := (eachOf (ps.filter fun p => (d.port p).lstate = 7) d fun d p => d.leaveService p 0 0 0).zeroActivations k
    let d := eachOf (tkeys d.ports fun p _ => dieOf p = k) d fun d p => let (m, s) := d.cfgDepths p; d.modPort p (freshPort m s)
    eachOf (ps.filter fun p => (d.port p).kind = 1 || (d.port p).kind = 2 || (d.port p).lstate = 10) d Dev.bringUp

/-- Meaning of KAMRO_DIE_RESET. -/
def execKamroDieReset (k : Kamro) (s : State) : Host.Outcome State Fault Refusal := .next (s.onDev fun d => d.kamroReset k.val)

/-! ### Shutdown (R395) -/

/-- What the pool keeps without power: its areas, the pages mapped out and the repair rows used (R254, R260, R261). -/
def PoolSt.unpowered (p : PoolSt) : PoolSt :=
  { tablePages := p.tablePages, logPages := p.logPages, residPages := p.residPages, mappedOut := p.mappedOut, mappedExtra := p.mappedExtra,
    corrected := p.corrected, uncorrectable := p.uncorrectable, repairs := p.repairs, usedRows := p.usedRows, exhausted := p.exhausted,
    patrolDone := p.patrolDone }

/-- What the tiles keep without power: which positions have lost their compute, and what serves them (R190, R215, R369). -/
def TileSt.unpowered (t : TileSt) : TileSt :=
  let kept (x : PosSt) : PosSt := { servedBy := x.servedBy, state := if x.state = 5 then 5 else 0 }
  { dies := tmap t.dies fun _ x => { x with up := false },
    positions := (t.positions.filter fun e => e.2.servedBy ≠ 0).map fun e => (e.1, kept e.2) }

/-- The internal endpoints after all of them reset (R87): those with operations outstanding, or still within their silence, are silent until 200 µs
after `now`. -/
def ReqSt.afterReset (r : ReqSt) (now : Nat) : ReqSt :=
  { quietUntil := (r.ops.map (·.ep) ++ r.quietUntil.map (·.1)).foldl (fun t ep => tset t ep (now + tagHoldNs)) [] }

/-- A port whose bit-error test and link drop end with its power or its reference: no run is left (R383, R395). -/
def PortSt.idle (s : PortSt) : PortSt := { s with testRuns := [], testFailed := 0, testOpen := 0, retrain := false, dropDrill := false }

/-- The dies other than the control die without power: lanes off, and everything they held is gone (R395); the host port is
narrow (R385). -/
def Dev.dropDies (d : Dev) : Dev :=
  let cause (x : Perturb) : Nat := if x.kind = 11 then 5 else 3
  let d := eachOf (tkeys d.test.perturbs fun _ x => x.state = 1) d fun d i => d.stopPerturb i (cause (d.perturb i))
  let lit := tkeys d.ports fun p s => p < 144 && s.lstate ≠ 0
  let d := eachOf lit d fun d p => (d.emit (.lanesOff p)).modPort p fun s => { (portDown s 0 0).idle with corruptNext := false }
  let shut (w : Window) : Window := { w with stream := none }
  let f := d.faults
  { d with sw := { round := d.sw.round }, resvs := [], homes := [], pool := d.pool.unpowered, req := d.req.afterReset d.now, relay := {},
           tiles := d.tiles.unpowered,
           xlate := { atsEnable := d.xlate.atsEnable, completed := d.xlate.completed }, host := { d.host with windows := tmap d.host.windows fun _ w => shut w, reads := [], linkNarrow := true },
           faults := { f with ring := [], ringAt := 0, mirrorRing := [], logEnable := false, replayStream := none },
           power := { d.power with mainOn := false, pllLocked := false, releaseStep := 0 } }

/-- A shutdown with its record (R395): `trip` for a thermal one. Either drives THERMAL_TRIP# low and PWR_GOOD low (R436, `Dev.pins`). -/
def Dev.shutdownFor (d : Dev) (trip : Bool) : Dev :=
  if !d.power.mainOn then d
  else
    let d := d.dropDies.modPower fun p => { p with shutdown := true, thermalTrip := p.thermalTrip || trip }
    d.fault (powerRec d (if trip then 0x08 else 0x0A))

/-- Meaning of UNDERVOLTAGE. -/
def execUndervoltage (s : State) : Host.Outcome State Fault Refusal := .next (s.onDev fun d => d.shutdownFor false)

/-! ### Reference (R383) -/

/-- The reference is lost. -/
def referenceLostD (d : Dev) : Dev :=
  if d.power.refLost then d
  else
    let d := d.modPower fun p => { p with refLost := true }
    d.fault (powerRec d 0x09)

/-- Holdover ends: LINK_DOWN with reason 0 on every port in service, and the external ports are held off: also those in bring-up, and those under a
test, a loopback or a pattern, which ends there (R383; DESIGN CHOICE, log 211). -/
def referenceHoldoverD (d : Dev) : Dev :=
  if !d.power.refLost || d.power.refHeld then d
  else
    let d := d.modPower fun p => { p with refHeld := true }
    let on := tkeys d.ports fun p s => p < 144 && s.lstate = 7
    let rising := tkeys d.ports fun p s => p < 144 && ((1 ≤ s.lstate && s.lstate ≤ 6) || s.lstate = 10)
    let d := eachOf on d fun d p => d.sendDown p 0 0 0
    let d := eachOf rising d fun d p => (d.emit (.lanesOff p)).modPort p fun s => { portDown s.idle 0 0 with dropDrill := s.dropDrill }
    eachOf (on ++ rising) d fun d p => d.modPort p fun s => { s with refOff := true }

/-- The reference is back: the ports that its loss held off come up under R280; one that another LINK_DOWN keeps off stays off (R289). -/
def referenceReturnD (d : Dev) : Dev :=
  if !d.power.refLost then d
  else
    let held := d.power.refHeld
    let d := d.modPower fun p => { p with refLost := false, refHeld := false }
    let d := d.fault { powerRec d 0x09 with ended := true }
    if held then eachOf (tkeys d.ports fun p s => p < 144 && s.refOff && s.lstate = 0 && (d.kamro (dieOf p)).up) d Dev.bringUp else d

/-- Meaning of REFERENCE_LOST. -/
def execReferenceLost (s : State) : Host.Outcome State Fault Refusal := .next (s.onDev referenceLostD)
/-- Meaning of REFERENCE_HOLDOVER_EXPIRY. -/
def execReferenceHoldoverExpiry (s : State) : Host.Outcome State Fault Refusal := .next (s.onDev referenceHoldoverD)
/-- Meaning of REFERENCE_RETURN. -/
def execReferenceReturn (s : State) : Host.Outcome State Fault Refusal := .next (s.onDev referenceReturnD)

/-! ### Power and forced conditions (R390, R391) -/

/-- A condition of R391 begins: level 4, its count and its record. Conditions are judged once conversion is on (R400). -/
def Dev.forceOn (d : Dev) (code : Nat) (was : Bool) (f : PowerSt → PowerSt) : Dev :=
  if was || !d.power.mainOn then d
  else
    let d := d.setLevel 4 f
    d.fault (powerRec d code)

/-- A condition of R391 ends; `noted` where its record has an end (R398). -/
def Dev.forceOff (d : Dev) (code : Nat) (was noted : Bool) (f : PowerSt → PowerSt) : Dev :=
  if !was then d
  else
    let d := d.modPower f
    if noted then d.fault { powerRec d code with ended := true } else d

/-- CAP_DOWN_ASSERT (R391). -/
def capDownAssertD (d : Dev) : Dev :=
  d.forceOn 0x02 d.power.forcedPin fun p => { p with forcedPin := true, pinEvents := satAdd 32 p.pinEvents 1 }
/-- CAP_DOWN_RELEASE (R391). -/
def capDownReleaseD (d : Dev) : Dev := d.forceOff 0x02 d.power.forcedPin true fun p => { p with forcedPin := false }
/-- INPUT_DROOP (R391). -/
def inputDroopD (d : Dev) : Dev :=
  d.forceOn 0x03 d.power.forcedDroop fun p => { p with forcedDroop := true, droopEvents := satAdd 32 p.droopEvents 1 }
/-- DROOP_RECOVERY (R391). -/
def droopRecoveryD (d : Dev) : Dev := d.forceOff 0x03 d.power.forcedDroop true fun p => { p with forcedDroop := false }

/-- POWER_SAMPLE (R390, R391): the average of the last 50 samples, the run of samples at or below 0.9 × LIMIT_W, and the peak condition. -/
def powerSampleD (watt mv auxMv : Nat) (d : Dev) : Dev :=
  let d := d.modPower fun p =>
    { p with samples := (watt :: p.samples).take 50, peak := max p.peak watt, inputMv := mv, auxMv := auxMv,
             goodSamples := if 10 * watt ≤ 9 * p.limit then p.goodSamples + 1 else 0 }
  if 5000 < watt then d.forceOn 0x04 d.power.forcedPeak fun p => { p with forcedPeak := true, peakEvents := satAdd 32 p.peakEvents 1 }
  else if 1000 ≤ d.power.goodSamples then d.forceOff 0x04 d.power.forcedPeak false fun p => { p with forcedPeak := false }
  else d

/-- LEVEL_UP_STEP (R390): while the average and the last sample are above LIMIT_W. -/
def levelUpStepD (d : Dev) : Dev :=
  let p := d.power
  if p.mainOn && p.limit < p.average && p.limit < p.samples.headD 0 then d.setLevel (min 4 (p.level + 1)) id else d

/-- LEVEL_DOWN_STEP (R390–R392). -/
def levelDownStepD (d : Dev) : Dev :=
  let p := d.power
  if 1000 ≤ p.goodSamples && !p.forced && !p.tempHigh && !p.dramHigh && 0 < p.level then
    d.setLevel (p.level - 1) fun p => { p with goodSamples := 0 }
  else d

/-! ### Temperature and coolant (R391, R392) -/

/-- JUNCTION_SAMPLE (R391, R392): 105 °C stops the level from falling, 110 °C forces level 4, and 115 °C shuts the module down beside both. -/
def junctionSampleD (tj : List Int) (cool100 : Bool) (d : Dev) : Dev :=
  let tj := (tj ++ List.replicate 15 0).take 15
  let top := (hottest tj).1
  let cool := cool100 && decide (top ≤ 10000)
  let d := d.modPower fun p => { p with tj := tj }
  if !d.power.mainOn then d
  else
    let begins := !d.power.tempHigh && decide (10500 ≤ top)
    let ends := d.power.tempHigh && cool
    let d := if begins then let d := d.modPower fun p => { p with tempHigh := true }; d.fault (powerRec d 0x05) else d
    let d := if ends then let d := d.modPower fun p => { p with tempHigh := false }; d.fault { powerRec d 0x05 with ended := true } else d
    let d :=
      if 11000 ≤ top then
        if d.power.forcedTj then d
        else d.setLevel 4 fun p => { p with forcedTj := true, thermalEvents := satAdd 32 p.thermalEvents 1 }
      else if cool then d.modPower fun p => { p with forcedTj := false }
      else d
    if 11500 ≤ top then d.shutdownFor true else d

/-- TEMPERATURE_STEP: one level up each 1 ms while a die is at or above 105 °C or a DRAM case at or above 95 °C. -/
def temperatureStepD (d : Dev) : Dev :=
  let p := d.power
  if p.mainOn && (10500 ≤ (hottest p.tj).1 || p.dramHigh) then d.setLevel (min 4 (p.level + 1)) id else d

/-- DRAM_TEMPERATURE_SAMPLE: doubled refresh at 85 °C, as a die at 105 °C from 95 °C, shutdown at 105 °C. -/
def dramTemperatureSampleD (tc : List Int) (d : Dev) : Dev :=
  let top := (hottest (tc.take 48)).1
  let was := d.power.dramHigh
  let d := d.modPower fun p => { p with pkgMax := top, refresh2x := 8500 ≤ top, dramHigh := 9500 ≤ top }
  if !d.power.mainOn then d.modPower fun p => { p with dramHigh := was }
  else
    let d := if !was && d.power.dramHigh then d.fault (powerRec d 0x05)
             else if was && !d.power.dramHigh then d.fault { powerRec d 0x05 with ended := true } else d
    if 10500 ≤ top then d.shutdownFor true else d

/-- COOLANT_SAMPLE: THERMAL_LIMIT_W, and the alarm of two bad samples in a row, counted from step 4 of R385 (R400). -/
def coolantSampleD (flowMl : Nat) (inlet outlet : Int) (inRange10s : Bool) (d : Dev) : Dev :=
  let bad := decide (flowMl < 1500) || decide (5000 < inlet)
  let d := d.modPower fun p => { p with flow := flowMl, inlet := inlet, outlet := outlet, thermal := thermalLimit flowMl inlet,
                                        coolBad := if bad && p.mainOn then p.coolBad + 1 else 0 }
  if 2 ≤ d.power.coolBad then
    d.forceOn 0x06 d.power.forcedCool fun p => { p with forcedCool := true, thermalEvents := satAdd 32 p.thermalEvents 1 }
  else if !bad && inRange10s then d.forceOff 0x06 d.power.forcedCool true fun p => { p with forcedCool := false }
  else d

/-- HEARTBEAT_TIMEOUT (R393): FALLBACK_W applies. -/
def heartbeatTimeoutD (d : Dev) : Dev :=
  if d.power.hbState ≠ 1 then d
  else
    let d := d.modPower fun p => { p with hbState := 2 }
    d.fault (powerRec d 0x07)

/-- Meaning of POWER_SAMPLE. -/
def execPowerSample (watt mv auxMv : Nat) (s : State) : Host.Outcome State Fault Refusal := .next (s.onDev (powerSampleD watt mv auxMv))
/-- Meaning of LEVEL_UP_STEP. -/
def execLevelUpStep (s : State) : Host.Outcome State Fault Refusal := .next (s.onDev levelUpStepD)
/-- Meaning of LEVEL_DOWN_STEP. -/
def execLevelDownStep (s : State) : Host.Outcome State Fault Refusal := .next (s.onDev levelDownStepD)
/-- Meaning of CAP_DOWN_ASSERT. -/
def execCapDownAssert (s : State) : Host.Outcome State Fault Refusal := .next (s.onDev capDownAssertD)
/-- Meaning of CAP_DOWN_RELEASE. -/
def execCapDownRelease (s : State) : Host.Outcome State Fault Refusal := .next (s.onDev capDownReleaseD)
/-- Meaning of INPUT_DROOP. -/
def execInputDroop (s : State) : Host.Outcome State Fault Refusal := .next (s.onDev inputDroopD)
/-- Meaning of DROOP_RECOVERY. -/
def execDroopRecovery (s : State) : Host.Outcome State Fault Refusal := .next (s.onDev droopRecoveryD)
/-- Meaning of JUNCTION_SAMPLE. -/
def execJunctionSample (tj : List Int) (cool100 : Bool) (s : State) : Host.Outcome State Fault Refusal :=
  .next (s.onDev (junctionSampleD tj cool100))
/-- Meaning of TEMPERATURE_STEP. -/
def execTemperatureStep (s : State) : Host.Outcome State Fault Refusal := .next (s.onDev temperatureStepD)
/-- Meaning of DRAM_TEMPERATURE_SAMPLE. -/
def execDramTemperatureSample (tc : List Int) (s : State) : Host.Outcome State Fault Refusal := .next (s.onDev (dramTemperatureSampleD tc))
/-- Meaning of COOLANT_SAMPLE. -/
def execCoolantSample (flowMl : Nat) (inlet outlet : Int) (inRange10s : Bool) (s : State) : Host.Outcome State Fault Refusal :=
  .next (s.onDev (coolantSampleD flowMl inlet outlet inRange10s))
/-- Meaning of HEARTBEAT_TIMEOUT. -/
def execHeartbeatTimeout (s : State) : Host.Outcome State Fault Refusal := .next (s.onDev heartbeatTimeoutD)

end Sys2Proof.Machine
end

