-- ==== Sys2Proof/Machine/Firmware.lean ====
section
/-!
DEFINITION. Firmware images (R402–R404), handover, trial and fallback (R405–R411), and configuration commits (R413–R415, R294).
-/
namespace Sys2Proof.Machine

open Sys2Proof

/-! ### Flash (R401) -/

/-- A boot-select record written into the older of its two sectors. -/
def Dev.writeSelect (d : Dev) (bank : Nat) (stagedOk : Bool) (digest : BitVec 384) : Dev :=
  let cur := d.flash.inForce
  let new : BootSelect := { seq := cur.seq + 1, bootBank := bank, stagedOk := stagedOk, digest := digest, valid := true }
  ({ d with flash := { d.flash with select := [cur, new] }, fw := { d.fw with selectAt := some d.now } }).eraseSectors (new.seq % 2) 1

/-- Flash sectors that an image takes (R401, R402). -/
def Image.sectors (i : Image) : Nat := ceilDiv (512 + i.bodyLen) 65536

/-- The running image: none in recovery. -/
def Dev.runningImage (d : Dev) : Option Image :=
  if d.host.recovery then none else if d.fw.fromStaging then d.fw.staging else tfind d.flash.banks d.fw.running

/-! ### Staging (R404) -/

/-- Staging is erased in the background. -/
def Dev.startErase (d : Dev) : Dev := { d with fw := { d.fw with erasing := true } }

/-- Bytes written into staging at an offset past the header; the body's digest is computed once every byte is there. -/
def Dev.stageBytes (d : Dev) (i : Image) (off : Nat) (bs : List Byte) (written : List (Nat × Nat)) : Answer × Dev :=
  let past := off + bs.length
  let body := overwrite (padTo (max i.body.length (past - 512)) i.body) (off - 512) bs
  let i := { i with body := body }
  let written := if bs.isEmpty then written else written ++ [(off, past)]
  let total := (written.map fun e => e.2 - e.1).foldl (· + ·) 0
  let put (st : Nat) : Dev := { d with fw := { d.fw with staging := some i, written := written, stagedBytes := total, stageState := st } }
  if total < i.bodyLen then done (put 1)
  else if i.bodyOk then done (put 2)
  else (.denied 0x46 0, (((put 5).startErase).fault (fwRec d 0x01 i.version)))

/-- FW_STAGE, its refusals in the order of R404, R418: a header that is not accepted first, staging that is being erased last. -/
def fwStageBody (fz : Fuses) (c : Cmd) (_id _role : Nat) (d : Dev) : Answer × Dev :=
  let off := c.u 16 8
  let n := refLen c
  let bs := refBytes c
  let st := d.fw.stageState
  let busy := d.fw.erasing || st = 3 || st = 4
  if off = 0 then
    let i : Image := { header := bs.take 512, body := [] }
    if n < 512 then (.refuse 0x49 52, d)
    else if !headerOk fz i then (.denied 0x46 0, d.fault (fwRec d 0x01 i.version))
    else if 512 + i.bodyLen < n then (.refuse cFIELD_RANGE 52, d)
    else if busy then (.refuse cOBJECT_BUSY 16, d)
    else d.stageBytes i 512 (bs.drop 512) []
  else match (if st = 1 then d.fw.staging else none) with
  | none => (.refuse cOBJECT_BUSY 16, d)
  | some i =>
    if 512 + i.bodyLen < off + n then (.refuse cFIELD_RANGE 52, d)
    else if off < 512 || d.fw.written.any fun e => off < e.2 && e.1 < off + n then (.refuse cFIELD_RANGE 16, d)
    else if busy then (.refuse cOBJECT_BUSY 16, d)
    else d.stageBytes i off bs d.fw.written

/-- STAGING_ERASE_DONE: the sectors of the image that stood there are erased. -/
def stagingEraseDoneD (d : Dev) : Dev :=
  if !d.fw.erasing then d
  else ({ d with fw := { d.fw with erasing := false, stageState := 0, staging := none, stagedBytes := 0, written := [] } }).eraseSectors 3072
    ((d.fw.staging.map Image.sectors).getD 0)

/-! ### Handover (R405–R409) -/

/-- Every active perturbation ends (R422). -/
def Dev.endAllPerturbs (d : Dev) (cause : Nat) : Dev := eachOf (tkeys d.test.perturbs fun _ x => x.state = 1) d fun d i => d.endPerturb i cause

/-- The state-transfer record that the outgoing image writes (R408 step 3), in its own STR_OUT format: the firmware's private state, whose layout the
spec does not give. -/
def Dev.transferRecord (d : Dev) : StrRecord :=
  let fmt := ((d.runningImage).map Image.strOut).getD 0
  let runs := d.ports.flatMap fun e => if e.2.testRuns.isEmpty then [] else e.1 :: e.2.testRuns
  let body := Config.handoverState fmt ([d.sec.head.toNat, d.sec.unsealed, d.sec.unsealedAt, b2n d.fw.commit.isSome, d.fw.commitTries, d.fw.trialStart] ++ runs)
  { format := fmt, crc := BitVec.ofNat 32 (crc32c body), body := body }

/-- A handover starts (R408 steps 1 to 3): to the staged image (1), back to the boot bank (2), or to the running image again (3). -/
def Dev.startHandover (d : Dev) (target cause : Nat) : Dev :=
  let d := d.endAllPerturbs 4
  { d with host := { d.host with handover := true, fwReady := false },
           fw := { d.fw with handoverTo := target, handoverCause := cause, handoverStart := d.now, record := some d.transferRecord } }

/-- Whether any key slot is in force (R354). -/
def Dev.slotHeld (d : Dev) : Bool := d.prot.keySlots.any fun e => e.2.state = 1

/-- FW_ACTIVATE (R405): the handover starts once the reply is written. -/
def fwActivateBody (fz : Fuses) (_id _role : Nat) (d : Dev) : Answer × Dev :=
  let compatible (i : Image) : Bool := match d.runningImage with | some r => r.readBy i && i.readBy r | none => true
  if d.slotHeld then (.refuse cCONFIDENTIAL noDetail, d)
  else if d.fw.stageState ≠ 2 || d.fw.fwState = 1 || d.host.handover then (.refuse cOBJECT_BUSY noDetail, d)
  else match d.fw.staging with
  | none => (.refuse cOBJECT_BUSY noDetail, d)
  | some i =>
    if !compatible i || !imageOk fz i then (.refuse 0x46 noDetail, d)
    else (.started, { d with fw := { d.fw with handoverTo := 1 } })

/-- FW_ACTIVATE with the handover that follows its reply. -/
def fwActivateD (fz : Fuses) (c : Cmd) (d : Dev) : Dev :=
  let d := d.runCmd { op := 0x0A11, roles := [1], cls := some 0x28 } c fun _ => fwActivateBody fz
  if d.fw.handoverTo = 1 && !d.host.handover then d.startHandover 1 0 else d

/-- FW_REVERT (R410): its reply is held until the handover is complete (R407). -/
def fwRevertBody (_id _role : Nat) (d : Dev) : Answer × Dev :=
  if d.slotHeld then (.refuse cCONFIDENTIAL noDetail, d)
  else if d.fw.fwState ≠ 1 || d.host.handover then (.refuse cOBJECT_BUSY noDetail, d)
  else done (d.startHandover 2 3)

/-- TRIAL_TIMEOUT (R410). -/
def trialTimeoutD (d : Dev) : Dev := if d.fw.fwState = 1 && !d.host.handover then d.startHandover 2 1 else d

/-- What the boot ROM runs (R411): the image, whether it is staging, and its bank. -/
def Dev.bootChoice (d : Dev) (fz : Fuses) : Option (Image × Bool × Nat) :=
  let sel := d.flash.inForce
  let bank (b : Nat) : Option (Image × Bool × Nat) :=
    match tfind d.flash.banks b with
    | some i => if imageOk fz i then some (i, false, b) else none
    | none => none
  let staged : Option (Image × Bool × Nat) :=
    match d.fw.staging with
    | some i => if sel.stagedOk && imageOk fz i && i.digest = sel.digest then some (i, true, sel.bootBank) else none
    | none => none
  if d.ident.straps.bootSrc then none else (staged.or (bank sel.bootBank)).or (bank (1 - sel.bootBank))

/-- The image that boots runs (R411, R340): its measurement, and staging to be copied where it booted from there. Where none verifies
the module is in recovery. -/
def Dev.runBoot (d : Dev) (fz : Fuses) : Dev :=
  match d.bootChoice fz with
  | none =>
    { d with host := { d.host with fwReady := false, handover := false, recovery := true, linkNarrow := true },
             fw := { d.fw with version := 0, fromStaging := false }, sec := { d.sec with meas2 := 0 } }
  | some (i, staged, bank) =>
    let sel := d.flash.inForce
    let d := { d with host := { d.host with fwReady := true, handover := false, recovery := false },
                      fw := { d.fw with version := BitVec.ofNat 32 i.version, running := bank, fromStaging := staged,
                                        stageState := if staged then 4 else d.fw.stageState },
                      ident := { d.ident with bootBank := bank }, sec := { d.sec with meas2 := i.digest } }
    if !staged && bank ≠ sel.bootBank then d.fault (fwRec d 0x09 i.version) else d

/-- Control returns to the boot bank (R410): the image on trial is rejected. -/
def Dev.fallBack (d : Dev) (fz : Fuses) (cause : Nat) : Dev :=
  let v := imageVersion d.fw.staging
  let d := { d with fw := { d.fw with fwState := 0, stageState := 5, lastFallback := cause, fromStaging := false },
                    flash := { d.flash with fallbacks := satAdd 32 d.flash.fallbacks 1 } }
  let d := (d.startErase).runBoot fz
  d.fault (fwRec d 0x04 v)

/-- Whether the image on trial may confirm itself (R409): every enabled ring has been served since the trial began, or holds nothing to serve, and the
self-test finds every die there (DESIGN CHOICE, log 215). A watchdog expiry has ended the trial (R410). -/
def Dev.mayConfirm (d : Dev) : Bool :=
  let rings := (upTo 64).all fun r => let g := d.ring r; !g.enable || g.cmdHead = g.cmdTail || d.fw.served.contains r
  let dies := 3 ≤ d.power.releaseStep && (d.kamro 0).up && (d.kamro 1).up && d.pool.diesLost.isEmpty && ((upTo 8).all fun t => (d.tileDie t).up)
  d.fw.fwState = 1 && !d.host.handover && rings && dies

/-- FW_CONFIRM (R409), but for SVN_FLOOR, which stands in the fuses. -/
def fwConfirmD (d : Dev) : Dev :=
  match d.fw.staging with
  | some i =>
    if d.mayConfirm then
      let d := { d with fw := { d.fw with fwState := 0, stageState := 4 } }
      let d := d.writeSelect d.flash.inForce.bootBank true i.digest
      d.fault (fwRec d 0x03 i.version)
    else d
  | none => d

/-- SVN_FLOOR after a confirmation (R403, R409). -/
def confirmedFloor (fz : Fuses) (d : Dev) : Nat :=
  match d.fw.staging with
  | some i => if d.mayConfirm then max fz.svnFloor i.svn else fz.svnFloor
  | none => fz.svnFloor

/-- BANK_COPY_DONE (R411): the confirmed image stands in the bank that was not booted. -/
def bankCopyDoneD (d : Dev) : Dev :=
  match d.fw.staging with
  | some i =>
    if d.fw.stageState = 4 && d.fw.fromStaging && !d.fw.erasing && !d.host.handover then
      let b := 1 - d.flash.inForce.bootBank
      let d := { d with flash := { d.flash with banks := tset d.flash.banks b i } }
      let d := (d.eraseSectors (1024 + 1024 * b) i.sectors).writeSelect b false 0
      let d := { d with fw := { d.fw with running := b, fromStaging := false } }
      (d.fault (fwRec d 0x05 i.version)).startErase
    else d
  | none => d

/-! ### Commits (R414, R336, R294) -/

/-- CONFIG_COMMIT. -/
def configCommitBody (id role : Nat) (d : Dev) : Answer × Dev := (.wait, d.requestCommit role [id])

/-- A block stands in its slot of the flash, in the place of what was there. -/
def Dev.putBlock (d : Dev) (b : CfgBlock) : Dev :=
  let others := d.flash.config.filter fun (x : CfgBlock) => !(x.copy = b.copy && x.slot = b.slot)
  ({ d with flash := { d.flash with config := others ++ [b] } }).eraseSectors (4096 + 256 * b.copy + b.slot) 1

/-- What follows from a committed block: its floors are in flash (R336), its coefficients stored for the next bring-up (R281). -/
def Dev.blockWritten (d : Dev) (v : CfgValues) : Dev :=
  let put (i : Nat) (c : Cred) : Cred := { c with floor := (tget v.creds i {}).next }
  { d with ports := v.tapsInto d.ports, sec := { d.sec with makerFloor := v.maker, creds := tmap d.sec.creds put } }

/-- A reply that waited for a commit: CONFIG_COMMIT's own, or one that waited for its floor. -/
def Dev.commitDone (d : Dev) (id status : Nat) : Dev :=
  match d.waitOf id with
  | some w =>
    let d := if w.opcode = 0x0A20 && w.effect then d.finishWait id status (if status = 0 then 0 else noDetail) else d
    if status = 0 then d.floorDone id else d
  | none => d

/-- CONFIG_WRITE_DONE (R414): the read-back matches, which it cannot where the block does not fit its slot (R413), or the block is written to the following slot; three failures end the commit. -/
def configWriteDoneD (same : Bool) (d : Dev) : Dev :=
  match d.fw.commit with
  | none => d
  | some b =>
    if d.host.handover then d
    else
      let waits := d.fw.commitWaits
      if same && b.bytes.length ≤ 65536 then
        let d := (d.putBlock b).blockWritten b.values
        let m4 := if b.role = 0 then d.sec.meas4 else Config.sha384 (le 48 d.sec.meas4.toNat ++ le 48 (Config.sha384 b.bytes).toNat)
        let d := { d with fw := { d.fw with commit := none, commitWaits := [] }, sec := { d.sec with meas4 := m4 } }
        (eachOf waits d fun d id => d.commitDone id 0).nextCommit
      else
        let d := d.putBlock b.torn
        if d.fw.commitTries < 2 then
          { d with fw := { d.fw with commit := some { b with slot := (b.slot + 1) % 256 }, commitTries := d.fw.commitTries + 1 } }
        else
          let d := { d with fw := { d.fw with commit := none, commitWaits := [] } }
          let d := eachOf waits d fun d id => d.commitDone id cNO_RESOURCE
          let left := waits.filter fun id => ((d.waitOf id).map (·.floor)).getD false
          (if left.isEmpty then d else d.requestCommit 0 left).nextCommit

/-- MAPPED_OUT_COMMIT (R294): at most once in 10 s. -/
def mappedOutCommitD (d : Dev) : Dev :=
  let soon := match d.fw.lastMapCommit with | some t => decide (d.now < t + 10000000000) | none => false
  if !d.fw.mappedDirty || soon then d
  else ({ d with fw := { d.fw with mappedDirty := false, lastMapCommit := some d.now } }).requestCommit 0 []

/-! ### Meanings -/

/-- Meaning of FW_STAGE. -/
def execFwStage (c : Cmd) (s : State) : Host.Outcome State Fault Refusal :=
  .next (s.onDevF fun fz d => d.runCmd { op := 0x0A10, roles := [1], cls := some 0x28, used := [(16, 24)], ref := 1 } c (fwStageBody fz))
/-- Meaning of FW_ACTIVATE. -/
def execFwActivate (c : Cmd) (s : State) : Host.Outcome State Fault Refusal := .next (s.onDevF fun fz d => fwActivateD fz c d)
/-- Meaning of FW_REVERT. -/
def execFwRevert (c : Cmd) (s : State) : Host.Outcome State Fault Refusal :=
  .next (s.onDev fun d => d.runCmd { op := 0x0A12, roles := [1], cls := some 0x28 } c fun _ => fwRevertBody)
/-- Meaning of CONFIG_COMMIT. -/
def execConfigCommit (c : Cmd) (s : State) : Host.Outcome State Fault Refusal :=
  .next (s.onDev fun d => d.runCmd { op := 0x0A20, roles := [1, 2], cls := some 0x29, hi := 1 } c fun _ => configCommitBody)
/-- Meaning of FW_CONFIRM: SVN_FLOOR rises with the confirmation (R403). -/
def execFwConfirm (s : State) : Host.Outcome State Fault Refusal :=
  .next { s with fuses := { s.fuses with svnFloor := confirmedFloor s.fuses s.dev }, dev := fwConfirmD s.dev }
/-- Meaning of TRIAL_TIMEOUT. -/
def execTrialTimeout (s : State) : Host.Outcome State Fault Refusal := .next (s.onDev trialTimeoutD)
/-- Meaning of STAGING_ERASE_DONE. -/
def execStagingEraseDone (s : State) : Host.Outcome State Fault Refusal := .next (s.onDev stagingEraseDoneD)
/-- Meaning of BANK_COPY_DONE. -/
def execBankCopyDone (s : State) : Host.Outcome State Fault Refusal := .next (s.onDev bankCopyDoneD)
/-- Meaning of CONFIG_WRITE_DONE. -/
def execConfigWriteDone (same : Bool) (s : State) : Host.Outcome State Fault Refusal := .next (s.onDev (configWriteDoneD same))
/-- Meaning of MAPPED_OUT_COMMIT. -/
def execMappedOutCommit (s : State) : Host.Outcome State Fault Refusal := .next (s.onDev mappedOutCommitD)

end Sys2Proof.Machine
end

