-- ==== Sys2Proof/Machine/StartUp.lean ====
section
/-!
DEFINITION. Power-up (R385, R400, R440), the configuration in force at start (R413, R415), loss of power (R338), and resets of the
control die (R381, R386).
-/
namespace Sys2Proof.Machine

open Sys2Proof

/-! ### What a start reads from flash -/

/-- The lists of a block put into the ports (R413 types 1, 3 and 4). -/
def CfgValues.portsOf (v : CfgValues) (ports : Tbl PortSt) : Tbl PortSt :=
  let put (t : Tbl PortSt) (e : Nat × List Nat) : Tbl PortSt :=
    let g (i z : Nat) : Nat := e.2.getD i z
    let depths (s : PortSt) : PortSt := { s with markDepth := g 1 8192, spillThresh := g 2 32768 }
    let outside (s : PortSt) : PortSt :=
      { depths s with role := BitVec.ofNat 8 (g 0 0), pwrPolicy := g 3 0, quietIdle := g 4 16, sleepIdle := g 5 100, checkInterval := g 6 60 }
    tmod t e.1 {} (if e.1 < 144 then outside else depths)
  let masks (t : Tbl PortSt) (e : Nat × (Nat × Nat)) : Tbl PortSt :=
    tmod t e.1 {} fun s => { s with txMapped := BitVec.ofNat 9 e.2.1, rxMapped := BitVec.ofNat 9 e.2.2 }
  v.lanesOut.foldl masks (v.tapsInto (v.ports.foldl put ports))

/-- The routing object where no copy sets it (R148): rings of 16, 16 and 8, the domain the own rack alone. -/
def Dev.ownDomain (d : Dev) : RoutingSt := { d.rt with x0 := coord d.rack 0, y0 := coord d.rack 1, z0 := coord d.rack 2 }

/-- The routing object's values of a block (R413 type 2); `r` are those without one. -/
def CfgValues.routingOf (v : CfgValues) (r : RoutingSt) : RoutingSt :=
  let g (i z : Nat) : Nat := v.rings.getD i z
  { r with nx := g 0 16, ny := g 1 16, nz := g 2 8, x0 := g 3 r.x0, xw := g 4 1, y0 := g 5 r.y0, yw := g 6 1, z0 := g 7 r.z0, zw := g 8 1,
           detours := (r.detours.zip (upTo 6)).map fun e => { e.1 with side := g (9 + e.2) e.1.side } }

/-- The drills of a block, disarmed (R381, R413 type 8). -/
def CfgValues.drillsOf (v : CfgValues) : Tbl Drill :=
  let one (l : List Nat) : Drill :=
    { kind := l.getD 0 0, target := BitVec.ofNat 32 (l.getD 1 0), interval := BitVec.ofNat 32 (l.getD 2 0), jitter := BitVec.ofNat 32 (l.getD 3 0) }
  v.drills.map fun e => (e.1, one e.2)

/-- Credentials of a block: LAST_COUNTER takes its stored floor (R336). -/
def CfgValues.credsOf (v : CfgValues) : Tbl Cred := v.creds.map fun e => (e.1, { e.2 with last := e.2.next, floor := e.2.next })

/-- Records of what a start finds in the copies (R415): each newest slot that is invalid, and that no slot is valid. -/
def Dev.configRecords (d : Dev) : Dev :=
  let newest (copy : Nat) : Option CfgBlock := (d.flash.config.filter fun b => b.copy = copy).getLast?
  let bad := [0, 1].filter fun copy => ((newest copy).map fun b => !b.valid).getD false
  let d := eachOf bad d fun d copy => d.fault { fwRec d 0x06 d.fw.version.toNat with object := obj 0x29 copy }
  match cfgInForce d.flash.config with
  | some _ => d
  | none => d.fault (fwRec d 0x07 d.fw.version.toNat)

/-- A port without a configuration (R415). -/
def PortSt.plain (s : PortSt) : PortSt :=
  { s with role := 0, markDepth := 8192, spillThresh := 32768, pwrPolicy := 0, quietIdle := 16, sleepIdle := 100, checkInterval := 60,
           txMapped := 0, rxMapped := 0, lanes := tmap s.lanes fun _ l => { l with stored := none } }

/-- Every object that a section holds takes the values read, or its defaults (R415). The module is in bootstrap while no installer's credential is in
force, until the first has been; then again only after a field return (R335). -/
def Dev.takeConfig (d : Dev) (v : CfgValues) : Dev :=
  let p := d.pool
  let creds := v.credsOf
  { d with ports := v.portsOf (tmap d.ports fun _ s => s.plain), rt := v.routingOf d.ownDomain,
           pool := { p with mappedOut := v.pagesOut, mappedExtra := [], tablePages := v.areas.getD 0 1, logPages := v.areas.getD 1 16,
                            residPages := v.areas.getD 2 64 },
           sec := { d.sec with creds := creds, makerLast := v.maker, makerFloor := v.maker, makerNext := v.maker,
                               bootstrap := !d.flash.bootOver && creds.all fun e => !(e.2.role = 2 && e.2.state = 1) },
           test := { d.test with drills := v.drillsOf }, power := { d.power with fallback := v.fallback } }

/-- The block in force read at power-up (R415). -/
def Dev.loadConfig (d : Dev) : Dev := d.takeConfig (((cfgInForce d.flash.config).map CfgBlock.read).getD {})

/-- Measurements 3 and 4 at a start (R340). -/
def Dev.measureConfig (d : Dev) : Dev :=
  let m3 := match cfgInForce d.flash.config with | some b => Config.sha384 b.bytes | none => 0
  { d with sec := { d.sec with meas3 := m3, meas4 := 0 } }

/-- The start record of the audit log (R337, R338): the chain goes on after the last record found in flash, and the numbers after the last one given,
so that none repeats (DEDUCED, log 149). -/
def Dev.auditStart (d : Dev) : Dev :=
  let last := d.flash.audit.getLast?
  let head := match last with | some r => r.chain | none => 0
  let next := max d.flash.seqMark (match last with | some r => r.seq + 1 | none => 0)
  let sealed := match (d.flash.audit.filter fun r => r.kind = 1).getLast? with | some r => r.seq | none => 0
  let d := { d with sec := { d.sec with nextSeq := next, head := head, unwritten := [], unsealed := 0, lastSeal := sealed } }
  d.audit { seq := 0, time := 0, kind := 2, role := 0, fabric := false, signed := false, status := 0, opcode := 0, source := 0, object := 0,
            cred := 0xFFFFFFFF#32, counter := 0, a := head, b := 0, chain := 0 }

/-! ### Power (R338, R385) -/

/-- What stands without power: the flash, what the dies' fuses and DRAM keep, the tiles' spares (R190), the numbers of keys and signatures already
used, and what the model itself keeps. The endpoints' silence of R87 counts from the start that follows. -/
def Dev.withoutPower (d : Dev) : Dev :=
  let p := d.pool
  let f := d.fw
  { wire := d.wire, free := d.free, flash := { d.flash with seqMark := max d.flash.seqMark d.sec.nextSeq },
    power := { auxOn := false, thermalTrip := d.power.thermalTrip, tj := d.power.tj },
    pool := { repairs := p.repairs, usedRows := p.usedRows, exhausted := p.exhausted, softRepairs := p.softRepairs },
    tiles := d.tiles.unpowered, req := d.req.afterReset 0,
    prot := { nextOpen := d.prot.nextOpen, powerUps := d.prot.powerUps }, sec := { signs := d.sec.signs },
    fw := { fwState := f.fwState, stageState := f.stageState, lastFallback := f.lastFallback, staging := f.staging, stagedBytes := f.stagedBytes,
            written := f.written, erasing := f.erasing } }

/-- POWER_LOSS (R338, R415, R411, R418): a block being written may be torn, and a boot-select record written at this very time; unwritten audit
records and a handover are lost. -/
def powerLossD (torn : Bool) (d : Dev) : Dev :=
  let d := match d.fw.commit with
    | some b => if torn then d.putBlock b.torn else d
    | none => d
  let tear (f : FlashSt) : FlashSt :=
    { f with select := f.select.map fun x => if x = f.inForce then { x with valid := false } else x }
  let d := if torn && d.fw.selectAt = some d.now then { d with flash := tear d.flash } else d
  d.withoutPower

/-- POWER_ON_RESET (R385 step 1, R384, R350). -/
def powerOnResetD (d : Dev) : Dev :=
  let d := d.withoutPower
  { d with power := { d.power with auxOn := true }, prot := { d.prot with powerUps := d.prot.powerUps + 1 } }

/-- The PORT_HOLD record of a strap fault (R27, R355). -/
def Dev.strapRecord (d : Dev) : Dev := if d.strapsOk then d else d.fault (mkRec 1 5 6 (obj 0x01 0))

/-- The failure rule of R408: steps that firmware drives start again: bring-up under way, the run of a bit-error test, a commit's write. Drains and
sweeps have no step of their own to repeat, and the copy and check-value engines are hardware (DEDUCED, log 217). -/
def Dev.restartSteps (d : Dev) : Dev :=
  let d := eachOf (tkeys d.ports fun p s => p < 144 && 1 ≤ s.lstate && s.lstate ≤ 6) d Dev.bringUp
  let d := eachOf (tkeys d.ports fun p s => p < 144 && s.lstate = 10 && !s.testRuns.isEmpty) d fun d p =>
    d.emit (.pattern p ((d.port p).testRuns.headD 0))
  { d with fw := { d.fw with commitTries := 0 } }

/-- The image that starts rebuilds its state without a record (R408, R410): RECORD_REBUILT. -/
def Dev.rebuild (d : Dev) : Dev := (d.restartSteps).fault (fwRec d 0x0A d.fw.version.toNat)

/-- STRAP_SAMPLE (R440, R385 step 2): the straps, the configuration, the firmware (R411), and the audit log's start record. An image that
was on trial falls back (R410). -/
def strapSampleD (pins : StrapPins) (fz : Fuses) (d : Dev) : Dev :=
  if d.ident.sampled || !d.power.auxOn then d
  else
    let d := { d with ident := { d.ident with sampled := true, straps := pins } }
    let d := d.loadConfig.measureConfig.auditStart
    let d := if d.fw.fwState = 1 then (d.fallBack fz 4).rebuild else d.runBoot fz
    d.configRecords.strapRecord

/-- MAIN_POWER_GOOD (R385 steps 3 and 4, R395): conversion on, PLLs locked; never again after a shutdown, and after a thermal one only once
every die is at or below 60 °C. -/
def mainPowerGoodD (d : Dev) : Dev :=
  let p := d.power
  if !p.auxOn || !d.ident.sampled || p.mainOn || p.shutdown || (p.thermalTrip && 6000 < (hottest p.tj).1) then d
  else
    { d with power := { p with mainOn := true, pllLocked := true, thermalTrip := false, coolBad := 0 }, host := { d.host with linkNarrow := d.host.recovery } }

/-- DIE_RESET_RELEASE (R385 steps 5 and 6): Kamro dies, pool dies, then tile dies; then ports with a role begin bring-up. -/
def dieResetReleaseD (d : Dev) : Dev :=
  if !d.power.pllLocked || 3 ≤ d.power.releaseStep then d
  else
    let n := d.power.releaseStep
    let d := d.modPower fun p => { p with releaseStep := n + 1 }
    if n = 0 then (d.modKamro 0 fun k => { k with up := true }).modKamro 1 fun k => { k with up := true }
    else if n = 1 then eachOf (upTo 4) d fun d h => d.modHome h fun x => { x with up := true }
    else
      let tiles := { d.tiles with dies := (upTo 8).foldl (fun t k => tmod t k {} fun x => { x with up := true }) d.tiles.dies }
      let d := { d with tiles := tiles }
      eachOf (tkeys d.ports fun p s => p < 144 && (s.kind = 1 || s.kind = 2)) d Dev.bringUp

/-! ### The journal and the handover (R407, R408) -/

/-- Whether a command of the journal is TAKEN and nothing of its effect applied (R407): the reply of the others that wait follows what they have set
going, so that they are COMMITTED (DEDUCED, log 216). -/
def WaitReply.retaken (w : WaitReply) : Bool := w.effect && [0x0710, 0x0711, 0x0714, 0x0820, 0x0A20].contains w.opcode

/-- What a TAKEN command has prepared is dropped. -/
def Dev.forget (d : Dev) (id : Nat) : Dev :=
  let t := d.tiles
  let idle (x : PipeSt) : PipeSt :=
    { x with starting := if x.starting = some id then none else x.starting, unloading := if x.unloading = some id then none else x.unloading }
  { d with tiles := { t with loading := t.loading.filter fun l => l.reply ≠ id, pipes := tmap t.pipes fun _ x => idle x },
           xlate := { d.xlate with translating := d.xlate.translating.filter fun e => e.2 ≠ id },
           fw := { d.fw with commitWaits := d.fw.commitWaits.filter (· ≠ id), commitNextWaits := d.fw.commitNextWaits.filter (· ≠ id) } }

/-- The rule of a TAKEN command. -/
def takenBody (op : Nat) : Cmd → Nat → Nat → Dev → Answer × Dev :=
  match op with
  | 0x0710 => lastLoadBody []
  | 0x0711 => pipeStartBody
  | 0x0714 => pipeUnloadBody
  | 0x0820 => copyBody
  | _ => fun _ => configCommitBody

/-- A TAKEN command executed again from its start (R407). -/
def Dev.retake (d : Dev) (w : WaitReply) : Dev :=
  match w.cmd with
  | none => d
  | some c =>
    let (a, d) := takenBody w.opcode c w.id w.role (d.forget w.id)
    d.giveAnswer w.id c a

/-- The journal applied (R407): TAKEN commands are executed again, held replies are written, and the next commit starts. -/
def Dev.applyJournal (d : Dev) : Dev :=
  let d := eachOf (d.host.waiting.filter WaitReply.retaken) d Dev.retake
  (eachOf (d.host.waiting.map (·.id)) d Dev.settleWait).nextCommit

/-! ### Control die (R381, R386, R410, R411) -/

/-- What a reset of the control die sets to its start-up value (R381, R428): the fault queue, the log, drills, detours, perturbations. -/
def Dev.controlState (d : Dev) : Dev :=
  let d := d.endAllPerturbs 4
  let d := match d.faults.replayStream with | some n => d.closeStream n | none => d
  let drills := match cfgInForce d.flash.config with | some b => b.values.drillsOf | none => []
  let calm (x : Detour) : Detour := { x with state := 0, released := false, activations := 0, probeTag := none }
  { d with faults := {}, test := { d.test with drills := drills, lastDrill := none }, rt := { d.rt with detours := d.rt.detours.map calm } }

/-- No slot is valid at a start (R415): every object takes its defaults, so that ports are off, those in service too; the lanes go off without a
LINK_DOWN (DESIGN CHOICE, log 218). -/
def Dev.defaultConfig (d : Dev) : Dev :=
  let on := tkeys d.ports fun p s => p < 144 && s.lstate ≠ 0
  let d := eachOf on d fun d p => ((d.emit (.lanesOff p)).leaveService p 0 0 0).modPort p fun s => { s.idle with hold := 0 }
  d.takeConfig {}

/-- CONTROL_DIE_RESET (R381): the boot ROM runs again; a trial ends in a fallback (R410 cause 2), and the journal is applied (R407).
Detection of lost bundles goes on in hardware (R406). -/
def controlDieResetD (fz : Fuses) (d : Dev) : Dev :=
  if !d.ident.sampled then d
  else
    let d := d.controlState.measureConfig
    let d := if (cfgInForce d.flash.config).isNone then d.defaultConfig else d
    let d := { d with host := { d.host with handover := false, spdm := {}, begun := [] },
                      fw := { d.fw with handoverTo := 0, record := none } }
    let d := if d.fw.fwState = 1 then (d.fallBack fz 2).rebuild else (d.runBoot fz).restartSteps
    let d := eachOf ((upTo 6).filter fun k => (d.detour k).started) d Dev.checkBundle
    d.configRecords.applyJournal

/-- The image that comes in at a handover: the staged one, the boot bank's, or the running one read again from its bank (R408, R418). -/
def Dev.incoming (d : Dev) : Option Image :=
  match d.fw.handoverTo with
  | 1 => d.fw.staging
  | 2 => tfind d.flash.banks d.flash.inForce.bootBank
  | _ => d.runningImage

/-- Whether the incoming image can read the record there: its CRC, as `crcOk` says, and its format (R408 step 5). -/
def Dev.readsRecord (d : Dev) (crcOk : Bool) : Bool :=
  let reads (r : StrRecord) : Bool := match d.incoming with | some i => i.strMin ≤ r.format && r.format ≤ i.strMax | none => true
  crcOk && (d.fw.record.map reads).getD false

/-- HANDOVER_COMPLETE (R408 steps 4 and 5). An image whose body does not match its digest is not run: the handover has failed, and the control die
resets (R386). -/
def handoverCompleteD (recordOk : Bool) (fz : Fuses) (d : Dev) : Dev :=
  if !d.host.handover then d
  else if d.fw.handoverTo ≠ 2 && !((d.incoming.map Image.bodyOk).getD true) then controlDieResetD fz d
  else
    let read := d.readsRecord recordOk
    let target := d.fw.handoverTo
    let d := { d with host := { d.host with handover := false, fwReady := true, recovery := false, begun := [] },
                      fw := { d.fw with handoverTo := 0, lastHandover := d.now - d.fw.handoverStart } }
    let d :=
      if target = 2 then d.fallBack fz d.fw.handoverCause
      else
        let d := { d with flash := { d.flash with handovers := satAdd 32 d.flash.handovers 1 } }
        let d :=
          if target = 1 then
            match d.fw.staging with
            | some i =>
              { d with fw := { d.fw with fwState := 1, stageState := 3, fromStaging := true, trialStart := d.now, served := [], version := BitVec.ofNat 32 i.version },
                       sec := { d.sec with meas2 := i.digest } }
            | none => d
          else
            let back (x : Drill) : Drill := if x.kind = 4 && x.state = 2 then { x with state := 1 } else x
            { d with test := { d.test with drills := tmap d.test.drills fun _ x => back x } }
        d.fault (fwRec d 0x02 d.fw.version.toNat)
    let d := { d with fw := { d.fw with record := none } }
    let d := if read then d else d.rebuild
    d.applyJournal

/-- Meaning of HANDOVER_COMPLETE. -/
def execHandoverComplete (recordOk : Bool) (s : State) : Host.Outcome State Fault Refusal :=
  .next (s.onDevF fun fz d => handoverCompleteD recordOk fz d)
/-- Meaning of POWER_LOSS. -/
def execPowerLoss (torn : Bool) (s : State) : Host.Outcome State Fault Refusal := .next (s.onDev (powerLossD torn))
/-- Meaning of POWER_ON_RESET. -/
def execPowerOnReset (s : State) : Host.Outcome State Fault Refusal := .next (s.onDev powerOnResetD)
/-- Meaning of STRAP_SAMPLE. -/
def execStrapSample (pins : StrapPins) (s : State) : Host.Outcome State Fault Refusal :=
  .next (s.onDevF fun fz d => strapSampleD pins fz d)
/-- Meaning of MAIN_POWER_GOOD. -/
def execMainPowerGood (s : State) : Host.Outcome State Fault Refusal := .next (s.onDev mainPowerGoodD)
/-- Meaning of DIE_RESET_RELEASE. -/
def execDieResetRelease (s : State) : Host.Outcome State Fault Refusal := .next (s.onDev dieResetReleaseD)
/-- Meaning of CONTROL_DIE_RESET. -/
def execControlDieReset (s : State) : Host.Outcome State Fault Refusal := .next (s.onDevF fun fz d => controlDieResetD fz d)

end Sys2Proof.Machine
end

