-- ==== Sys2Proof/Machine/TestCmds.lean ====
section
/-!
DEFINITION. Perturbations (R419–R424), drills (R378–R380, R427), bit-error tests (R293, R425), and endpoint activity (R41).
-/
namespace Sys2Proof.Machine

open Sys2Proof

/-! ### Perturbations (R419–R423) -/

/-- A perturbation object with the fields a SET leaves. -/
def perturbOf (x : Perturb) (r : SetReq) : Perturb :=
  { x with kind := r.now 0 7 0, target := BitVec.ofNat 32 (r.now 4 31 0), classMask := BitVec.ofNat 4 (r.now 8 11 8),
           vcMask := BitVec.ofNat 8 (r.now 8 7 0), paramA := BitVec.ofNat 32 (r.now 12 31 0), paramB := BitVec.ofNat 32 (r.now 16 31 0),
           duration := BitVec.ofNat 32 (r.now 20 31 0) }

/-- Lines of a region (R33). -/
def Region.lines (x : Region) : Nat := x.length.toNat * 2 ^ 23

/-- The line a POISON_LINE names within its region. -/
def Perturb.line (x : Perturb) : Nat := x.paramB.toNat * 2 ^ 32 + x.paramA.toNat

/-- Whether a TARGET suits a KIND (R420). -/
def Dev.suitsKind (d : Dev) (x : Perturb) : Bool :=
  let cls := x.target.toNat / 2 ^ 24
  let i := x.target.toNat % 2 ^ 24
  match x.kind with
  | 1 | 2 | 3 | 5 | 7 => cls = 0x02 && i ≤ 176
  | 4 | 9 | 10 => cls = 0x02 && i < 144
  | 6 | 12 => cls = 0x07 && i ≤ 65535 && (d.region i).valid
  | 8 => cls = 0x03 && i / 16 < 144 && i % 16 < 8
  | 11 => cls = 0x12 && 1 ≤ i && i ≤ 192 && (d.pipe i).state ≠ 0
  | _ => false

/-- Whether PARAM_A and PARAM_B are in the ranges of a KIND (R420). -/
def Dev.paramsOk (d : Dev) (x : Perturb) : Bool :=
  let a := x.paramA.toNat
  let b := x.paramB.toNat
  match x.kind with
  | 1 | 2 => 1 ≤ a && a ≤ 100000
  | 3 | 4 => 10 ≤ a && a ≤ 500000 && 2 * a ≤ b && b ≤ 10000000
  | 5 | 6 => 1 ≤ a && a ≤ 65536
  | 7 => 1 ≤ a && a ≤ 65536 && b ≤ 1
  | 8 => 1 ≤ b && b ≤ 5 && 16 * b ≤ a && a ≤ 4000000000 && (b ≠ 5 || 1000000 ≤ a)
  | 9 => a ≤ 1
  | 10 => a ≤ 2
  | 11 => 1 ≤ a && a ≤ 63 && a + 1 ≤ b && b ≤ 64
  | 12 => x.line < (d.region (x.target.toNat % 2 ^ 24)).lines
  | _ => false

/-- Whether CLASS_MASK and VC_MASK suit a KIND (R420). -/
def Perturb.masksOk (x : Perturb) : Bool :=
  let classes := [1, 2, 3, 5, 7].contains x.kind
  decide (x.classMask ≠ 0) = classes && decide (x.vcMask ≠ 0) = decide (x.kind = 4) && (x.kind ≠ 5 || x.classMask &&& 9#4 = 0)

/-- Whether the target, a region or a pipeline, belongs to a confidential slice (R354). -/
def Dev.confTarget (d : Dev) (x : Perturb) : Bool :=
  let cls := x.target.toNat / 2 ^ 24
  let i := x.target.toNat % 2 ^ 24
  match x.kind with
  | 6 | 12 => cls = 0x07 && d.isConf (d.region i).slice.toNat
  | 11 => cls = 0x12 && d.isConf (d.pipe i).slice.toNat
  | _ => false

/-- The refusal of arming an object, in the order of R421. -/
def Dev.armFault (d : Dev) (x : Perturb) : Option (Nat × Nat) :=
  let on := d.test.perturbs.filter fun e => e.2.state = 1
  let i := x.target.toNat % 2 ^ 24
  let port := if x.kind = 8 then i / 16 else i
  let sameLanes (y : Perturb) : Bool := x.kind = 8 && y.target.toNat / 2 ^ 24 = 3 && y.target.toNat % 2 ^ 24 / 16 = port
  let s := d.port port
  let out := port < 144 && x.kind ≤ 8 && x.kind ≠ 6 && s.lstate ≠ 7
  let test := (x.kind = 9 || x.kind = 10) && (s.hold = 3 || s.hold = 5 || !s.testRuns.isEmpty)
  firstBad
    [(d.confTarget x, cCONFIDENTIAL, 4), (x.kind = 0, cFIELD_RANGE, 0), (!d.suitsKind x, cFIELD_RANGE, 4), (!x.masksOk, cFIELD_RANGE, 8),
     (!d.paramsOk x, cFIELD_RANGE, 12), (x.duration = 0 || 3600000 < x.duration.toNat, cFIELD_RANGE, 20),
     (on.any fun e => (e.2.kind = x.kind && e.2.target = x.target) || sameLanes e.2, cCONFLICT, 4), (32 ≤ on.length, cNO_RESOURCE, 0),
     (d.test.drills.any (fun e => e.2.state = 2) || d.host.handover || test || out, cOBJECT_BUSY, 0)]

/-- A port's loopback starts (R423). Near-end, its lanes start as in bring-up, on preset 2 (R433), and the stages run from phase alignment; far-end,
both directions go on with the lanes that `s` had, the port before it was taken. -/
def startLoop (far : Bool) (old s : PortSt) : PortSt :=
  if far then
    laneStates { s with loop := 7, txLanes := old.txLanes, rxLanes := old.rxLanes, txClkSrc := old.txClkSrc, rxClkSrc := old.rxClkSrc, txPwr := 0, rxPwr := 0 }
  else
    let clk := s.rxMapped.getLsbD 8
    let s := { s with loop := 2, txLanes := BitVec.ofNat 8 (laneSetOf s.rxMapped.toNat clk), txClkSrc := clk, rxClkSrc := clk, lane7Clock := clk,
                      txPwr := 0, rxPwr := 0 }
    (upTo 9).foldl (fun s l => s.modLane l fun n => n.start (presetTaps 2)) s

/-- What arming a KIND does at once (R420, R423, R424); a loopback or a pattern waits for nothing and starts nowhere while the reference is lost (R383). -/
def Dev.startPerturb (d : Dev) (k : Nat) (x : Perturb) : Dev :=
  let i := x.target.toNat % 2 ^ 24
  match x.kind with
  | 3 => d.modPerturb k fun x => { x with on := true }
  | 4 => (d.modPerturb k fun x => { x with on := true }).modPort i fun s => { s with starved := x.vcMask }
  | 7 => d.modPort i fun s => { s with checkRunning := false }
  | 8 => d.modPort (i / 16) fun s => { s with checkRunning := false }
  | 9 =>
    let old := d.port i
    let d := d.takePort i
    if (d.port i).lstate = 10 then d.modPort i (startLoop (x.paramA = 1) old) else d
  | 10 =>
    let d := d.takePort i
    if (d.port i).lstate = 10 then d.emit (.pattern i (x.paramA.toNat + 1)) else d
  | 12 =>
    let r := d.region i
    let line := r.base.toNat * 2 ^ 23 + x.line
    let d := d.modPool fun p => { p with lmeta := tset p.lmeta line { p.lineMeta line with poison := true } }
    ((d.applied k).fault (poolRec 0x04 0 line)).stopPerturb k 1
  | _ => d

/-- SET on a perturbation object (R419, R421, R422): a KIND or CONTROL that is not defined is a reserved encoding (R8). -/
def perturbSet (_id : Nat) (r : SetReq) (d : Dev) : Answer × Dev :=
  let k := r.inst
  let old := d.perturb k
  let x := perturbOf old r
  let ctl := r.put 2 1 0
  if 12 < x.kind then (.refuse 0x09 0, d)
  else if ctl = 3 then (.refuse 0x09 2, d)
  else if old.state = 1 && x ≠ old then (.refuse cOBJECT_BUSY noDetail, d)
  else
    let set := if x = old then d else d.modPerturb k fun _ => x
    if ctl = 1 && d.power.releaseStep < 3 then (.refuse 0x07 noDetail, d)
    else if ctl = 1 then
      judged (d.armFault x) d fun d =>
        done ((d.modPerturb k fun _ => { x with state := 1, applied := 0, started := d.now, ended := 0, on := false, cw := 0 }).startPerturb k x)
    else if ctl = 2 then done (set.endPerturb k 2)
    else done set

/-- PERTURBATION_EXPIRY (R422). -/
def perturbationExpiryD (i : Fin 256) (d : Dev) : Dev := d.endPerturb i 1

/-- PERTURBATION_PERIOD (R420 kinds 3 and 4). -/
def perturbationPeriodD (i : Fin 256) (d : Dev) : Dev :=
  let x := d.perturb i
  if x.state ≠ 1 || (x.kind ≠ 3 && x.kind ≠ 4) then d
  else
    let d := d.modPerturb i fun x => { x with on := !x.on }
    if x.kind = 4 then d.modPort (x.target.toNat % 2 ^ 24) fun s => { s with starved := if x.on then 0 else x.vcMask } else d

/-- The lanes that a run of R293 measures. -/
def runLanes (run : Nat) : List Nat := if run = 3 then [0, 1, 2, 3, 4, 5, 6, 8] else upTo 8

/-- LAST_BER of some lanes written. -/
def Dev.putBer (d : Dev) (p : Nat) (lanes : List Nat) (ber : Nat → BitVec 32) : Dev :=
  d.modPort p fun s => lanes.foldl (fun s l => s.modLane l fun n => { n with lastBer := ber l }) s

/-- PATTERN_BER_UPDATE (R423). -/
def patternBerUpdateD (p : ExtPort) (errs : List Nat) (bits : Nat) (d : Dev) : Dev :=
  match d.active 10 (obj 0x02 p) with
  | k :: _ => if (d.port p).lstate ≠ 10 then d else d.putBer p (runLanes ((d.perturb k).paramA.toNat + 1)) fun l => ratioFp32 (errs.getD l 0) bits
  | [] => d

/-! ### Bit-error tests (R293, R294, R425) -/

/-- BER_TEST. -/
def berTestBody (c : Cmd) (_id _role : Nat) (d : Dev) : Answer × Dev :=
  let p := c.inst.toNat
  let runs := c.u 16 1
  let s := d.port p
  let taken := !(d.active 9 (obj 0x02 p)).isEmpty || !(d.active 10 (obj 0x02 p)).isEmpty
  judged (firstBad
    [(7 < runs, 0x09, 16), (runs = 0, cFIELD_RANGE, 16), (144 ≤ p, cFIELD_RANGE, 8),
     (s.hold = 3 || s.hold = 5 || taken, cOBJECT_BUSY, noDetail)]) d fun d => (.started, d.startTest p runs false)

/-- The last run has ended: failed lanes are mapped out, a retrain clears the masks of the lanes that passed, and bring-up follows. -/
def Dev.endTest (d : Dev) (p : Nat) : Dev :=
  let s := d.port p
  let failed := s.testFailed
  let passed : BitVec 9 := if s.retrain then ~~~ (failed ||| s.testOpen) else 0
  let d := d.modPort p fun s =>
    (bitsOf 9 failed.toNat).foldl (fun s l => s.modLane l fun n => { n with state := 2, cause := 5 })
      { s with testRuns := [], testFailed := 0, testOpen := 0, retrain := false, hold := 0, lstate := 0,
               rxMapped := (s.rxMapped ||| failed) &&& ~~~ passed, txMapped := s.txMapped &&& ~~~ passed }
  let changed := (d.port p).rxMapped ≠ s.rxMapped || (d.port p).txMapped ≠ s.txMapped
  let d := if changed then d.markMapped else d
  let d := if failed = 0 then d else d.fault (linkRec d p 5 6)
  d.bringUp p

/-- BER_TEST_RUN_END: a lane above 1 × 10^−6 fails; without pattern lock the run is left open. A bit-error test pauses during a handover (R406). -/
def berTestRunEndD (p : ExtPort) (errs : List Nat) (bits : Nat) (locked : Bool) (d : Dev) : Dev :=
  match (if d.host.handover then [] else (d.port p).testRuns) with
  | [] => d
  | run :: rest =>
    let lanes := runLanes run
    let mask (l : List Nat) : BitVec 9 := BitVec.ofNat 9 ((l.map fun i => 2 ^ i).foldl (· + ·) 0)
    let bad := lanes.filter fun l => bits < errs.getD l 0 * 1000000
    let d :=
      if locked then (d.putBer p lanes fun l => ratioFp32 (errs.getD l 0) bits).modPort p fun s => { s with testFailed := s.testFailed ||| mask bad }
      else (d.putBer p lanes fun _ => 0x7FC00000#32).modPort p fun s => { s with testOpen := s.testOpen ||| mask lanes }
    match rest with
    | [] => d.endTest p
    | next :: _ => (d.modPort p fun s => { s with testRuns := rest }).emit (.pattern p next)

/-! ### Drills (R378–R380, R427) -/

/-- Drill `i`. -/
def Dev.drill (d : Dev) (i : Nat) : Drill := tget d.test.drills i {}
/-- Drill `i` changed. -/
def Dev.modDrill (d : Dev) (i : Nat) (f : Drill → Drill) : Dev := { d with test := { d.test with drills := tmod d.test.drills i {} f } }

/-- SET on a drill (R378): only while it is disarmed; a KIND that is not defined is a reserved encoding (R8). -/
def drillSet (_id : Nat) (r : SetReq) (d : Dev) : Answer × Dev :=
  let x := d.drill r.inst
  let gap := r.now 8 31 0
  judged (firstBad
    [(4 < r.now 0 7 0, 0x09, 0), (x.state ≠ 0, cOBJECT_BUSY, 1), (r.writes 8 12 && (gap < 60 || 2592000 < gap), cFIELD_RANGE, 8),
     (r.writes 8 16 && gap < 2 * r.now 12 31 0, cFIELD_RANGE, 12)]) d fun d =>
    done (d.modDrill r.inst fun x =>
      { x with kind := r.now 0 7 0, target := BitVec.ofNat 32 (r.now 4 31 0), interval := BitVec.ofNat 32 gap, jitter := BitVec.ofNat 32 (r.now 12 31 0) })

/-- Whether a drill's TARGET suits its KIND (R378). -/
def Drill.suits (x : Drill) : Bool :=
  let cls := x.target.toNat / 2 ^ 24
  let i := x.target.toNat % 2 ^ 24
  match x.kind with
  | 1 | 2 => cls = 0x02 && i < 144
  | 3 => cls = 0x10 && i < 200 && !isPassThrough i
  | 4 => x.target = obj 0x01 0
  | _ => false

/-- DRILL_ARM (R378). -/
def drillArmBody (c : Cmd) (_id _role : Nat) (d : Dev) : Answer × Dev :=
  let x := d.drill c.inst.toNat
  judged (firstBad
    [(x.kind = 3 && x.target.toNat / 2 ^ 24 = 0x10 && d.isConf (d.pos (x.target.toNat % 2 ^ 24)).slice.toNat, cCONFIDENTIAL, 4), (x.kind = 0 || !x.suits, cFIELD_RANGE, 4),
     (x.interval.toNat < 60, cFIELD_RANGE, 8)]) d fun d =>
    done (d.modDrill c.inst.toNat fun x => if x.state = 0 then { x with state := 1 } else x)

/-- DRILL_DISARM (R378). -/
def drillDisarmBody (c : Cmd) (_id _role : Nat) (d : Dev) : Answer × Dev := done (d.modDrill c.inst.toNat fun x => { x with state := 0 })

/-- Whether a due injection is skipped (R380, R427). -/
def Dev.skipsDrill (d : Dev) : Bool :=
  let recent (t : Option Nat) (ns : Nat) : Bool := match t with | some t => decide (d.now < t + ns) | none => false
  recent d.test.lastDrill 60000000000 || recent d.faults.lastNonDrill 10000000000 || d.rt.detours.any (fun x => x.state ≠ 0) ||
  d.ports.any (fun e => e.2.widthOut.isSome) || d.fw.fwState = 1 || d.host.handover || d.pool.state ≠ 1 ||
  d.test.perturbs.any fun e => e.2.state = 1

/-- A DRILL record (R355). -/
def drillRec (i kind action : Nat) : FaultRec := { mkRec 15 kind action (obj 0x31 i) with drill := true }

/-- The injection of a drill (R379). -/
def Dev.inject1 (d : Dev) (i : Nat) (x : Drill) : Dev :=
  let n := x.target.toNat % 2 ^ 24
  match x.kind with
  | 1 =>
    if (d.port n).lstate = 7 then ((d.sendDown n 3 0 0).modPort n fun s => { s with dropDrill := true }).modDrill i fun x => { x with state := 2 }
    else d
  | 2 => d.modPort n fun s => { s with corruptNext := true }
  | 3 =>
    let y := d.pos n
    if y.state = 1 || y.state = 2 || y.state = 3 then
      ((d.haltPos n fcHardware 0 0).stopPipe y.pipe pcPosition 0x0D n fcHardware).modDrill i fun x => { x with state := 2 }
    else d
  | _ => (d.modDrill i fun x => { x with state := 2 }).startHandover 3 0

/-- DRILL_DUE (R380): injected or skipped, and recorded; the records it causes within 1 s carry DRILL. -/
def drillDueD (i : Fin 64) (d : Dev) : Dev :=
  let x := d.drill i
  if x.state ≠ 1 then d
  else if d.skipsDrill then (d.modDrill i fun x => { x with skipped := satAdd 32 x.skipped 1 }).fault (drillRec i x.kind 0)
  else
    let action := match x.kind with | 1 => 6 | 2 => 5 | 3 => 7 | _ => 0
    let d := d.modDrill i fun y => { y with injected := satAdd 32 y.injected 1, last := d.now }
    let d := { d with test := { d.test with lastDrill := some d.now },
                      faults := { d.faults with drillMarks := (x.target, d.now + 1000000000) :: d.faults.drillMarks.filter fun m => d.now ≤ m.2 } }
    (d.fault (drillRec i x.kind action)).inject1 i x

/-- LINK_DROP_RESTORE (R379): back to clock detect. -/
def linkDropRestoreD (p : ExtPort) (d : Dev) : Dev :=
  if !(d.port p).dropDrill then d
  else
    let back (x : Drill) : Drill := if x.kind = 1 && x.state = 2 && x.target = obj 0x02 p then { x with state := 1 } else x
    let d := { d with test := { d.test with drills := tmap d.test.drills fun _ x => back x } }
    let d := d.modPort p fun s => { s with dropDrill := false }
    if (d.port p).lstate = 0 then d.bringUp p else d

/-- ENDPOINT_ACTIVITY_EXPIRY (R41). -/
def endpointActivityExpiryD (p : ExtPort) (d : Dev) : Dev := d.modPort p fun s => { s with recentFrame := false }

/-! ### Meanings -/

/-- A SET of family 0x0B (R331): perturbations are the installer's, drills the operator's. -/
def testSetD (fz : Fuses) (c : Cmd) (d : Dev) : Dev :=
  if c.cls = 0x31 then d.setCmd fz 0x0B01 [1] [0x30, 0x31] c noneDenied drillSet
  else d.setCmd fz 0x0B01 [2] [0x30, 0x31] c noneDenied perturbSet

/-- Meaning of PERTURBATION_SET. -/
def execPerturbationSet (c : Cmd) (s : State) : Host.Outcome State Fault Refusal := .next (s.onDevF fun fz d => testSetD fz c d)
/-- Meaning of PERTURBATION_ARM: a SET with CONTROL 1 (R421). -/
def execPerturbationArm (c : Cmd) (s : State) : Host.Outcome State Fault Refusal := .next (s.onDevF fun fz d => testSetD fz c d)
/-- Meaning of PERTURBATION_DISARM: a SET with CONTROL 2 (R422). -/
def execPerturbationDisarm (c : Cmd) (s : State) : Host.Outcome State Fault Refusal := .next (s.onDevF fun fz d => testSetD fz c d)
/-- Meaning of PERTURBATION_EXPIRY. -/
def execPerturbationExpiry (i : Fin 256) (s : State) : Host.Outcome State Fault Refusal := .next (s.onDev (perturbationExpiryD i))
/-- Meaning of PERTURBATION_PERIOD. -/
def execPerturbationPeriod (i : Fin 256) (s : State) : Host.Outcome State Fault Refusal := .next (s.onDev (perturbationPeriodD i))
/-- Meaning of PATTERN_BER_UPDATE. -/
def execPatternBerUpdate (p : ExtPort) (errs : List Nat) (bits : Nat) (s : State) : Host.Outcome State Fault Refusal :=
  .next (s.onDev (patternBerUpdateD p errs bits))
/-- Meaning of BER_TEST. -/
def execBerTest (c : Cmd) (s : State) : Host.Outcome State Fault Refusal :=
  .next (s.onDev fun d => d.runCmd { op := 0x0B20, roles := [2], cls := some 0x02, used := [(16, 17)], hi := 176 } c berTestBody)
/-- Meaning of BER_TEST_RUN_END. -/
def execBerTestRunEnd (p : ExtPort) (errs : List Nat) (bits : Nat) (locked : Bool) (s : State) : Host.Outcome State Fault Refusal :=
  .next (s.onDev (berTestRunEndD p errs bits locked))
/-- Meaning of DRILL_ARM. -/
def execDrillArm (c : Cmd) (s : State) : Host.Outcome State Fault Refusal :=
  .next (s.onDev fun d => d.runCmd { op := 0x0B30, roles := [1], cls := some 0x31, hi := 63 } c drillArmBody)
/-- Meaning of DRILL_DISARM. -/
def execDrillDisarm (c : Cmd) (s : State) : Host.Outcome State Fault Refusal :=
  .next (s.onDev fun d => d.runCmd { op := 0x0B31, roles := [1], cls := some 0x31, hi := 63 } c drillDisarmBody)
/-- Meaning of DRILL_DUE. -/
def execDrillDue (i : Fin 64) (s : State) : Host.Outcome State Fault Refusal := .next (s.onDev (drillDueD i))
/-- Meaning of LINK_DROP_RESTORE. -/
def execLinkDropRestore (p : ExtPort) (s : State) : Host.Outcome State Fault Refusal := .next (s.onDev (linkDropRestoreD p))
/-- Meaning of ENDPOINT_ACTIVITY_EXPIRY. -/
def execEndpointActivityExpiry (p : ExtPort) (s : State) : Host.Outcome State Fault Refusal := .next (s.onDev (endpointActivityExpiryD p))

end Sys2Proof.Machine
end

