-- ==== Sys2Proof/Machine/FaultCmds.lean ====
section
/-!
DEFINITION. Commands on the fault queue, the input log and the audit log (R331, R357–R359, R374, R377, R338), NOP (R307), and reserved
operation codes (R8).
-/
namespace Sys2Proof.Machine

open Sys2Proof

/-! ### Replay (R377) -/

/-- The acknowledged form of a recorded operation that a replay sends; none for one it passes over. -/
def replayOp (op : Nat) : Option Nat :=
  if op = opSTORE || op = opSTORE_POSTED then some opSTORE
  else if op = opSTORE_MASKED || op = opSTORE_MASKED_POSTED then some opSTORE_MASKED
  else if op = opREDUCE_STORE || (isAtomicOp op && !atomicFetches op) then some op
  else none

/-- The frame a record is replayed as; none for a record passed over. Reserved header bits are sent 0 (R7). -/
def replayFrame (f : FaultSt) (bs : List Byte) (crcOk : Bool) : Option Frame :=
  let g := frameOfBytes (cut bs 32 (num bs 18 2))
  if num bs 18 2 = 0 || !crcOk || g.dst ≠ f.deadNode || g.key ≠ f.oldKey || g.conf then none
  else match replayOp g.opn with
  | some op => some { g with dst := f.target, key := f.newKey, op := BitVec.ofNat 8 op, log := false, retry := false, resend := false, cm := false,
                             hops := 0, inter := 0, phase := false, dline := false, conf := false,
                             rsv := 0 }
  | none => none

/-- The relevant ring of a replay: its records, its first byte in the pool, its tail and head. -/
def Dev.replayRing (d : Dev) (mirror : Bool) : List LogRec × Nat × Nat × Nat :=
  let f := d.faults
  if mirror then (f.mirrorRing, d.pool.logBase + d.pool.logHalf, f.mirrorTail, f.mirrorHead) else (f.ring, d.pool.logBase, f.tailSeq, f.headSeq)

/-- A record's bytes, none where a line of it is poisoned, or lies on a mapped-out page, which is recorded (R261). -/
def Dev.readRecord (d : Dev) (base : Nat) (r : LogRec) : Option (List Byte) × Dev :=
  let a := base + r.at'
  let n := min r.len 2176
  if d.pool.touchesOut a n then (none, d.areaFault a)
  else if (List.range' (a / 64) (ceilDiv n 64)).any fun l => (d.pool.lineMeta l).poison then (none, d)
  else (some (memReads d.pool.mem a n), d)

/-- Whether the RCRC of a record holds, as its check-value context finds (R373, R377). -/
def Dev.scanRecord (d : Dev) (slice : BitVec 10) (bs : List Byte) : Bool × Dev :=
  let (_, _, d) := d.streamJob slice 0 0 (bs.take 28 ++ cut bs 32 (num bs 18 2))
  (decide ((d.checkCtx streamCtx).running = BitVec.ofNat 64 (num bs 28 4)), d)

/-- A replay: the records from FROM_SEQ to TO_SEQ in order, each read through a check-value context and
sent on the replay stream or passed over; `Dev.countReplayed` counts what is sent. -/
def Dev.runReplay (d : Dev) (mirror : Bool) (stream : Nat) : Dev :=
  let (ring, base, _, _) := d.replayRing mirror
  let f := d.faults
  let mine := ring.filter fun r => f.fromSeq.toNat ≤ r.seq && r.seq ≤ f.toSeq.toNat
  let skip (d : Dev) : Dev := { d with faults := { d.faults with skipped := d.faults.skipped + 1 } }
  eachOf mine d fun d r =>
    match d.readRecord base r with
    | (none, d) => skip d
    | (some bs, d) =>
      let (crcOk, d) := d.scanRecord f.newSlice bs
      match replayFrame f bs crcOk with
      | some g => d.issue stream g .replay
      | none => skip d

/-- SET on the fault queue object (R359, R374). -/
def faultSet (_id : Nat) (r : SetReq) (d : Dev) : Answer × Dev :=
  let ctl := r.put 176 1 0
  let x := { d.faults with deadNode := BitVec.ofNat 16 (r.now 180 15 0), target := BitVec.ofNat 16 (r.now 182 15 0),
                           newSlice := BitVec.ofNat 10 (r.now 184 9 0), fromSeq := BitVec.ofNat 64 (r.now 192 63 0),
                           toSeq := BitVec.ofNat 64 (r.now 200 63 0), oldKey := BitVec.ofNat 64 (r.now 208 63 0),
                           newKey := BitVec.ofNat 64 (r.now 216 63 0), logEnable := r.now 128 0 0 = 1 }
  let (_, _, tail, head) := d.replayRing (ctl = 2)
  let starts := ctl = 1 || ctl = 2
  judged (firstBad
    [(r.writes 176 177 && !starts, 0x09, 176), (starts && d.isConf x.newSlice.toNat, cCONFIDENTIAL, 184), (r.writes 176 224 && d.faults.replayState = 1, cOBJECT_BUSY, 176),
     (x.logEnable && d.pool.logPages = 0, cFIELD_RANGE, 128), (starts && x.fromSeq.toNat < tail, cFIELD_RANGE, 192),
     (starts && head ≤ x.toSeq.toNat, cFIELD_RANGE, 200)]) d fun d =>
    let set : Dev := { d with faults := x }
    if !starts then done set
    else
      let set := match set.faults.replayStream with | some n => set.closeStream n | none => set
      match (if set.node = 0xFFFF then none else set.openStream 12 .o x.newSlice.toNat 20 1 0) with
      | none => (.refuse cNO_RESOURCE 176, d)
      | some (n, e) =>
        let e := { e with faults := { e.faults with replayState := 1, replayStatus := 0, replayed := 0, skipped := 0, replayStream := some n } }
        done (e.runReplay (ctl = 2) n)

/-- REPLAY_END: every replayed operation has ended; a replay that nothing stopped is done. -/
def replayEndD (d : Dev) : Dev :=
  if d.req.ops.any fun o => decide (o.why = Purpose.replay) then d
  else
    let d := if d.faults.replayState = 1 then d.endReplay 2 0 else d
    match d.faults.replayStream with
    | some n => { d.closeStream n with faults := { d.faults with replayStream := none } }
    | none => d

/-! ### Reading records (R357, R338) -/

/-- FAULT_READ: the oldest records, which leave the queue. -/
def faultReadBody (c : Cmd) (_id _role : Nat) (d : Dev) : Answer × Dev :=
  let n := c.u 16 2
  if n = 0 || 4096 < n then (.refuse cFIELD_RANGE 16, d)
  else if refLen c ≠ 64 * n then (.refuse 0x49 52, d)
  else
    let out := d.faults.queue.take n
    let f := d.faults
    (.toRef 0 (out.flatMap FaultRec.bytes),
     { d with faults := { f with queue := f.queue.drop n, overflow := f.overflow && !out.any FaultRec.isOverflow } })

/-- EVENT_ROUTE (R358). -/
def eventRouteBody (c : Cmd) (_id _role : Nat) (d : Dev) : Answer × Dev :=
  let mask := c.u 16 8
  judged (firstBad [(2 ^ 19 ≤ mask, 0x09, 16), (2047 < c.u 24 2, cFIELD_RANGE, 24)]) d fun d =>
    done { d with faults := { d.faults with eventMask := BitVec.ofNat 64 mask, vector := BitVec.ofNat 16 (c.u 24 2),
                                            eventNode := BitVec.ofNat 16 (c.u 26 2) } }

/-- AUDIT_READ (R338): records from the first one named on, as many as the buffer holds. -/
def auditReadBody (c : Cmd) (_id _role : Nat) (d : Dev) : Answer × Dev :=
  let first := c.u 16 8
  let held := d.flash.audit ++ d.sec.unwritten
  let oldest := match held with | r :: _ => r.seq | [] => d.sec.nextSeq
  if first < oldest then (.refuse 0x03 16, d)
  else (.toRef 0 (((held.filter fun r => first ≤ r.seq).take (refLen c / 192)).flatMap auditBytes), d)

/-! ### NOP and reserved codes -/

/-- The operation codes that the spec assigns. -/
def assignedOps : List Nat :=
  [0x01, 0x02, 0x03, 0x04, 0x05, 0x06, 0x10, 0x11, 0x12, 0x14, 0x15, 0x16, 0x18, 0x20, 0x30, 0x31, 0x40, 0x48, 0x49, 0x4A, 0x50, 0x51, 0x52, 0x53,
   0x54, 0x55, 0x56, 0x57, 0x60, 0x61, 0x62, 0x63]

/-- The command opcodes that R320–R331 assign, and NOP; every family has a SET (R320). -/
def assignedCmds : List Nat :=
  [0x0000, 0x0100, 0x0101, 0x0110, 0x0111, 0x0112, 0x0120, 0x0121, 0x0130, 0x0131, 0x0200, 0x0201, 0x0210, 0x0211, 0x0212, 0x0300, 0x0301,
   0x0310, 0x0311, 0x0400, 0x0401, 0x0410, 0x0411, 0x0500, 0x0501, 0x0510, 0x0511, 0x0512, 0x0513, 0x0520, 0x0521, 0x0522] ++
  [0x0600, 0x0601, 0x0610, 0x0611, 0x0612, 0x0613, 0x0614, 0x0700, 0x0701, 0x0710, 0x0711, 0x0712, 0x0713, 0x0714, 0x0720, 0x0800, 0x0801,
   0x0810, 0x0820, 0x0900, 0x0901, 0x0910, 0x0911, 0x0A00, 0x0A01, 0x0A10, 0x0A11, 0x0A12, 0x0A20] ++
  [0x0B00, 0x0B01, 0x0B20, 0x0B30, 0x0B31, 0x0C00, 0x0C01, 0x0C10, 0x0C11, 0x0C20]

/-- SET opcodes of families whose tables list no role for them (R320, R322, R326). -/
def roleless : List Nat := [0x0101, 0x0501]

/-- A command packet whose OPCODE no family assigns: UNSUPPORTED, once its envelope and role hold (R8, R308; DESIGN CHOICE, log 222). A SET that
no role may issue is refused with ROLE_DENIED. A packet of any other opcode is not this command's. -/
def reservedPacketD (op : BitVec 16) (c : Cmd) (d : Dev) : Dev :=
  let n := op.toNat
  if roleless.contains n then d.runCmd { op := n, roles := [] } c fun _ _ _ d => done d
  else if assignedCmds.contains n then d
  else d.runCmd { op := n, roles := [1, 2, 3], known := false } c fun _ _ _ d => done d

/-- Whether the function that a frame's offset addresses is disabled for its slice, or its memory is not there (R368, R266). -/
def Dev.functionOff (d : Dev) (f : Frame) : Bool :=
  let off := f.offset.toNat
  let sl := f.slice.toNat
  if inPool off then d.pool.state = 0 || d.disabled sl 3
  else if inEntry off then d.disabled sl 1
  else inRelay off && d.disabled sl 0

/-- RESERVED_OPCODE (R8): refused with UNSUPPORTED at its target, which FUNCTION_DISABLED comes before (R11); in the relay range discarded and
counted. -/
def reservedOpcodeD (p : Port) (f0 : Frame) (d : Dev) : Dev :=
  if p.val < 144 || assignedOps.contains f0.opn then d
  else match d.takeIn p f0 with
  | (none, d) => d
  | (some f, d) => if isRelay f.opn then d.countDiscard p discReserved else d.reply p f (if d.functionOff f then 0x07 else 0x09) 0 none

/-- The SET of a family 0x0C object (R331): the audit log has no field to write. -/
def faultSetD (fz : Fuses) (c : Cmd) (d : Dev) : Dev :=
  d.setCmd fz 0x0C01 [1] [0x38, 0x39] c noneDenied (if c.cls = 0x38 then faultSet else noFields)

/-- Meaning of FAULT_SET. -/
def execFaultSet (c : Cmd) (s : State) : Host.Outcome State Fault Refusal := .next (s.onDevF fun fz d => faultSetD fz c d)
/-- Meaning of REPLAY_OWN_RING: a SET with REPLAY_CTL 1. -/
def execReplayOwnRing (c : Cmd) (s : State) : Host.Outcome State Fault Refusal := .next (s.onDevF fun fz d => faultSetD fz c d)
/-- Meaning of REPLAY_MIRROR: a SET with REPLAY_CTL 2. -/
def execReplayMirror (c : Cmd) (s : State) : Host.Outcome State Fault Refusal := .next (s.onDevF fun fz d => faultSetD fz c d)
/-- Meaning of REPLAY_END. -/
def execReplayEnd (s : State) : Host.Outcome State Fault Refusal := .next (s.onDev replayEndD)
/-- Meaning of FAULT_READ. -/
def execFaultRead (c : Cmd) (s : State) : Host.Outcome State Fault Refusal :=
  .next (s.onDev fun d => d.runCmd { op := 0x0C10, roles := [1], cls := some 0x38, used := [(16, 18)], ref := 1, out := true } c faultReadBody)
/-- Meaning of EVENT_ROUTE. -/
def execEventRoute (c : Cmd) (s : State) : Host.Outcome State Fault Refusal :=
  .next (s.onDev fun d => d.runCmd { op := 0x0C11, roles := [1], cls := some 0x38, used := [(16, 28)] } c eventRouteBody)
/-- Meaning of AUDIT_READ. -/
def execAuditRead (c : Cmd) (s : State) : Host.Outcome State Fault Refusal :=
  .next (s.onDev fun d => d.runCmd { op := 0x0C20, roles := [1, 2], cls := some 0x39, used := [(16, 24)], ref := 1, out := true } c auditReadBody)
/-- Meaning of NOP (R307). -/
def execNop (c : Cmd) (s : State) : Host.Outcome State Fault Refusal :=
  .next (s.onDev fun d => d.runCmd { op := 0x0000, roles := [1, 2, 3], get := true } c fun _ _ _ d => done d)
/-- Meaning of RESERVED_OPCODE: of a frame, or of a command packet. -/
def execReservedOpcode (p : Port) (f : Frame) (s : State) (packet : Option (BitVec 16 × Cmd) := none) : Host.Outcome State Fault Refusal :=
  .next (s.onDev fun d => match packet with | none => reservedOpcodeD p f d | some x => reservedPacketD x.1 x.2 d)

end Sys2Proof.Machine
end

