-- ==== Sys2Proof/Machine/Security.lean ====
section
/-!
DEFINITION. Measurements and quotes (R339, R340, R342), key release and key slots (R345–R350), credentials (R334–R336), maker tokens
(R354), seals and flash of the audit log (R337, R338).
-/
namespace Sys2Proof.Machine

open Sys2Proof

/-! ### Measurements and the alias key (R339, R340) -/

/-- The lifecycle word that measurement 5 covers. -/
def lifecycleWord (fz : Fuses) (d : Dev) : List Byte := le 8 (b2n d.sec.debugUnlocked + 2 * b2n (fz.fieldReturned || d.sec.returned))

/-- Measurement `i` of 1 to 5. -/
def Dev.measurement (fz : Fuses) (d : Dev) (i : Nat) : BitVec 384 :=
  match i with
  | 1 => Config.bootRomDigest | 2 => d.sec.meas2 | 3 => d.sec.meas3 | 4 => d.sec.meas4 | _ => Config.sha384 (lifecycleWord fz d)

/-- Measurements 1 to 5 as they stand in quotes and responses. -/
def Dev.measBytes (fz : Fuses) (d : Dev) : List Byte := [1, 2, 3, 4, 5].flatMap fun i => le 48 (d.measurement fz i).toNat

/-- A signature by the alias key over a digest: r, s. -/
def Dev.aliasSig (d : Dev) (digest : BitVec 384) : (BitVec 384 × BitVec 384) × Dev :=
  let v := Config.aliasSign Config.bootRomDigest d.sec.meas2 digest d.sec.signs
  ((v.extractLsb' 384 384, v.extractLsb' 0 384), { d with sec := { d.sec with signs := d.sec.signs + 1 } })

/-- A signature's 96 bytes. -/
def sigBytes (v : BitVec 384 × BitVec 384) : List Byte := be 48 v.1.toNat ++ be 48 v.2.toNat

/-- A message signed by the alias key, with the certificates after it (R342, R345). -/
def Dev.signedWithChain (d : Dev) (msg : List Byte) : List Byte × Dev :=
  let chain := Config.certChain Config.bootRomDigest d.sec.meas2
  let (v, d) := d.aliasSig (Config.sha384 msg)
  (msg ++ sigBytes v ++ le 4 chain.length ++ chain, d)

/-- ATTEST (R342). -/
def attestBody (fz : Fuses) (c : Cmd) (_id _role : Nat) (d : Dev) : Answer × Dev :=
  if refLen c < 8192 then (.refuse 0x49 52, d)
  else
    let (q, d) := d.signedWithChain (le 48 c.params.toNat ++ le 8 Config.serial.toNat ++ le 8 d.now ++ d.measBytes fz)
    (.toRef 0 q, d)

/-! ### Key release (R345–R349) -/

/-- The open of a slice. -/
def Dev.openOf (d : Dev) (sl : Nat) : Option KeyOpen := d.prot.opens.find? fun o => o.slice.toNat = sl

/-- The open of a slice destroyed. -/
def Dev.dropOpen (d : Dev) (sl : Nat) : Dev := { d with prot := { d.prot with opens := d.prot.opens.filter fun o => o.slice.toNat ≠ sl } }

/-- Whether a slice is confidential and active. -/
def Dev.confAndActive (d : Dev) (sl : Nat) : Bool := (d.slice sl).conf && (d.slice sl).state = 1

/-- KEY_RELEASE_OPEN. -/
def keyReleaseOpenBody (fz : Fuses) (c : Cmd) (_id _role : Nat) (d : Dev) : Answer × Dev :=
  let sl := c.u 16 2
  judged (firstBad [(!d.confAndActive sl || d.sec.debugUnlocked, cCONFIDENTIAL, 16), (decide (refLen c < 8192), 0x49, 52)]) d fun d =>
    let n := d.prot.nextOpen
    let rid := d.prot.releaseId + 1
    let o : KeyOpen := { slice := BitVec.ofNat 10 sl, releaseId := rid, number := n }
    let d := d.dropOpen sl
    let d := { d with prot := { d.prot with opens := d.prot.opens ++ [o], nextOpen := n + 1, releaseId := rid } }
    let (r, d) := d.signedWithChain
      (le 2 sl ++ zeros 2 ++ le 4 rid.toNat ++ le 8 Config.serial.toNat ++ be 96 (Config.ecdhPublic n).toNat ++ d.measBytes fz ++
       le 48 (d.slice sl).measure.toNat)
    (.toRef 0 r, d)

/-- KEY_RELEASE_OPEN_EXPIRY. -/
def keyReleaseOpenExpiryD (slice : BitVec 10) (d : Dev) : Dev := d.dropOpen slice.toNat

/-- Wrap key of a release message (R347): the open's number, its RELEASE_ID, OWNER_PUB. -/
def wrapKey (o : KeyOpen) (ownerPub : BitVec 768) : List Byte :=
  Config.hkdf (le 4 o.releaseId.toNat ++ le 8 Config.serial.toNat) (be 48 (Config.ecdhShared o.number ownerPub).toNat)
    (ascii "IZH release" ++ be 96 (Config.ecdhPublic o.number).toNat ++ be 96 ownerPub.toNat) 32

/-- The payload of a release message under an open, when its tag verifies (R346, R347). -/
def openMessage (o : KeyOpen) (m : List Byte) : Option (List Byte) :=
  let n := num m 124 4
  Config.gcmDecrypt (wrapKey o (BitVec.ofNat 768 (unbe (cut m 16 96)))) (cut m 112 12) (m.take 128) (cut m 128 n)
    (BitVec.ofNat 128 (num m (128 + n) 16))

/-- The numbers of a payload: NODE_COUNT, LAST_COUNT. -/
def payloadCounts (p : List Byte) : Nat × Nat := (num p 32 2, num p 34 2)

/-- The nodes a payload lists. -/
def payloadNodes (p : List Byte) : List (BitVec 16) :=
  let (n, l) := payloadCounts p
  (upTo n).map fun i => BitVec.ofNat 16 (num p (48 + 48 * l + 2 * i) 2)

/-- The last digests a payload lists. -/
def payloadLasts (p : List Byte) : List (BitVec 384) := (upTo (payloadCounts p).2).map fun i => BitVec.ofNat 384 (num p (48 + 48 * i) 48)

/-- The first check of R348 that a payload fails, as the DETAIL. -/
def payloadFault (ctLen : Nat) (p : List Byte) : Option Nat :=
  let (n, l) := payloadCounts p
  let bad := (upTo n).find? fun i => num p (48 + 48 * l + 2 * i) 2 = 0xFFFF
  if ctLen ≠ 48 + 48 * l + 2 * n then some 124
  else if n = 0 || 8192 < n then some (128 + 32)
  else if 64 < l then some (128 + 34)
  else if !allZero (cut p 36 12) then some (128 + 36)
  else bad.map fun i => 128 + 48 + 48 * l + 2 * i

/-- The lowest key slot not in force. -/
def Dev.freeKeySlot (d : Dev) : Option Nat := (upTo 64).find? fun i => (tget d.prot.keySlots i {}).state ≠ 1

/-- The lowest place of a replay floor table that no other slice's release record has (R253, R352). -/
def Dev.freePlace (d : Dev) (sl : BitVec 10) : Option Nat :=
  (upTo 64).find? fun i => !(d.prot.releases.any fun r => r.slice ≠ sl && r.place = i)

/-- What a wrapped key unwraps to (R350): the key that this module wrapped so since power-up; of any other value only what wraps to it again. -/
def Dev.unwrap (d : Dev) (w : BitVec 320) : Option (BitVec 256) :=
  match d.prot.wraps.find? fun x => x.1 = w with
  | some x => some x.2
  | none => (Config.keyUnwrap d.prot.powerUps w).filter fun k => Config.keyWrap d.prot.powerUps k = w

/-- A slot filled for a slice with a fresh release record, every counter 0 (R348) and every entry of its replay floor table 0 (R352). -/
def Dev.fillSlot (d : Dev) (i place : Nat) (o : KeyOpen) (p : List Byte) : Dev :=
  let d := d.clearFloors place
  let root := BitVec.ofNat 256 (num p 0 32)
  let k : KeySlot := { slice := o.slice, state := 1, releaseId := o.releaseId, rootKey := root, wrapped := Config.keyWrap d.prot.powerUps root }
  let r : Release := { slice := o.slice, releaseId := o.releaseId, nodes := payloadNodes p, lasts := payloadLasts p, place := place }
  { d with prot := { d.prot with keySlots := tset d.prot.keySlots i k, wraps := (k.wrapped, root) :: d.prot.wraps,
                                 releases := (d.prot.releases.filter fun (x : Release) => x.slice ≠ o.slice) ++ [r] } }

/-- KEY_RELEASE_ACCEPT, the open being destroyed whatever the outcome. -/
def keyReleaseAcceptBody (c : Cmd) (_id _role : Nat) (d : Dev) : Answer × Dev :=
  let sl := c.u 16 2
  let m := refBytes c
  let no (det : Nat) : Answer × Dev := (.denied cCONFIDENTIAL det, d.dropOpen sl)
  let n := num m 124 4
  if !d.confAndActive sl || (d.slotOf sl).isSome || d.sec.debugUnlocked then no noDetail
  else if !reached c then done d
  else match d.openOf sl with
  | none => no 4
  | some o =>
    if num m 0 4 ≠ sl then no 0
    else if num m 4 4 ≠ o.releaseId.toNat then no 4
    else if num m 8 8 ≠ Config.serial.toNat then no 8
    else if refLen c ≠ 128 + n + 16 || n < 48 then no 124
    else match openMessage o m with
    | none => no (128 + n)
    | some p =>
      match payloadFault n p, d.freeKeySlot, d.freePlace o.slice with
      | some det, _, _ => no det
      | none, some i, some k => done ((d.dropOpen sl).fillSlot i k o p)
      | none, _, _ => no noDetail

/-! ### Key slots (R350) -/

/-- KEY_INSTALL: the slot's 64 bytes as read back; the release record must still stand. -/
def keyInstallBody (c : Cmd) (_id _role : Nat) (d : Dev) : Answer × Dev :=
  let i := c.inst.toNat
  let sl := c.u 16 2
  let b := refBytes c
  let w := BitVec.ofNat 320 (unbe (cut b 16 40))
  let held := match d.releaseOf sl with | some r => decide (r.releaseId.toNat = num b 4 4) | none => false
  let root := d.unwrap w
  judged (firstBad
    [(!d.confAndActive sl || (reached c && (num b 0 2 ≠ sl || !held || root.isNone)), cCONFIDENTIAL, noDetail),
     ((tget d.prot.keySlots i {}).state = 1 || (d.slotOf sl).isSome, cCONFLICT, 8), (decide (refLen c ≠ 64), 0x49, 52)]) d fun d =>
    match root with
    | some key =>
      let k : KeySlot := { slice := BitVec.ofNat 10 sl, state := 1, releaseId := BitVec.ofNat 32 (num b 4 4), rootKey := key, wrapped := w }
      done { d with prot := { d.prot with keySlots := tset d.prot.keySlots i k } }
    | none => (.refuse cCONFIDENTIAL noDetail, d)

/-- KEY_REVOKE: the slot is empty; the release record and its counters remain. -/
def keyRevokeBody (c : Cmd) (_id _role : Nat) (d : Dev) : Answer × Dev :=
  done { d with prot := { d.prot with keySlots := tdel d.prot.keySlots c.inst.toNat } }

/-! ### Credentials (R334–R336) -/

/-- Whether a command is the unsigned CRED_PROVISION that bootstrap takes as an installer's (R335). -/
def Dev.isBootstrapProvision (d : Dev) (c : Cmd) : Bool :=
  d.sec.bootstrap && c.env.isNone && (match c.via with | .ring _ => true | .fabric _ _ => false) && num (refBytes c) 0 1 = 2

/-- The public key of a command's credential. -/
def Dev.signerPub (d : Dev) (c : Cmd) : Option (BitVec 768) :=
  c.env.map fun e => if e.cred = makerCred then Config.makerPub else (d.cred e.cred.toNat).pub

/-- CRED_PROVISION (R334). -/
def credProvisionBody (c : Cmd) (_id _role : Nat) (d : Dev) : Answer × Dev :=
  let i := c.inst.toNat
  let b := refBytes c
  let role := num b 0 1
  let stray := (List.range' 1 63).find? fun k => num b k 1 ≠ 0
  let signed := match d.signerPub c with
    | some pub => Config.ecdsaVerify pub (Config.sha384 (b.take 160)) (BitVec.ofNat 384 (unbe (cut b 160 48))) (BitVec.ofNat 384 (unbe (cut b 208 48)))
    | none => true
  judged (firstBad
    [(reached c && role ≠ 1 && role ≠ 2, 0x09, 0), (reached c && stray.isSome, 0x09, stray.getD 0), (decide (refLen c ≠ 256), 0x49, 52), (reached c && !signed, 0x45, 160),
     ((d.cred i).state = 1, cCONFLICT, 1)]) d fun d =>
    let x : Cred := { role := role, state := 1, pub := BitVec.ofNat 768 (unbe (cut b 64 96)) }
    done { d with sec := { d.sec with creds := tset d.sec.creds i x, bootstrap := d.sec.bootstrap && role ≠ 2 },
                  flash := { d.flash with bootOver := d.flash.bootOver || role = 2 } }

/-- CRED_PROVISION with the authority bootstrap gives it. -/
def credProvisionD (c : Cmd) (d : Dev) : Dev :=
  d.runCmd { op := 0x0120, roles := [2], cls := some 0x3A, hi := 31, ref := 1 } c credProvisionBody
    (if d.isBootstrapProvision c then some 2 else none)

/-- CRED_REVOKE (R334). -/
def credRevokeBody (c : Cmd) (_id _role : Nat) (d : Dev) : Answer × Dev :=
  done { d with sec := { d.sec with creds := tmod d.sec.creds c.inst.toNat {} fun x => { x with state := 2 } } }

/-! ### Maker tokens (R354) -/

/-- The first field of a maker token that fails, as its byte. -/
def tokenFault (c : Cmd) (action : Nat) : Option Nat :=
  let b := refBytes c
  let counter := match c.env with | some e => e.counter.toNat | none => 0
  if num b 0 8 ≠ Config.serial.toNat then some 0
  else if num b 8 1 ≠ action then some 8
  else if !allZero (cut b 9 7) then some 9
  else if num b 16 8 ≠ counter then some 16
  else if !allZero (cut b 24 40) then some 24
  else if !Config.ecdsaVerify Config.makerPub (Config.sha384 (b.take 64)) (BitVec.ofNat 384 (unbe (cut b 64 48)))
      (BitVec.ofNat 384 (unbe (cut b 112 48))) then some 64
  else none

/-- A command that a maker token allows. -/
def tokenBody (c : Cmd) (action : Nat) (effect : Dev → Dev) (_id _role : Nat) (d : Dev) : Answer × Dev :=
  let bad := tokenFault c action
  judged (firstBad
    [(d.confActive, cCONFIDENTIAL, noDetail), (decide (refLen c ≠ 160), 0x49, 52), (bad.isSome, 0x45, bad.getD 0)]) d fun d => done (effect d)

/-- What DEBUG_UNLOCK does. -/
def Dev.debugUnlock (d : Dev) : Dev := { d with sec := { d.sec with debugUnlocked := true } }

/-- What FIELD_RETURN does, but for the fuse (R354): every credential empty, every counter floor at 0, the maker's too (R413), bootstrap again; the
audit log stays. -/
def Dev.fieldReturn (d : Dev) : Dev :=
  ({ d with sec := { d.sec with creds := [], makerLast := 0, makerFloor := 0, makerNext := 0, bootstrap := true, returned := true },
            flash := { d.flash with bootOver := false } }).requestCommit 0 []

/-- DEBUG_UNLOCK. -/
def debugUnlockD (c : Cmd) (d : Dev) : Dev :=
  d.runCmd { op := 0x0130, roles := [3], cls := some 0x01, ref := 1 } c fun c => tokenBody c 1 Dev.debugUnlock

/-- FIELD_RETURN. -/
def fieldReturnD (c : Cmd) (d : Dev) : Dev :=
  d.runCmd { op := 0x0131, roles := [3], cls := some 0x01, ref := 1 } c fun c => tokenBody c 2 Dev.fieldReturn

/-- A field return is burnt in for good (R340, R403). -/
def State.burnReturn (s : State) : State := { s with fuses := { s.fuses with fieldReturned := s.fuses.fieldReturned || s.dev.sec.returned } }

/-! ### Audit log (R337, R338) -/

/-- Whether a seal record is due (R337): after 256 unsealed records, or 60 s after the first of them. -/
def Dev.sealDue (d : Dev) : Bool := 256 ≤ d.sec.unsealed || (d.sec.unsealed ≠ 0 && d.sec.unsealedAt + 60000000000 ≤ d.now)

/-- AUDIT_SEAL: the alias key's signature over the last record's CHAIN. -/
def auditSealD (d : Dev) : Dev :=
  if !d.sealDue then d
  else
    let (v, d) := d.aliasSig d.sec.head
    let word (x : BitVec 384) : BitVec 384 := BitVec.ofNat 384 (unbe (le 48 x.toNat))
    d.audit { seq := 0, time := 0, kind := 1, role := 0, fabric := false, signed := false, status := 0, opcode := 0, source := 0, object := 0,
              cred := makerCred, counter := 0, a := word v.1, b := word v.2, chain := 0 }

/-- Sectors of the audit-log area that a record's 192 bytes are the first to reach (R401, R338): each is erased then. -/
def auditSectors (n : Nat) : List Nat :=
  (List.range' (192 * n) 192).filterMap fun a => if a % 65536 = 0 then some (0x1200 + a / 65536 % 192) else none

/-- AUDIT_FLASH_WRITE: the area holds the last 65,536 records; a sector is erased as the first record comes to it (DESIGN CHOICE, log 219). -/
def auditFlashWriteD (d : Dev) : Dev :=
  let all := d.flash.audit ++ d.sec.unwritten
  let past := all.length - 65536
  let first := d.flash.overwritten + d.flash.audit.length
  let d := eachOf ((List.range' first d.sec.unwritten.length).flatMap auditSectors) d fun d k => d.eraseSectors k 1
  { d with flash := { d.flash with audit := all.drop past, overwritten := d.flash.overwritten + past }, sec := { d.sec with unwritten := [] } }

/-! ### Meanings -/

/-- Meaning of ATTEST. -/
def execAttest (c : Cmd) (s : State) : Host.Outcome State Fault Refusal :=
  .next (s.onDevF fun fz d => d.runCmd { op := 0x0110, roles := [1], cls := some 0x01, used := [(16, 64)], ref := 1, out := true } c (attestBody fz))
/-- Meaning of KEY_RELEASE_OPEN. -/
def execKeyReleaseOpen (c : Cmd) (s : State) : Host.Outcome State Fault Refusal :=
  .next (s.onDevF fun fz d => d.runCmd { op := 0x0111, roles := [1], cls := some 0x09, used := [(16, 18)], hi := 1023, ref := 1, out := true } c (keyReleaseOpenBody fz))
/-- Meaning of KEY_RELEASE_OPEN_EXPIRY. -/
def execKeyReleaseOpenExpiry (slice : BitVec 10) (s : State) : Host.Outcome State Fault Refusal := .next (s.onDev (keyReleaseOpenExpiryD slice))
/-- Meaning of KEY_RELEASE_ACCEPT. -/
def execKeyReleaseAccept (c : Cmd) (s : State) : Host.Outcome State Fault Refusal :=
  .next (s.onDev fun d => d.runCmd { op := 0x0112, roles := [1], cls := some 0x09, used := [(16, 18)], hi := 1023, ref := 1 } c keyReleaseAcceptBody)
/-- Meaning of KEY_INSTALL. -/
def execKeyInstall (c : Cmd) (s : State) : Host.Outcome State Fault Refusal :=
  .next (s.onDev fun d => d.runCmd { op := 0x0410, roles := [1], cls := some 0x08, used := [(16, 18)], hi := 63, ref := 1 } c keyInstallBody)
/-- Meaning of KEY_REVOKE. -/
def execKeyRevoke (c : Cmd) (s : State) : Host.Outcome State Fault Refusal :=
  .next (s.onDev fun d => d.runCmd { op := 0x0411, roles := [1], cls := some 0x08, hi := 63 } c keyRevokeBody)
/-- Meaning of CRED_PROVISION. -/
def execCredProvision (c : Cmd) (s : State) : Host.Outcome State Fault Refusal := .next (s.onDev (credProvisionD c))
/-- Meaning of CRED_REVOKE. -/
def execCredRevoke (c : Cmd) (s : State) : Host.Outcome State Fault Refusal :=
  .next (s.onDev fun d => d.runCmd { op := 0x0121, roles := [2], cls := some 0x3A, hi := 31 } c credRevokeBody)
/-- Meaning of DEBUG_UNLOCK. -/
def execDebugUnlock (c : Cmd) (s : State) : Host.Outcome State Fault Refusal := .next (s.onDev (debugUnlockD c))
/-- Meaning of FIELD_RETURN. -/
def execFieldReturn (c : Cmd) (s : State) : Host.Outcome State Fault Refusal := .next (s.onDev (fieldReturnD c)).burnReturn
/-- Meaning of AUDIT_SEAL. -/
def execAuditSeal (s : State) : Host.Outcome State Fault Refusal := .next (s.onDev auditSealD)
/-- Meaning of AUDIT_FLASH_WRITE. -/
def execAuditFlashWrite (s : State) : Host.Outcome State Fault Refusal := .next (s.onDev auditFlashWriteD)

end Sys2Proof.Machine
end

