-- ==== Sys2Proof/Machine/Spdm.lean ====
section
/-!
DEFINITION. The DOE mailbox (R299): DOE Discovery and the SPDM 1.3 subset of R341. The spec names the requests and what is
supported; the layout of the messages is that of the standard it names (log 68, PRESUMED).
-/
namespace Sys2Proof.Machine

open Sys2Proof

/-! ### Messages -/

/-- A request as it stands on the mailbox. -/
def spdmBytes (code : Nat) (r : SpdmReq) : List Byte :=
  le 1 r.version.toNat ++ le 1 code ++ le 1 r.param1.toNat ++ le 1 r.param2.toNat ++ r.body

/-- The head of a response. -/
def spdmHead (version code p1 p2 : Nat) : List Byte := le 1 version ++ le 1 code ++ le 1 p1 ++ le 1 p2

/-- The mailbox answers with an SPDM message. -/
def Dev.spdmSend (d : Dev) (m : List Byte) : Dev := d.emit (.doe 1 m)

/-- The responder's record of an exchange changed. -/
def Dev.modSpdm (d : Dev) (f : SpdmSt → SpdmSt) : Dev := { d with host := { d.host with spdm := f d.host.spdm } }

/-- An ERROR response: its code and data. -/
def Dev.spdmError (d : Dev) (code data : Nat) : Dev := d.spdmSend (spdmHead 0x13 0x7F code data)

/-- Whether the firmware that holds the responder runs (R300, R411). -/
def Dev.spdmUp (d : Dev) : Bool := d.host.fwReady && !d.host.handover

/-- The frame all requests share: the responder runs, the version is 1.3, and the requests of the start came first; `good` says
whether the request's own fields are in range. -/
def Dev.spdmTake (d : Dev) (r : SpdmReq) (version stage : Nat) (good : Bool) (go : Dev → Dev) : Dev :=
  if !d.spdmUp then d
  else if r.version.toNat ≠ version then d.spdmError 0x41 0
  else if d.host.spdm.stage < stage then d.spdmError 0x04 0
  else if !good then d.spdmError 0x01 0
  else go d

/-- The digest a signature of the responder covers: the standard's context string, then the digest of the messages. -/
def spdmDigest (context : String) (messages : List Byte) : BitVec 384 :=
  let v := ascii "dmtf-spdm-v1.3.*"
  Config.sha384 (v ++ v ++ v ++ v ++ zeros (36 - context.length) ++ ascii context ++ le 48 (Config.sha384 messages).toNat)

/-- The chain of slot 0. -/
def Dev.slotChain (d : Dev) : List Byte := Config.spdmChain Config.bootRomDigest d.sec.meas2

/-- 32 fresh bytes of a nonce. -/
def Dev.freshNonce (d : Dev) : List Byte × Dev :=
  let (a, d) := d.draw
  let (b, d) := d.draw
  let (c, d) := d.draw
  let (e, d) := d.draw
  (le 8 a.toNat ++ le 8 b.toNat ++ le 8 c.toNat ++ le 8 e.toNat, d)

/-! ### Start of the exchange -/

/-- GET_VERSION. -/
def getVersionD (r : SpdmReq) (d : Dev) : Dev :=
  d.spdmTake r 0x10 0 true fun d =>
    let m := spdmHead 0x10 0x04 0 0 ++ zeros 1 ++ le 1 1 ++ le 2 0x1300
    (d.modSpdm fun _ => { stage := 1, vca := spdmBytes 0x84 r ++ m }).spdmSend m

/-- GET_CAPABILITIES: CERT_CAP, CHAL_CAP, MEAS_CAP with signature; CTExponent 16. -/
def getCapabilitiesD (r : SpdmReq) (d : Dev) : Dev :=
  d.spdmTake r 0x13 1 true fun d =>
    if d.host.spdm.stage ≠ 1 then d.spdmError 0x04 0
    else
      let m := spdmHead 0x13 0x61 0 0 ++ zeros 1 ++ le 1 16 ++ zeros 2 ++ le 4 0x16 ++ le 4 Config.spdmSizes.1.toNat ++ le 4 Config.spdmSizes.2.toNat
      (d.modSpdm fun x => { x with stage := 2, vca := x.vca ++ spdmBytes 0xE1 r ++ m }).spdmSend m

/-- NEGOTIATE_ALGORITHMS: ECDSA on P-384 and SHA-384 only, which the requester must offer. -/
def negotiateAlgorithmsD (r : SpdmReq) (d : Dev) : Dev :=
  let p384 := num r.body 4 4 / 0x80 % 2 = 1
  let sha := num r.body 8 4 / 2 % 2 = 1
  d.spdmTake r 0x13 2 (p384 && sha) fun d =>
    if d.host.spdm.stage ≠ 2 then d.spdmError 0x04 0
    else
      let m := spdmHead 0x13 0x63 0 0 ++ le 2 36 ++ le 1 1 ++ zeros 1 ++ le 4 4 ++ le 4 0x80 ++ le 4 2 ++ zeros 12 ++ zeros 4
      (d.modSpdm fun x => { x with stage := 3, vca := x.vca ++ spdmBytes 0xE3 r ++ m }).spdmSend m

/-! ### Certificates and challenge -/

/-- GET_DIGESTS. -/
def getDigestsD (r : SpdmReq) (d : Dev) : Dev :=
  d.spdmTake r 0x13 3 true fun d =>
    let m := spdmHead 0x13 0x01 1 1 ++ le 48 (Config.sha384 d.slotChain).toNat
    (d.modSpdm fun x => { x with auth := x.auth ++ spdmBytes 0x81 r ++ m, meas := [] }).spdmSend m

/-- GET_CERTIFICATE: a portion of the chain of slot 0. -/
def getCertificateD (r : SpdmReq) (d : Dev) : Dev :=
  let chain := d.slotChain
  let off := num r.body 0 2
  d.spdmTake r 0x13 3 (r.param1.toNat % 16 = 0 && off < chain.length) fun d =>
    let part := cut chain off (num r.body 2 2)
    let m := spdmHead 0x13 0x02 0 0 ++ le 2 part.length ++ le 2 (chain.length - off - part.length) ++ part
    (d.modSpdm fun x => { x with auth := x.auth ++ spdmBytes 0x82 r ++ m, meas := [] }).spdmSend m

/-- A measurement block of R341: index, the standard's value type, the digest. -/
def measBlock (fz : Fuses) (d : Dev) (i : Nat) : List Byte :=
  let type := match i with | 1 => 0 | 2 => 1 | 3 => 3 | 4 => 3 | _ => 5
  le 1 i ++ le 1 1 ++ le 2 51 ++ le 1 type ++ le 2 48 ++ le 48 (d.measurement fz i).toNat

/-- The summary that a CHALLENGE asks for: none, of the trusted computing base, or of all measurements. -/
def measSummary (fz : Fuses) (d : Dev) (type : Nat) : List Byte :=
  let blocks := ([1, 2, 3, 4, 5].filter fun i => type = 0xFF || Config.tcbBlock i).flatMap (measBlock fz d)
  if type = 0 then [] else le 48 (Config.sha384 blocks).toNat

/-- CHALLENGE, answered with an alias-key signature over the exchange. -/
def challengeD (r : SpdmReq) (fz : Fuses) (d : Dev) : Dev :=
  let type := r.param2.toNat
  d.spdmTake r 0x13 3 (r.param1 = 0 && (type = 0 || type = 1 || type = 0xFF)) fun d =>
    let (nonce, d) := d.freshNonce
    let m := spdmHead 0x13 0x03 0 1 ++ le 48 (Config.sha384 d.slotChain).toNat ++ nonce ++ measSummary fz d type ++ zeros 2 ++ padTo 8 (cut r.body 32 8)
    let x := d.host.spdm
    let (v, d) := d.aliasSig (spdmDigest "responder-challenge_auth signing" (x.vca ++ x.auth ++ spdmBytes 0x83 r ++ m))
    (d.modSpdm fun x => { x with auth := [], meas := [] }).spdmSend (m ++ sigBytes v)

/-! ### Measurements -/

/-- GET_MEASUREMENTS: the number of blocks, one block or all of them, signed when the requester asks for it. -/
def getMeasurementsD (r : SpdmReq) (fz : Fuses) (d : Dev) : Dev :=
  let signed := r.param1.toNat % 2 = 1
  let op := r.param2.toNat
  let slotOk := !signed || num r.body 32 1 % 16 = 0
  d.spdmTake r 0x13 3 (slotOk && (op ≤ 5 || op = 0xFF)) fun d =>
    let blocks := if op = 0 then [] else if op = 0xFF then [1, 2, 3, 4, 5] else [op]
    let record := blocks.flatMap (measBlock fz d)
    let (nonce, d) := d.freshNonce
    let m := spdmHead 0x13 0x60 (if op = 0 then 5 else 0) 0 ++ le 1 blocks.length ++ le 3 record.length ++ record ++ nonce ++ zeros 2 ++
      padTo 8 (cut r.body (if signed then 33 else 0) 8)
    let x := d.host.spdm
    let covered := x.meas ++ spdmBytes 0xE0 r ++ m
    if signed then
      let (v, d) := d.aliasSig (spdmDigest "responder-measurements signing" (x.vca ++ covered))
      (d.modSpdm fun x => { x with meas := [] }).spdmSend (m ++ sigBytes v)
    else (d.modSpdm fun x => { x with meas := covered }).spdmSend m

/-! ### DOE Discovery (R299) -/

/-- DOE_DISCOVERY: protocol 0 is Discovery, protocol 1 SPDM; no other index has one. -/
def doeDiscoveryD (index : BitVec 8) (d : Dev) : Dev :=
  d.emit (.doe 0 (match index.toNat with
    | 0 => le 2 1 ++ le 1 0 ++ le 1 1
    | 1 => le 2 1 ++ le 1 1 ++ le 1 0
    | _ => le 2 0xFFFF ++ le 1 0 ++ le 1 0))

/-! ### Meanings -/

/-- Meaning of GET_VERSION. -/
def execGetVersion (r : SpdmReq) (s : State) : Host.Outcome State Fault Refusal := .next (s.onDev (getVersionD r))
/-- Meaning of GET_CAPABILITIES. -/
def execGetCapabilities (r : SpdmReq) (s : State) : Host.Outcome State Fault Refusal := .next (s.onDev (getCapabilitiesD r))
/-- Meaning of NEGOTIATE_ALGORITHMS. -/
def execNegotiateAlgorithms (r : SpdmReq) (s : State) : Host.Outcome State Fault Refusal := .next (s.onDev (negotiateAlgorithmsD r))
/-- Meaning of GET_DIGESTS. -/
def execGetDigests (r : SpdmReq) (s : State) : Host.Outcome State Fault Refusal := .next (s.onDev (getDigestsD r))
/-- Meaning of GET_CERTIFICATE. -/
def execGetCertificate (r : SpdmReq) (s : State) : Host.Outcome State Fault Refusal := .next (s.onDev (getCertificateD r))
/-- Meaning of CHALLENGE. -/
def execChallenge (r : SpdmReq) (s : State) : Host.Outcome State Fault Refusal := .next (s.onDevF fun fz d => challengeD r fz d)
/-- Meaning of GET_MEASUREMENTS. -/
def execGetMeasurements (r : SpdmReq) (s : State) : Host.Outcome State Fault Refusal := .next (s.onDevF fun fz d => getMeasurementsD r fz d)
/-- Meaning of DOE_DISCOVERY. -/
def execDoeDiscovery (index : BitVec 8) (s : State) : Host.Outcome State Fault Refusal := .next (s.onDev (doeDiscoveryD index))

end Sys2Proof.Machine
end

