-- ==== Sys2Proof/Machine/Dispatch.lean ====
section
/-!
DEFINITION. Dispatch: one arm per command, each a direct call of its meaning.
-/
namespace Sys2Proof.Machine

open Sys2Proof

/-- The effect of a command on everything but the queue. -/
def exec (i : Instr) (s : State) : Host.Outcome State Fault Refusal :=
  match i with
  | .frameArrival p f => Sys2Proof.Machine.execFrameArrival p f s
  | .frameCheck p => Sys2Proof.Machine.execFrameCheck p s
  | .bridgeGrant d => Sys2Proof.Machine.execBridgeGrant d s
  | .outputArbitration p => Sys2Proof.Machine.execOutputArbitration p s
  | .spillBlockWrite p c vc => Sys2Proof.Machine.execSpillBlockWrite p c vc s
  | .spillReadback p c vc bad => Sys2Proof.Machine.execSpillReadback p c vc bad s
  | .roundBoundary => Sys2Proof.Machine.execRoundBoundary s
  | .pacerAnswerRepeat p => Sys2Proof.Machine.execPacerAnswerRepeat p s
  | .linkState p b => Sys2Proof.Machine.execLinkState p b s
  | .linkStateSend p => Sys2Proof.Machine.execLinkStateSend p s
  | .sync p b => Sys2Proof.Machine.execSync p b s
  | .widthRequest p b => Sys2Proof.Machine.execWidthRequest p b s
  | .widthRequestRepeat p => Sys2Proof.Machine.execWidthRequestRepeat p s
  | .widthRequestUnanswered p => Sys2Proof.Machine.execWidthRequestUnanswered p s
  | .power p b => Sys2Proof.Machine.execPower p b s
  | .wake p b => Sys2Proof.Machine.execWake p b s
  | .quietEntry p => Sys2Proof.Machine.execQuietEntry p s
  | .sleepEntry p => Sys2Proof.Machine.execSleepEntry p s
  | .powerResume p => Sys2Proof.Machine.execPowerResume p s
  | .alignmentBlock p lane b => Sys2Proof.Machine.execAlignmentBlock p lane b s
  | .codewordDecode p levels => Sys2Proof.Machine.execCodewordDecode p levels s
  | .clockDetect p => Sys2Proof.Machine.execClockDetect p s
  | .clockDetectRetry p => Sys2Proof.Machine.execClockDetectRetry p s
  | .phaseAlignment p inverted => Sys2Proof.Machine.execPhaseAlignment p s inverted
  | .equalizationCheck p pass => Sys2Proof.Machine.execEqualizationCheck p pass s
  | .bringUpStageTimeout p doneLanes => Sys2Proof.Machine.execBringUpStageTimeout p doneLanes s
  | .laneLossOfSignal p lane => Sys2Proof.Machine.execLaneLossOfSignal p lane s
  | .laneLossOfLock p lane => Sys2Proof.Machine.execLaneLossOfLock p lane s
  | .symbolErrors p lane => Sys2Proof.Machine.execSymbolErrors p lane s
  | .clockLossOfSignal p => Sys2Proof.Machine.execClockLossOfSignal p s
  | .clockFallbackTimeout p => Sys2Proof.Machine.execClockFallbackTimeout p s
  | .creditStall p vc => Sys2Proof.Machine.execCreditStall p vc s
  | .detourProbeTimeout d => Sys2Proof.Machine.execDetourProbeTimeout d s
  | .bundleStartupTimeout d => Sys2Proof.Machine.execBundleStartupTimeout d s
  | .inServiceCheckStart p => Sys2Proof.Machine.execInServiceCheckStart p s
  | .inServiceCheckEnd p errs bits => Sys2Proof.Machine.execInServiceCheckEnd p errs bits s
  | .linkHello p f => Sys2Proof.Machine.execLinkHello p f s
  | .profileIdent p f => Sys2Proof.Machine.execProfileIdent p f s
  | .creditInit p f => Sys2Proof.Machine.execCreditInit p f s
  | .rttProbe p f => Sys2Proof.Machine.execRttProbe p f s
  | .rttEcho p f => Sys2Proof.Machine.execRttEcho p f s
  | .linkReady p f => Sys2Proof.Machine.execLinkReady p f s
  | .linkDown p f => Sys2Proof.Machine.execLinkDown p f s
  | .load pp f e => Sys2Proof.Machine.execLoad pp f e s
  | .store pp f e => Sys2Proof.Machine.execStore pp f e s
  | .storePosted pp f e => Sys2Proof.Machine.execStorePosted pp f e s
  | .storeMasked pp f e => Sys2Proof.Machine.execStoreMasked pp f e s
  | .storeMaskedPosted pp f e => Sys2Proof.Machine.execStoreMaskedPosted pp f e s
  | .flush pp f e => Sys2Proof.Machine.execFlush pp f e s
  | .atomicAdd pp f e => Sys2Proof.Machine.execAtomicAdd pp f e s
  | .atomicMin pp f e => Sys2Proof.Machine.execAtomicMin pp f e s
  | .atomicMax pp f e => Sys2Proof.Machine.execAtomicMax pp f e s
  | .fetchAdd pp f e => Sys2Proof.Machine.execFetchAdd pp f e s
  | .fetchMin pp f e => Sys2Proof.Machine.execFetchMin pp f e s
  | .fetchMax pp f e => Sys2Proof.Machine.execFetchMax pp f e s
  | .cas pp f e => Sys2Proof.Machine.execCas pp f e s
  | .reduceStore pp f e => Sys2Proof.Machine.execReduceStore pp f e s
  | .lineStep h id => Sys2Proof.Machine.execLineStep h id s
  | .linePerform line ecc => Sys2Proof.Machine.execLinePerform line ecc s
  | .multilineCommit h id => Sys2Proof.Machine.execMultilineCommit h id s
  | .postedBufferRelease h e => Sys2Proof.Machine.execPostedBufferRelease h e s
  | .dedupeEntryExpiry h src tag => Sys2Proof.Machine.execDedupeEntryExpiry h src tag s
  | .streamTableTimeout src stream => Sys2Proof.Machine.execStreamTableTimeout src stream s
  | .rowRepairDone ch ecc => Sys2Proof.Machine.execRowRepairDone ch s ecc
  | .patrolRead line ecc passEnds => Sys2Proof.Machine.execPatrolRead line ecc passEnds s
  | .sweepLap done ecc => Sys2Proof.Machine.execSweepLap s done ecc
  | .poolInitDone => Sys2Proof.Machine.execPoolInitDone s
  | .poolDieReset d => Sys2Proof.Machine.execPoolDieReset d s
  | .poolDieReturn d => Sys2Proof.Machine.execPoolDieReturn d s
  | .poolAreasZeroed => Sys2Proof.Machine.execPoolAreasZeroed s
  | .checkJobDone d ctx ecc => Sys2Proof.Machine.execCheckJobDone d ctx s ecc
  | .completion p f => Sys2Proof.Machine.execCompletion p f s
  | .completionData p f => Sys2Proof.Machine.execCompletionData p f s
  | .congNotice p f => Sys2Proof.Machine.execCongNotice p f s
  | .requesterTimeout tag => Sys2Proof.Machine.execRequesterTimeout tag s
  | .backoffElapsed stream node => Sys2Proof.Machine.execBackoffElapsed stream node s
  | .limiterIncrease ep node => Sys2Proof.Machine.execLimiterIncrease ep node s
  | .limiterEntryFree ep node => Sys2Proof.Machine.execLimiterEntryFree ep node s
  | .combineWatchExpiry d id => Sys2Proof.Machine.execCombineWatchExpiry d id s
  | .combineOpenTimer d id => Sys2Proof.Machine.execCombineOpenTimer d id s
  | .combinedRequestTimeout d id => Sys2Proof.Machine.execCombinedRequestTimeout d id s
  | .combinedCompletion d f => Sys2Proof.Machine.execCombinedCompletion d f s
  | .memberRecordExpiry d src tag => Sys2Proof.Machine.execMemberRecordExpiry d src tag s
  | .launchWord pp f => Sys2Proof.Machine.execLaunchWord pp f s
  | .relayData pp f => Sys2Proof.Machine.execRelayData pp f s
  | .relayFlush pp f => Sys2Proof.Machine.execRelayFlush pp f s
  | .ringData pp f => Sys2Proof.Machine.execRingData pp f s
  | .baton pp f => Sys2Proof.Machine.execBaton pp f s
  | .a2aData pp f => Sys2Proof.Machine.execA2aData pp f s
  | .groupAbortFrame pp f => Sys2Proof.Machine.execGroupAbortFrame pp f s
  | .ringStepResend g id => Sys2Proof.Machine.execRingStepResend g id s
  | .ringLost g id => Sys2Proof.Machine.execRingLost g id s
  | .launchStall g => Sys2Proof.Machine.execLaunchStall g s
  | .launchResourceTimeout g => Sys2Proof.Machine.execLaunchResourceTimeout g s
  | .launchComplete g => Sys2Proof.Machine.execLaunchComplete g s
  | .batchDescriptor tp f => Sys2Proof.Machine.execBatchDescriptor tp f s
  | .entryData tp f => Sys2Proof.Machine.execEntryData tp f s
  | .entryFlush tp f => Sys2Proof.Machine.execEntryFlush tp f s
  | .fetchRequest pos sp => Sys2Proof.Machine.execFetchRequest pos sp s
  | .writeRequest pos sp => Sys2Proof.Machine.execWriteRequest pos sp s
  | .batchEnd pipe ch => Sys2Proof.Machine.execBatchEnd pipe ch s
  | .gateDecision pipe => Sys2Proof.Machine.execGateDecision pipe s
  | .meshCycleBoundary => Sys2Proof.Machine.execMeshCycleBoundary s
  | .meshWordArrival pos input slot pipe data => Sys2Proof.Machine.execMeshWordArrival pos input slot pipe data s
  | .vectorArithmetic pos op fmt mode d a b c sa sb sc j => Sys2Proof.Machine.execVectorArithmetic pos op fmt mode d a b c sa sb sc j s
  | .dotAccumulate pos fa fb mode a b sa sb init j => Sys2Proof.Machine.execDotAccumulate pos fa fb mode a b sa sb init j s
  | .convert pos src dst mode nanOnOverflow d a sd sa j => Sys2Proof.Machine.execConvert pos src dst mode nanOnOverflow d a sd sa j s
  | .crossLaneReduce pos op fmt a d j mode => Sys2Proof.Machine.execCrossLaneReduce pos op fmt a d j s mode
  | .function pos fn d a n j mode => Sys2Proof.Machine.execFunction pos fn d a n j s mode
  | .topK pos fmt largest off n k dv di j => Sys2Proof.Machine.execTopK pos fmt largest off n k dv di j s
  | .sramAccess pos op cycle ecc pred => Sys2Proof.Machine.execSramAccess pos op cycle ecc pred s
  | .meshSend pos slot r word j => Sys2Proof.Machine.execMeshSend pos slot r word j s
  | .meshReceive pos slot dst cycle pred => Sys2Proof.Machine.execMeshReceive pos slot dst cycle pred s
  | .streamRead pos sp dst cycle pred => Sys2Proof.Machine.execStreamRead pos sp dst cycle pred s
  | .streamWrite pos sp src cycle pred ecc => Sys2Proof.Machine.execStreamWrite pos sp src cycle pred s ecc
  | .sequencer pos op j => Sys2Proof.Machine.execSequencer pos op j s
  | .tileHardwareFault pos slot => Sys2Proof.Machine.execTileHardwareFault pos slot s
  | .pipelineStall pipe => Sys2Proof.Machine.execPipelineStall pipe s
  | .drainComplete pipe => Sys2Proof.Machine.execDrainComplete pipe s
  | .drainTimeout pipe => Sys2Proof.Machine.execDrainTimeout pipe s
  | .pipelineStopComplete pipe => Sys2Proof.Machine.execPipelineStopComplete pipe s
  | .lastLoadComplete => Sys2Proof.Machine.execLastLoadComplete s
  | .pipeStartComplete pipe => Sys2Proof.Machine.execPipeStartComplete pipe s
  | .tableWalkDone id => Sys2Proof.Machine.execTableWalkDone id s
  | .copyChunk host => Sys2Proof.Machine.execCopyChunk host s
  | .copyDone => Sys2Proof.Machine.execCopyDone s
  | .atsTranslationCompletion id a => Sys2Proof.Machine.execAtsTranslationCompletion id a s
  | .atsInvalidationRequest itag page n global => Sys2Proof.Machine.execAtsInvalidationRequest itag page n global s
  | .doorbell r tail => Sys2Proof.Machine.execDoorbell r tail s
  | .rplHead r head => Sys2Proof.Machine.execRplHead r head s
  | .ringEnable r word => Sys2Proof.Machine.execRingEnable r word s
  | .registerWrite off data => Sys2Proof.Machine.execRegisterWrite off data s
  | .bar2MemoryWrite w a data => Sys2Proof.Machine.execBar2MemoryWrite w a data s
  | .bar2MemoryRead w a n ptag => Sys2Proof.Machine.execBar2MemoryRead w a n ptag s
  | .hostPortReset => Sys2Proof.Machine.execHostPortReset s
  | .replyCoalesceTimeout r => Sys2Proof.Machine.execReplyCoalesceTimeout r s
  | .msixUnmask v => Sys2Proof.Machine.execMsixUnmask v s
  | .mgmtCommand f => Sys2Proof.Machine.execMgmtCommand f s
  | .mgmtReply f => Sys2Proof.Machine.execMgmtReply f s
  | .mgmtEvent f => Sys2Proof.Machine.execMgmtEvent f s
  | .nop c => Sys2Proof.Machine.execNop c s
  | .identityGet c => Sys2Proof.Machine.execIdentityGet c s
  | .attest c => Sys2Proof.Machine.execAttest c s
  | .keyReleaseOpen c => Sys2Proof.Machine.execKeyReleaseOpen c s
  | .keyReleaseOpenExpiry slice => Sys2Proof.Machine.execKeyReleaseOpenExpiry slice s
  | .keyReleaseAccept c => Sys2Proof.Machine.execKeyReleaseAccept c s
  | .credProvision c => Sys2Proof.Machine.execCredProvision c s
  | .credRevoke c => Sys2Proof.Machine.execCredRevoke c s
  | .debugUnlock c => Sys2Proof.Machine.execDebugUnlock c s
  | .fieldReturn c => Sys2Proof.Machine.execFieldReturn c s
  | .portGet c => Sys2Proof.Machine.execPortGet c s
  | .portSet c => Sys2Proof.Machine.execPortSet c s
  | .linkRetrain c => Sys2Proof.Machine.execLinkRetrain c s
  | .linkDownCommand c => Sys2Proof.Machine.execLinkDownCommand c s
  | .linkUp c => Sys2Proof.Machine.execLinkUp c s
  | .routingGet c => Sys2Proof.Machine.execRoutingGet c s
  | .routingSet c => Sys2Proof.Machine.execRoutingSet c s
  | .detourRelease c => Sys2Proof.Machine.execDetourRelease c s
  | .detourRestore c => Sys2Proof.Machine.execDetourRestore c s
  | .regionGet c => Sys2Proof.Machine.execRegionGet c s
  | .regionSet c => Sys2Proof.Machine.execRegionSet c s
  | .regionRevocationDone region => Sys2Proof.Machine.execRegionRevocationDone region s
  | .keyInstall c => Sys2Proof.Machine.execKeyInstall c s
  | .keyRevoke c => Sys2Proof.Machine.execKeyRevoke c s
  | .sliceGet c => Sys2Proof.Machine.execSliceGet c s
  | .sliceCreate c => Sys2Proof.Machine.execSliceCreate c s
  | .sliceTeardown c => Sys2Proof.Machine.execSliceTeardown c s
  | .portSlice c => Sys2Proof.Machine.execPortSlice c s
  | .functionDisable c => Sys2Proof.Machine.execFunctionDisable c s
  | .functionDisableDrainEnd slice fn => Sys2Proof.Machine.execFunctionDisableDrainEnd slice fn s
  | .xlateInvalidate c => Sys2Proof.Machine.execXlateInvalidate c s
  | .xlateWrite c ecc => Sys2Proof.Machine.execXlateWrite c s ecc
  | .xlateRead c ecc => Sys2Proof.Machine.execXlateRead c s ecc
  | .groupGet c => Sys2Proof.Machine.execGroupGet c s
  | .groupSet c => Sys2Proof.Machine.execGroupSet c s
  | .groupCreate c => Sys2Proof.Machine.execGroupCreate c s
  | .groupDelete c => Sys2Proof.Machine.execGroupDelete c s
  | .groupLaunch c => Sys2Proof.Machine.execGroupLaunch c s
  | .groupAbort c => Sys2Proof.Machine.execGroupAbort c s
  | .residualReset c => Sys2Proof.Machine.execResidualReset c s
  | .tileGet c => Sys2Proof.Machine.execTileGet c s
  | .tileSet c => Sys2Proof.Machine.execTileSet c s
  | .lastLoad c ecc => Sys2Proof.Machine.execLastLoad c s ecc
  | .pipeStart c => Sys2Proof.Machine.execPipeStart c s
  | .pipeDrain c => Sys2Proof.Machine.execPipeDrain c s
  | .pipeStop c => Sys2Proof.Machine.execPipeStop c s
  | .pipeUnload c => Sys2Proof.Machine.execPipeUnload c s
  | .positionRead c => Sys2Proof.Machine.execPositionRead c s
  | .poolGet c => Sys2Proof.Machine.execPoolGet c s
  | .poolSet c => Sys2Proof.Machine.execPoolSet c s
  | .checkJob c => Sys2Proof.Machine.execCheckJob c s
  | .copy c => Sys2Proof.Machine.execCopy c s
  | .powerGet c => Sys2Proof.Machine.execPowerGet c s
  | .powerSet c => Sys2Proof.Machine.execPowerSet c s
  | .capSet c => Sys2Proof.Machine.execCapSet c s
  | .heartbeat c => Sys2Proof.Machine.execHeartbeat c s
  | .firmwareGet c => Sys2Proof.Machine.execFirmwareGet c s
  | .firmwareSet c => Sys2Proof.Machine.execFirmwareSet c s
  | .fwStage c => Sys2Proof.Machine.execFwStage c s
  | .fwActivate c => Sys2Proof.Machine.execFwActivate c s
  | .fwRevert c => Sys2Proof.Machine.execFwRevert c s
  | .configCommit c => Sys2Proof.Machine.execConfigCommit c s
  | .perturbationGet c => Sys2Proof.Machine.execPerturbationGet c s
  | .perturbationSet c => Sys2Proof.Machine.execPerturbationSet c s
  | .perturbationArm c => Sys2Proof.Machine.execPerturbationArm c s
  | .perturbationDisarm c => Sys2Proof.Machine.execPerturbationDisarm c s
  | .berTest c => Sys2Proof.Machine.execBerTest c s
  | .drillArm c => Sys2Proof.Machine.execDrillArm c s
  | .drillDisarm c => Sys2Proof.Machine.execDrillDisarm c s
  | .faultGet c => Sys2Proof.Machine.execFaultGet c s
  | .faultSet c => Sys2Proof.Machine.execFaultSet c s
  | .replayOwnRing c => Sys2Proof.Machine.execReplayOwnRing c s
  | .replayMirror c => Sys2Proof.Machine.execReplayMirror c s
  | .faultRead c => Sys2Proof.Machine.execFaultRead c s
  | .eventRoute c => Sys2Proof.Machine.execEventRoute c s
  | .auditRead c => Sys2Proof.Machine.execAuditRead c s
  | .replayEnd => Sys2Proof.Machine.execReplayEnd s
  | .mirrorTimeout => Sys2Proof.Machine.execMirrorTimeout s
  | .drillDue j => Sys2Proof.Machine.execDrillDue j s
  | .linkDropRestore p => Sys2Proof.Machine.execLinkDropRestore p s
  | .endpointActivityExpiry p => Sys2Proof.Machine.execEndpointActivityExpiry p s
  | .auditSeal => Sys2Proof.Machine.execAuditSeal s
  | .auditFlashWrite => Sys2Proof.Machine.execAuditFlashWrite s
  | .getVersion r => Sys2Proof.Machine.execGetVersion r s
  | .getCapabilities r => Sys2Proof.Machine.execGetCapabilities r s
  | .negotiateAlgorithms r => Sys2Proof.Machine.execNegotiateAlgorithms r s
  | .getDigests r => Sys2Proof.Machine.execGetDigests r s
  | .getCertificate r => Sys2Proof.Machine.execGetCertificate r s
  | .challenge r => Sys2Proof.Machine.execChallenge r s
  | .getMeasurements r => Sys2Proof.Machine.execGetMeasurements r s
  | .powerSample watt mv auxMv => Sys2Proof.Machine.execPowerSample watt mv auxMv s
  | .levelUpStep => Sys2Proof.Machine.execLevelUpStep s
  | .levelDownStep => Sys2Proof.Machine.execLevelDownStep s
  | .capDownAssert => Sys2Proof.Machine.execCapDownAssert s
  | .capDownRelease => Sys2Proof.Machine.execCapDownRelease s
  | .inputDroop => Sys2Proof.Machine.execInputDroop s
  | .droopRecovery => Sys2Proof.Machine.execDroopRecovery s
  | .undervoltage => Sys2Proof.Machine.execUndervoltage s
  | .junctionSample tj cool100 => Sys2Proof.Machine.execJunctionSample tj cool100 s
  | .temperatureStep => Sys2Proof.Machine.execTemperatureStep s
  | .dramTemperatureSample tc => Sys2Proof.Machine.execDramTemperatureSample tc s
  | .coolantSample flowMl inlet outlet inRange10s => Sys2Proof.Machine.execCoolantSample flowMl inlet outlet inRange10s s
  | .heartbeatTimeout => Sys2Proof.Machine.execHeartbeatTimeout s
  | .referenceLost => Sys2Proof.Machine.execReferenceLost s
  | .referenceHoldoverExpiry => Sys2Proof.Machine.execReferenceHoldoverExpiry s
  | .referenceReturn => Sys2Proof.Machine.execReferenceReturn s
  | .powerOnReset => Sys2Proof.Machine.execPowerOnReset s
  | .strapSample pins => Sys2Proof.Machine.execStrapSample pins s
  | .mainPowerGood => Sys2Proof.Machine.execMainPowerGood s
  | .dieResetRelease => Sys2Proof.Machine.execDieResetRelease s
  | .kamroDieReset d => Sys2Proof.Machine.execKamroDieReset d s
  | .controlDieReset => Sys2Proof.Machine.execControlDieReset s
  | .handoverComplete recordOk => Sys2Proof.Machine.execHandoverComplete recordOk s
  | .fwConfirm => Sys2Proof.Machine.execFwConfirm s
  | .trialTimeout => Sys2Proof.Machine.execTrialTimeout s
  | .stagingEraseDone => Sys2Proof.Machine.execStagingEraseDone s
  | .bankCopyDone => Sys2Proof.Machine.execBankCopyDone s
  | .configWriteDone matches' => Sys2Proof.Machine.execConfigWriteDone matches' s
  | .mappedOutCommit => Sys2Proof.Machine.execMappedOutCommit s
  | .perturbationExpiry j => Sys2Proof.Machine.execPerturbationExpiry j s
  | .perturbationPeriod j => Sys2Proof.Machine.execPerturbationPeriod j s
  | .patternBerUpdate p errs bits => Sys2Proof.Machine.execPatternBerUpdate p errs bits s
  | .berTestRunEnd p errs bits locked => Sys2Proof.Machine.execBerTestRunEnd p errs bits locked s
  | .periodStart p => Sys2Proof.Machine.execPeriodStart p s
  | .doeDiscovery index => Sys2Proof.Machine.execDoeDiscovery index s
  | .atsEnableChange enable => Sys2Proof.Machine.execAtsEnableChange enable s
  | .powerLoss torn => Sys2Proof.Machine.execPowerLoss torn s
  | .reservedOpcode p f packet => Sys2Proof.Machine.execReservedOpcode p f s packet

end Sys2Proof.Machine
end

