-- ==== Sys2Proof/Machine/Tick.lean ====
section
/-!
DEFINITION. What passes with time alone (log 2): LOCAL_COUNTER (R384), THROTTLED and LEVEL_4 times (R397), and the operations
that an endpoint's silence or a tag's age held back (R65, R87).
-/
namespace Sys2Proof.Machine

open Sys2Proof

/-- One nanosecond of an idle block; without auxiliary power the counter stands still (R384, R385). -/
def tick (d : Dev) : Dev :=
  if !d.power.auxOn then d
  else
    let p := d.power
    let d := { d with now := d.now + 1, power := { p with throttledNs := p.throttledNs + b2n (1 ≤ d.throttle), level4Ns := p.level4Ns + b2n (d.throttle = 4) } }
    d.pumpAll

end Sys2Proof.Machine
end

