-- ==== Sys2Proof/Safety.lean ====
section
/-!
DEFINITION. What claims about runs use: what the fuses may do, when a command on a ring is the next one to be taken, and when the
byte memories of a state are in their canonical form.
-/
namespace Sys2Proof.Machine

open Sys2Proof

/-- Fuses only ever burn (R403): the security version floor does not fall, a field return is not undone. -/
def Fuses.burntFrom (new old : Fuses) : Prop :=
  old.svnFloor ≤ new.svnFloor ∧ (old.fieldReturned = true → new.fieldReturned = true)

/-- Nothing is under way at the pool homes and no perturbation is active: an operation that arrives is carried through at once. -/
def Dev.calm (d : Dev) : Prop :=
  (∀ h, (d.home h).ops = [] ∧ (d.home h).posted = [] ∧ (d.home h).flushes = [] ∧ (d.home h).heldIn = []) ∧ d.pool.lineQ = [] ∧
  d.pool.lineHeld = [] ∧ d.pool.repairing = [] ∧ d.pool.streams = [] ∧ d.test.perturbs = []

/-- A command answers the state whose device is `d`: the queue and the fuses stay. -/
def Runs (c : Instr) (s : State) (d : Dev) : Prop := exec c s = .next { s with dev := d }

/-- A relay frame, or an operation in the relay window, reaches its engine: the home die is up, the frame arrives whole and in clear, its
slice stands (R34, R109, R110, R170). -/
def Dev.relayHears (d : Dev) (pp : PoolPort) (f : Frame) : Prop :=
  (d.home (pp.val / 4)).up = true ∧ f.hchkOk = true ∧ f.checkOk = true ∧ f.conf = false ∧ d.tornDown f.slice.toNat = false

/-- A position performs an instruction: it runs, and the predicate the instruction names, if any, is true (R205, R211). -/
def Dev.performs (d : Dev) (pos : Nat) (i : Issue) : Prop :=
  (d.pos pos).state = 2 ∧ ∀ p, i.pred = some p → (d.pos pos).preds.contains p = true

/-- The same for an instruction that accesses its position's own SRAM: no fence holds back its accesses to it (R96). -/
def Dev.performsLocal (d : Dev) (pos : Nat) (i : Issue) : Prop :=
  d.performs pos i ∧ ∀ reads writes, d.localHeld pos reads writes = false

/-- An operation reaches the entry window of a pipeline that runs (R236): the tile die is up, the frame arrives whole and in clear, its slice
stands, and every row of R236 lets it through. -/
def Dev.entryHears (d : Dev) (tp : TilePort) (f : Frame) : Prop :=
  (d.tileDie (tp.val / 2)).up = true ∧ f.hchkOk = true ∧ f.checkOk = true ∧ f.conf = false ∧ d.tornDown f.slice.toNat = false ∧ d.entryFault f = none ∧
  (d.pipe (entryPipe f.offset.toNat)).isStopped = false

/-- Where the command at the head of ring `r` stands in host memory (R301). -/
def Dev.entryAddr (d : Dev) (r : RingNo) : Nat :=
  let g := d.ring r
  (g.cmdBase + BitVec.ofNat 64 (64 * (g.cmdHead.toNat % g.size))).toNat

/-- The read of `n` entries of ring `r` for a command: the translations of their pages, if they have them, and the device that asked for those that
its cache did not hold (R52, R305). -/
def Dev.readEntries (d : Dev) (r : RingNo) (n : Nat) (c : Cmd) : Option (List AtcEntry) × Dev :=
  { d with host := { d.host with nextWait := d.host.nextWait + 1 } }.hostPages (d.entryAddr r) (64 * n) false c.ats

/-- The device once `n` entries of ring `r` are taken as a command (R305, R310): the ring is busy with it, and was the last served. -/
def Dev.taken (d : Dev) (r : RingNo) (n : Nat) (c : Cmd) : Dev := (d.readEntries r n c).2.entryTaken r n

/-- A command with opcode `op` stands at the head of ring `r`, with all that taking it needs (R301, R305, R310): the command processor takes
commands, it is the ring's turn, the ring is enabled and in order, no command of it runs, `n` entries are there and the host lets them be read, the
reply ring has room, and no waiting command holds an object that it changes. -/
def Dev.ringReady (d : Dev) (r : RingNo) (op : Nat) (c : Cmd) (n : Nat) : Prop :=
  c.via = .ring r ∧ c.fetchOk = true ∧ c.replyOk = true ∧ (d.takesCommands = true ∧ d.turn r.val = true) ∧ (d.ring r).enable = true ∧ (d.ring r).status = 0 ∧
  (d.ring r).busy = false ∧ n ≤ ((d.ring r).cmdTail - (d.ring r).cmdHead).toNat ∧
  ((d.ring r).rplTail - (d.ring r).rplHead).toNat ≠ (d.ring r).size ∧ d.objectHeld op c = false ∧
  (∀ w ∈ d.host.waiting, w.id ≠ d.host.nextWait) ∧ d.host.recovery = false ∧ 3 ≤ d.power.releaseStep ∧ (d.readEntries r n c).1.isSome = true

/-- A command's packet is in order (R306, R308, R316): nothing reserved is set, no parameter it does not use, its class and its reference are
those of its form, its instance exists, and the role may issue it. -/
def Cmd.fits (c : Cmd) (fm : Form) (role : Nat) : Prop :=
  formFault fm c = none ∧ fm.roles.contains role = true ∧ (fm.cls.isSome = true → fm.cls = some c.cls.toNat)

/-- An unsigned command at the head of a ring, in order, its reference reached, so that its own rule alone decides (R308). -/
def Dev.hears (d : Dev) (r : RingNo) (c : Cmd) (fm : Form) : Prop :=
  d.ringReady r fm.op c 1 ∧ c.env = none ∧ Sys2Proof.Machine.Cmd.fits c fm 1 ∧ ((d.taken r 1 c).refPages fm c).1.isSome = true

/-- The device at which an unsigned command's own rule is judged: the entry is taken and the reference translated (R52, R305). -/
def Dev.heard (d : Dev) (r : RingNo) (fm : Form) (c : Cmd) : Dev := ((d.taken r 1 c).refPages fm c).2

/-- A result written to the reference of an unsigned command (R306): at the addresses that its translations name. -/
def Dev.answersTo (x d : Dev) (r : RingNo) (fm : Form) (c : Cmd) (bs : List Byte) : Dev :=
  x.hostPut (((d.taken r 1 c).refPages fm c).1.getD []) (c.u 56 8) bs

/-- The device after the envelope of a command taken from ring `r` held: its COUNTER is the credential's last (R336). -/
def Dev.trusted (d : Dev) (r : RingNo) (e : Envelope) (c : Cmd) : Dev := ((d.taken r 4 c).acceptCounter e).2

/-- The device at which a signed command's own rule is judged. -/
def Dev.heardSigned (d : Dev) (r : RingNo) (e : Envelope) (fm : Form) (c : Cmd) : Dev := ((d.trusted r e c).refPages fm c).2

/-- The same for a command in an envelope of a role, whose counter needs no new floor in flash (R307, R336). -/
def Dev.hearsSigned (d : Dev) (r : RingNo) (c : Cmd) (e : Envelope) (fm : Form) : Prop :=
  d.ringReady r fm.op c 4 ∧ c.env = some e ∧ (d.ring r).cmdHead.toNat % 4 = 0 ∧ Sys2Proof.Machine.Cmd.fits c fm e.role.toNat ∧
  ((d.trusted r e c).refPages fm c).1.isSome = true ∧
  (if e.cred = makerCred then e.counter.toNat ≤ d.sec.makerFloor else e.counter.toNat ≤ (d.cred e.cred.toNat).floor)

/-- A command has ended (R308, R309): its audit record, unless it is a GET or NOP, and its reply. `d` is the device that took it. -/
def Dev.answered (x d : Dev) (fm : Form) (c : Cmd) (status det : Nat) (result : List Byte) (started : Bool := false) : Dev :=
  let w : WaitReply :=
    { waitOfCmd d fm.op fm.get c with effect := false, status := status, detail := BitVec.ofNat 32 det, result := result, started := started }
  (if fm.get then x else x.audit (auditOf w)).writeReply w

/-- The same for a command in an envelope: its record names the role, the credential and the COUNTER that the envelope gives (R337). -/
def Dev.answeredTo (x d : Dev) (e : Envelope) (fm : Form) (c : Cmd) (status det : Nat) (result : List Byte) (started : Bool := false) : Dev :=
  let w : WaitReply :=
    { waitOfCmd d fm.op fm.get c with effect := false, status := status, detail := BitVec.ofNat 32 det, result := result, started := started,
                                      role := e.role.toNat, cred := e.cred, counter := e.counter }
  (if fm.get then x else x.audit (auditOf w)).writeReply w

/-- A command's effect has come about and its reply goes: its record joins the waiting ones and, as nothing is awaited for it, is sent, with its
audit record (R308, R309, R312). -/
def Dev.replies (x d : Dev) (fm : Form) (c : Cmd) (a : Answer) : Dev := x.answerCmd (waitOfCmd d fm.op fm.get c) c a

/-- A command has taken effect but for what its reply waits for (R310). -/
def Dev.awaits (x d : Dev) (fm : Form) (c : Cmd) : Dev :=
  { x with host := { x.host with waiting := x.host.waiting ++ [waitOfCmd d fm.op fm.get c] } }

/-- An effect of a signed command: refused where the envelope does not hold (R308 step 1), else performed and answered. -/
def Dev.signedOutcome (d : Dev) (r : RingNo) (e : Envelope) (fm : Form) (c : Cmd) (f : Dev → Dev) (started : Bool) : Dev :=
  match d.envelopeFault fm.op c e with
  | some b => (d.taken r 4 c).answeredTo d e fm c 0x45 b []
  | none => (f (d.heardSigned r e fm c)).answeredTo d e fm c 0 0 [] started

/-- The same with the reply that the answer `a` gives. -/
def Dev.signedReplies (d : Dev) (r : RingNo) (e : Envelope) (fm : Form) (c : Cmd) (f : Dev → Dev) (a : Answer) : Dev :=
  match d.envelopeFault fm.op c e with
  | some b => (d.taken r 4 c).answeredTo d e fm c 0x45 b []
  | none => (f (d.heardSigned r e fm c)).answerCmd
      { waitOfCmd d fm.op fm.get c with role := e.role.toNat, cred := e.cred, counter := e.counter, floor := false } c a

/-- Every byte memory of a device is in its canonical form. -/
def Dev.memoriesWf (d : Dev) : Bool :=
  Memory.wf d.pool.mem && d.tiles.positions.all fun e => Memory.wf e.2.sram && Memory.wf e.2.vregs && Memory.wf e.2.istore

end Sys2Proof.Machine
end

