-- ==== Sys2Proof/WellFormed.lean ====
section
/-!
DEFINITION. Well-formed commands: operands that the wire, the host or the world can produce (log 1). `exec` gives every command a
meaning, the ill-formed ones too; nothing in the machine relies on these checks.
-/
namespace Sys2Proof

/-- Lines of the pool (R246, R247): 3,072 GiB in lines of 64 bytes. -/
def poolLines : Nat := 51539607552

/-- A frame's payload area (R101, R103, R113): at most 2,048 bytes, with the envelope's 24 bytes when CONF is set, and the shortest
envelope when it is. -/
def Frame.wf (f : Frame) : Bool :=
  if f.conf then 24 ≤ f.payload.length && f.payload.length ≤ 2072 else f.payload.length ≤ 2048

/-- A command packet (R306): a reference carries at most 16 MiB; a ring's command has no host bytes beyond them. -/
def Cmd.wf (c : Cmd) : Bool :=
  match c.ref with
  | some r => r.bytes.length ≤ 16777216
  | none => true

/-- What a home finds on its lines: line offsets of a frame's 33 lines at most. -/
def HomeEnv.wf (e : HomeEnv) : Bool := e.ecc.length ≤ 33

/-- An SPDM message (R341): it has a version of the standard, 1.0 or later. -/
def SpdmReq.wf (r : SpdmReq) : Bool := 0x10 ≤ r.version.toNat

/-- An SRAM access (R207): 1 to 2,048 bytes, at least one granule. -/
def SramOp.wf (o : SramOp) : Bool :=
  match o with
  | .load _ _ len => 1 ≤ len && len ≤ 2048
  | .store _ _ len => 1 ≤ len && len ≤ 2048
  | .gather _ _ n => 1 ≤ n
  | .scatter _ _ n => 1 ≤ n

/-- A sequencer instruction (R205): a loop has a body. -/
def SeqOp.wf (o : SeqOp) : Bool :=
  match o with
  | .loop _ len => 1 ≤ len
  | .predSet _ _ => true
  | .scalar _ _ _ _ => true
  | .scalarImm _ _ => true
  | .fence _ _ => true

/-- Whether a command is well formed. -/
def Instr.wf (i : Instr) : Bool :=
  match i with
  | .frameArrival _ f => f.wf
  | .frameCheck _ => true
  | .bridgeGrant _ => true
  | .outputArbitration _ => true
  | .spillBlockWrite _ _ _ => true
  | .spillReadback _ _ _ _ => true
  | .roundBoundary => true
  | .pacerAnswerRepeat _ => true
  | .linkState _ _ => true
  | .linkStateSend _ => true
  | .sync _ _ => true
  | .widthRequest _ _ => true
  | .widthRequestRepeat _ => true
  | .widthRequestUnanswered _ => true
  | .power _ _ => true
  | .wake _ _ => true
  | .quietEntry _ => true
  | .sleepEntry _ => true
  | .powerResume _ => true
  | .alignmentBlock _ _ _ => true
  | .codewordDecode _ levels => levels.length ≤ 8 && levels.all (fun l => l.length ≤ 680)
  | .clockDetect _ => true
  | .clockDetectRetry _ => true
  | .phaseAlignment _ _ => true
  | .equalizationCheck _ _ => true
  | .bringUpStageTimeout _ _ => true
  | .laneLossOfSignal _ _ => true
  | .laneLossOfLock _ _ => true
  | .symbolErrors _ _ => true
  | .clockLossOfSignal _ => true
  | .clockFallbackTimeout _ => true
  | .creditStall _ _ => true
  | .detourProbeTimeout _ => true
  | .bundleStartupTimeout _ => true
  | .inServiceCheckStart _ => true
  | .inServiceCheckEnd _ errs _ => errs.length = 8
  | .linkHello _ f => f.wf
  | .profileIdent _ f => f.wf
  | .creditInit _ f => f.wf
  | .rttProbe _ f => f.wf
  | .rttEcho _ f => f.wf
  | .linkReady _ f => f.wf
  | .linkDown _ f => f.wf
  | .load _ f e => f.wf && e.wf
  | .store _ f e => f.wf && e.wf
  | .storePosted _ f e => f.wf && e.wf
  | .storeMasked _ f e => f.wf && e.wf
  | .storeMaskedPosted _ f e => f.wf && e.wf
  | .flush _ f e => f.wf && e.wf
  | .atomicAdd _ f e => f.wf && e.wf
  | .atomicMin _ f e => f.wf && e.wf
  | .atomicMax _ f e => f.wf && e.wf
  | .fetchAdd _ f e => f.wf && e.wf
  | .fetchMin _ f e => f.wf && e.wf
  | .fetchMax _ f e => f.wf && e.wf
  | .cas _ f e => f.wf && e.wf
  | .reduceStore _ f e => f.wf && e.wf
  | .lineStep _ _ => true
  | .linePerform line _ => line < poolLines
  | .multilineCommit _ _ => true
  | .postedBufferRelease _ e => e.wf
  | .dedupeEntryExpiry _ _ _ => true
  | .streamTableTimeout _ _ => true
  | .rowRepairDone _ _ => true
  | .patrolRead line _ _ => line < poolLines
  | .sweepLap _ _ => true
  | .poolInitDone => true
  | .poolDieReset _ => true
  | .poolDieReturn _ => true
  | .poolAreasZeroed => true
  | .checkJobDone _ _ _ => true
  | .completion _ f => f.wf
  | .completionData _ f => f.wf
  | .congNotice _ f => f.wf
  | .requesterTimeout _ => true
  | .backoffElapsed _ _ => true
  | .limiterIncrease _ _ => true
  | .limiterEntryFree _ _ => true
  | .combineWatchExpiry _ _ => true
  | .combineOpenTimer _ _ => true
  | .combinedRequestTimeout _ _ => true
  | .combinedCompletion _ f => f.wf
  | .memberRecordExpiry _ _ _ => true
  | .launchWord _ f => f.wf
  | .relayData _ f => f.wf
  | .relayFlush _ f => f.wf
  | .ringData _ f => f.wf
  | .baton _ f => f.wf
  | .a2aData _ f => f.wf
  | .groupAbortFrame _ f => f.wf
  | .ringStepResend _ _ => true
  | .ringLost _ _ => true
  | .launchStall _ => true
  | .launchResourceTimeout _ => true
  | .launchComplete _ => true
  | .batchDescriptor _ f => f.wf
  | .entryData _ f => f.wf
  | .entryFlush _ f => f.wf
  | .fetchRequest _ _ => true
  | .writeRequest _ _ => true
  | .batchEnd _ _ => true
  | .gateDecision _ => true
  | .meshCycleBoundary => true
  | .meshWordArrival _ _ _ _ _ => true
  | .vectorArithmetic _ _ _ _ _ _ _ _ _ _ _ _ => true
  | .dotAccumulate _ _ _ _ _ _ _ _ _ _ => true
  | .convert _ _ _ _ _ _ _ _ _ _ => true
  | .crossLaneReduce _ _ _ _ _ _ _ => true
  | .function _ _ _ _ n _ _ => 1 ≤ n
  | .topK _ _ _ _ n _ _ _ _ => 1 ≤ n
  | .sramAccess _ op _ _ _ => op.wf
  | .meshSend _ _ _ _ _ => true
  | .meshReceive _ _ _ _ _ => true
  | .streamRead _ _ _ _ _ => true
  | .streamWrite _ _ _ _ _ _ => true
  | .sequencer _ op _ => op.wf
  | .tileHardwareFault _ _ => true
  | .pipelineStall _ => true
  | .drainComplete _ => true
  | .drainTimeout _ => true
  | .pipelineStopComplete _ => true
  | .lastLoadComplete => true
  | .pipeStartComplete _ => true
  | .tableWalkDone _ => true
  | .copyChunk host => host.length ≤ 2048
  | .copyDone => true
  | .atsTranslationCompletion _ _ => true
  | .atsInvalidationRequest _ _ _ _ => true
  | .doorbell _ _ => true
  | .rplHead _ _ => true
  | .ringEnable _ _ => true
  | .registerWrite _ data => 1 ≤ data.length && data.length ≤ 4096
  | .bar2MemoryWrite _ _ data => 1 ≤ data.length && data.length ≤ 4096
  | .bar2MemoryRead _ _ n _ => 1 ≤ n && n ≤ 4096
  | .hostPortReset => true
  | .replyCoalesceTimeout _ => true
  | .msixUnmask _ => true
  | .mgmtCommand f => f.wf
  | .mgmtReply f => f.wf
  | .mgmtEvent f => f.wf
  | .nop c => c.wf
  | .identityGet c => c.wf
  | .attest c => c.wf
  | .keyReleaseOpen c => c.wf
  | .keyReleaseOpenExpiry _ => true
  | .keyReleaseAccept c => c.wf
  | .credProvision c => c.wf
  | .credRevoke c => c.wf
  | .debugUnlock c => c.wf
  | .fieldReturn c => c.wf
  | .portGet c => c.wf
  | .portSet c => c.wf
  | .linkRetrain c => c.wf
  | .linkDownCommand c => c.wf
  | .linkUp c => c.wf
  | .routingGet c => c.wf
  | .routingSet c => c.wf
  | .detourRelease c => c.wf
  | .detourRestore c => c.wf
  | .regionGet c => c.wf
  | .regionSet c => c.wf
  | .regionRevocationDone _ => true
  | .keyInstall c => c.wf
  | .keyRevoke c => c.wf
  | .sliceGet c => c.wf
  | .sliceCreate c => c.wf
  | .sliceTeardown c => c.wf
  | .portSlice c => c.wf
  | .functionDisable c => c.wf
  | .functionDisableDrainEnd _ _ => true
  | .xlateInvalidate c => c.wf
  | .xlateWrite c _ => c.wf
  | .xlateRead c _ => c.wf
  | .groupGet c => c.wf
  | .groupSet c => c.wf
  | .groupCreate c => c.wf
  | .groupDelete c => c.wf
  | .groupLaunch c => c.wf
  | .groupAbort c => c.wf
  | .residualReset c => c.wf
  | .tileGet c => c.wf
  | .tileSet c => c.wf
  | .lastLoad c _ => c.wf
  | .pipeStart c => c.wf
  | .pipeDrain c => c.wf
  | .pipeStop c => c.wf
  | .pipeUnload c => c.wf
  | .positionRead c => c.wf
  | .poolGet c => c.wf
  | .poolSet c => c.wf
  | .checkJob c => c.wf
  | .copy c => c.wf
  | .powerGet c => c.wf
  | .powerSet c => c.wf
  | .capSet c => c.wf
  | .heartbeat c => c.wf
  | .firmwareGet c => c.wf
  | .firmwareSet c => c.wf
  | .fwStage c => c.wf
  | .fwActivate c => c.wf
  | .fwRevert c => c.wf
  | .configCommit c => c.wf
  | .perturbationGet c => c.wf
  | .perturbationSet c => c.wf
  | .perturbationArm c => c.wf
  | .perturbationDisarm c => c.wf
  | .berTest c => c.wf
  | .drillArm c => c.wf
  | .drillDisarm c => c.wf
  | .faultGet c => c.wf
  | .faultSet c => c.wf
  | .replayOwnRing c => c.wf
  | .replayMirror c => c.wf
  | .faultRead c => c.wf
  | .eventRoute c => c.wf
  | .auditRead c => c.wf
  | .replayEnd => true
  | .mirrorTimeout => true
  | .drillDue _ => true
  | .linkDropRestore _ => true
  | .endpointActivityExpiry _ => true
  | .auditSeal => true
  | .auditFlashWrite => true
  | .getVersion r => r.wf
  | .getCapabilities r => r.wf
  | .negotiateAlgorithms r => r.wf
  | .getDigests r => r.wf
  | .getCertificate r => r.wf
  | .challenge r => r.wf
  | .getMeasurements r => r.wf
  | .powerSample _ _ _ => true
  | .levelUpStep => true
  | .levelDownStep => true
  | .capDownAssert => true
  | .capDownRelease => true
  | .inputDroop => true
  | .droopRecovery => true
  | .undervoltage => true
  | .junctionSample tj _ => tj.length = 15
  | .temperatureStep => true
  | .dramTemperatureSample tc => tc.length = 48
  | .coolantSample _ _ _ _ => true
  | .heartbeatTimeout => true
  | .referenceLost => true
  | .referenceHoldoverExpiry => true
  | .referenceReturn => true
  | .powerOnReset => true
  | .strapSample _ => true
  | .mainPowerGood => true
  | .dieResetRelease => true
  | .kamroDieReset _ => true
  | .controlDieReset => true
  | .handoverComplete _ => true
  | .fwConfirm => true
  | .trialTimeout => true
  | .stagingEraseDone => true
  | .bankCopyDone => true
  | .configWriteDone _ => true
  | .mappedOutCommit => true
  | .perturbationExpiry _ => true
  | .perturbationPeriod _ => true
  | .patternBerUpdate _ errs _ => errs.length = 9
  | .berTestRunEnd _ errs _ _ => errs.length = 9
  | .periodStart _ => true
  | .doeDiscovery _ => true
  | .atsEnableChange _ => true
  | .powerLoss _ => true
  | .reservedOpcode _ f packet => f.wf && (match packet with | some x => x.2.wf | none => true)

end Sys2Proof
end

