-- ==== Sys2Proof/Certificates/Slice0/Obligations.lean ====
section
/-!
DEFINITION. The statements for the provers. `Runs c s d` says that command `c` answers a next state, in which the device is `d` and
everything else is as before: a statement of this form is a completion, a result and a frame at once.
-/

open Sys2Proof Sys2Proof.Machine

/-! ### The switch -/

/-- FRAME_ARRIVAL on a torus port (R154): a frame that passes every check and has a next hop is counted and queued at that output;
FRAME_CHECK (R110): the last flit of a frame sent on cut-through passes the check on, or its inverse where it is bad, bit 0 inverted where a
perturbation has selected the frame (R420); BRIDGE_GRANT (R122): the one frame that may cross
the bridge joins its queue on the other die; OUTPUT_ARBITRATION (R133): the winner leaves on the port. Where spill writes fall behind or have
caught up by it, that is told (R129).
Choices of the model that this writes out: the bridge's pointers (log 18), where pointers start (log 20), when CREDIT_WAIT counts (log 33),
when WAKE is sent (log 171), what waits behind a staged frame (log 172), the G allotment sums EFFECTIVE (log 204). -/
def Obligations.SwitchFramesMove : Prop :=
  (∀ (s : State) (p : Port) (f f' : Frame) (o : Nat),
    (s.dev.kamro (dieOf p)).up = true → s.dev.inService p = true → (s.dev.port p).discarding = false → f.hchkOk = true →
    f.cls ≠ .m → transitReserved f = false → p.val < 144 → s.dev.isEdge p = false → s.dev.tornDown f.slice.toNat = false →
    (s.dev.countIn p f).routeFrame p f = (.out o f', []) → f.area = 0 → ¬ (o < 144 ∧ f'.hops = 63) →
    Runs (.frameArrival p f) s
      (let d := s.dev.countIn p f
       ({ d with sw := { d.sw with nextFid := d.sw.nextFid + 1 } }.toQueue
         { fid := s.dev.sw.nextFid, f := f', inp := p, out := o, arrived := s.dev.now, whole := true, inVc := f.vc, orig := f }).behindEvents)) ∧
  (∀ (s : State) (p : Port) (fid : Nat) (c : CutFrame),
    s.dev.sw.rxOpen.find? (fun e => e.1 = p.val) = some (p.val, fid) → s.dev.sw.cuts.find? (fun x => x.fid = fid) = some c →
    (∀ x ∈ s.dev.sw.cuts, x.fid = fid → x.flip = c.flip) → (s.dev.port c.out).syncDue = false →
    (c.f.checkOk = true → Runs (.frameCheck p) s
      ({ s.dev with sw := { s.dev.sw with rxOpen := removeFirst (fun e => e.1 = p.val) s.dev.sw.rxOpen,
                                          cuts := s.dev.sw.cuts.filter fun x => x.fid ≠ fid } }.emit
        (.tail c.out (if c.flip then c.f.fcheck ^^^ 1 else c.f.fcheck)))) ∧
    (c.f.checkOk = false → Runs (.frameCheck p) s
      (({ s.dev with sw := { s.dev.sw with rxOpen := removeFirst (fun e => e.1 = p.val) s.dev.sw.rxOpen } }.countBadCheck p c.f).sendTail
        c.out fid (~~~ (fcheckOf c.f))))) ∧
  (∀ (s : State) (k : Kamro) (x : QFrame),
    s.dev.crossing k [] (s.dev.kamro k).staging = [x] →
    Runs (.bridgeGrant k) s
      (let d := s.dev.modKamro k fun y => { y with staging := y.staging.filter fun z => z.fid ≠ x.fid }
       let d := if x.f.cls = .g then d else { d with sw := { d.sw with rr := tset d.sw.rr (kamroPort k) ((x.f.qno + 1) % 25) } }
       (d.join { x with arrived := s.dev.now }).settleStaging k)) ∧
  (∀ (s : State) (p : Port) (q : Nat) (x : QFrame),
    s.dev.outputReady p = true →
    let d := (eachOf (upTo 25) s.dev fun d q => d.purgeQueue p q).countPressed p
    let hs := d.heads p
    let c := d.countWaits p hs
    let ok := hs.filter fun h => c.creditCovers p h.2.f
    let e := if ok.length < hs.length then c.sendWake p else c
    let gOk := decide (tget e.sw.gSent p 0 < e.gAllot p)
    pickHead e.now (tget e.sw.rr p 0) gOk ok = some (q, x) →
    Runs (.outputArbitration p) s ((e.startFrame p q x gOk).settleStaging (dieOf p)) ∧
    ∃ f w, (e.startFrame p q x gOk).wire = (if p.val < 144 then .frame p f (!x.whole) else .deliver p f) :: w)

/-- Spill and rounds. SPILL_BLOCK_WRITE (R128): the oldest 4 KiB of the open block leave the die for a free block of its half in the pool.
SPILL_READBACK (R128, R130): the first frame in spill, read back whole while the queue is below the refill level, is queued again and its bytes
are freed; a queue with nothing left in spill ends spilling. ROUND_BOUNDARY (R135, R137, R139): every record's contents come into force, a
released record has no owner, and the counts of the round start over. PACER_ANSWER_REPEAT (R120): up to five repeats leave in a block of their own.
Choices of the model that this writes out: a frame's room in spill (log 26), counters of a record written anew (log 126), no frame lies
across two blocks (log 176), line steps are counted per microsecond (log 213). -/
def Obligations.SpillRoundAndRepeats : Prop :=
  (∀ (s : State) (p : Port) (c : TClass) (vc : Fin 9) (blk : List QFrame) (b : Nat),
    let q := queueNo c vc
    let n := (blk.map fun x => 32 * x.f.flits).foldl (· + ·) 0
    blockOf 4096 (s.dev.queue p q).spillOpen = blk → blk ≠ [] → s.dev.pool.state ≠ 0 → s.dev.freeBlock (dieOf p) = some b →
    s.dev.spillPath (dieOf p) b = true → s.dev.mayBlock b = true →
    Runs (.spillBlockWrite p c vc) s
      (((((((s.dev.countBlock b).modQueue p q fun Q =>
            { Q with spilled := Q.spilled ++ blk.map fun x => { x with blk := some b }, spillOpen := Q.spillOpen.drop blk.length }).modKamro
          (dieOf p) fun k => { k with spillBytes := k.spillBytes + n }).modPort p fun x =>
            { x with spillWritten := satAdd 64 x.spillWritten n }).spillEvents p q).settleStaging (dieOf p)))) ∧
  (∀ (s : State) (p : Port) (c : TClass) (vc : Fin 9) (x : QFrame) (r : List QFrame) (b : Nat),
    let q := queueNo c vc
    let n := 32 * x.f.flits
    let d := if r.any fun y => y.blk = some b then s.dev else s.dev.countBlock b
    (s.dev.queue p q).spilled = x :: r → (s.dev.queue p q).sramFlits < 16384 → s.dev.partUsed (dieOf p) 1 + x.f.flits ≤ partFlits 1 →
    x.blk = some b → s.dev.spillPath (dieOf p) b = true → s.dev.mayBlock b = true →
    Runs (.spillReadback p c vc false) s
      (((((((d.modQueue p q fun Q =>
            { Q with spilled := r, sram := Q.sram ++ [{ x with blk := none }], spilling := !(r.isEmpty && Q.spillOpen.isEmpty) }).modKamro
          (dieOf p) fun k => { k with spillBytes := k.spillBytes - n }).modPort p fun x =>
            { x with spillRead := satAdd 64 x.spillRead n }).checkSpill p q).spillEvents p q).settleStaging (dieOf p)))) ∧
  (∀ (s : State) (p : Port) (c : TClass) (vc : Fin 9) (bad : Bool),
    (s.dev.queue p (queueNo c vc)).spilled = [] → (s.dev.queue p (queueNo c vc)).spillOpen = [] →
    Runs (.spillReadback p c vc bad) s (s.dev.modQueue p (queueNo c vc) fun Q => { Q with spilling := false })) ∧
  (∀ (s : State), s.dev.relay.groups = [] → s.dev.relay.waitWrites = [] → s.dev.sw.gWait = [] → s.dev.sw.roundWaits = [] →
    s.dev.xlate.copies = [] →
    Runs .roundBoundary s
      { s.dev with sw := { s.dev.sw with round := s.dev.sw.round + 1, gSent := [], admitted := [] },
                   resvs := s.dev.resvs.map fun e => (e.1, { e.2 with
                     cur := e.2.fields, effective := s.dev.effectiveOf e.2.fields, owner := if e.2.fields.valid then e.2.owner else 0,
                     ownerInst := if e.2.fields.valid then e.2.ownerInst else 0 }) }) ∧
  (∀ (s : State) (p : ExtPort), (s.dev.port p).repeats ≠ [] → (s.dev.port p).txPwr = 0 →
    Runs (.pacerAnswerRepeat p) s
      ((s.dev.modPort p fun x => { x with repeats := x.repeats.drop 5 }).emit
        (.ctrl p (mkCtrl ([0x02, BitVec.ofNat 8 ((s.dev.port p).repeats.take 5).length] ++ ((s.dev.port p).repeats.take 5).flatMap pacerBytes)))))

/-! ### The line in service -/

/-- Credit (R119): a LINK_STATE block sets LIMIT; LINK_STATE_SEND sends the limits of the nine channels; SYNC ends a discard and sets
the receiver's own counts. -/
def Obligations.CreditBlocks : Prop :=
  (∀ (s : State) (p : ExtPort) (b : CtrlBlock),
    4 ≤ (s.dev.port p).lstate → (s.dev.port p).lstate ≤ 7 → cchkOk b = true → ctype b = 0x01 → (cbNum b 1 1).testBit 0 = false →
    Runs (.linkState p b) s (s.dev.modPort p fun x => { x with limit := (List.range 9).map fun v => cbNum b (2 + 2 * v) 2 })) ∧
  (∀ (s : State) (p : ExtPort), 6 ≤ (s.dev.port p).lstate → (s.dev.port p).lstate ≤ 7 → (s.dev.port p).txPwr = 0 →
    let y := (s.dev.port p).advance s.dev.throttle s.dev.now
    let lim := (List.range 9).map (limitNow y)
    Runs (.linkStateSend p) s
      ((s.dev.modPort p fun _ => { y with limitSent := lim }).emit
        (.ctrl p (mkCtrl ([0x01, BitVec.ofNat 8 (b2n y.resyncReq)] ++ lim.flatMap fun n => le 2 n))))) ∧
  (∀ (s : State) (p : ExtPort) (b : CtrlBlock),
    4 ≤ (s.dev.port p).lstate → (s.dev.port p).lstate ≤ 7 → cchkOk b = true → ctype b = 0x03 →
    (s.dev.port p).owed = List.replicate 9 0 → (s.dev.port p).released.length = 9 →
    let sent := (List.range 9).map fun v => cbNum b (2 + 2 * v) 2
    Runs (.sync p b) s (s.dev.modPort p fun x =>
      { x with discarding := false, resyncReq := false, rcvd := sent,
               released := (List.range 9).map fun v =>
                 (x.released.getD v 0 + (sent.getD v 0 + 65536 - x.rcvd.getD v 0) % 65536) % 65536 }))

/-- Width changes (R287, R289): the first copy of a request without failed lanes changes the lanes sent, and starts an alignment and a
SYNC; an unanswered request is repeated; one that stays unanswered takes the port out of service. -/
def Obligations.WidthRequests : Prop :=
  (∀ (s : State) (p : ExtPort) (b : CtrlBlock),
    4 ≤ (s.dev.port p).lstate → (s.dev.port p).lstate ≤ 7 → cchkOk b = true → ctype b = 0x04 → cbNum b 2 1 ≠ 0 → cbNum b 4 1 = 0 →
    (cbNum b 3 1).testBit 0 = false → (cbNum b 5 1).testBit 0 = false →
    (∀ r, (s.dev.port p).widthApplied = some r → r.seq ≠ cbNum b 1 1) →
    Runs (.widthRequest p b) s
      ((((s.dev.modPort p fun x =>
          { x with txLanes := BitVec.ofNat 8 (cbNum b 2 1), txClkSrc := false, widthApplied := some (widthOf' b),
                   narrowings := satAdd 32 x.narrowings 1, lane7Clock := false, txPwr := 0 }).sendAlign p true).sendSync p).widthChanged p)) ∧
  (∀ (s : State) (p : ExtPort) (r : WidthReq), (s.dev.port p).widthOut = some r → (s.dev.port p).txPwr = 0 →
    Runs (.widthRequestRepeat p) s
      (s.dev.emit (.ctrl p (mkCtrl [0x04, BitVec.ofNat 8 r.seq, r.laneSet, BitVec.ofNat 8 (b2n r.clkSrc), r.failed, BitVec.ofNat 8 (b2n r.failedClk)])))) ∧
  (∀ (s : State) (p : ExtPort), (s.dev.port p).widthOut.isSome = true →
    Runs (.widthRequestUnanswered p) s (s.dev.leaveService p 9 (s.dev.port p).hold 0))

/-- Quiet and sleep (R290–R292): the peer's announcement is noted; WAKE and POWER_RESUME resume the transmitter with an alignment block
on every lane; an idle transmitter enters quiet and then sleep where PWR_POLICY allows. -/
def Obligations.LinkPowerStates : Prop :=
  (∀ (s : State) (p : ExtPort) (b : CtrlBlock),
    4 ≤ (s.dev.port p).lstate → (s.dev.port p).lstate ≤ 7 → cchkOk b = true → ctype b = 0x05 →
    (cbNum b 1 1 % 4 = 1 ∨ cbNum b 1 1 % 4 = 2) →
    Runs (.power p b) s (s.dev.modPort p fun x => { x with rxPwr := cbNum b 1 1 % 4 })) ∧
  (∀ (s : State) (p : ExtPort) (b : CtrlBlock),
    4 ≤ (s.dev.port p).lstate → (s.dev.port p).lstate ≤ 7 → cchkOk b = true → ctype b = 0x07 →
    ((s.dev.port p).txPwr = 1 ∨ (s.dev.port p).txPwr = 2) →
    Runs (.wake p b) s ((s.dev.modPort p fun x => { x with txPwr := 0 }).sendAlign p true)) ∧
  (∀ (s : State) (p : ExtPort), (s.dev.port p).lstate = 7 → (s.dev.port p).txPwr = 0 → 1 ≤ (s.dev.port p).pwrPolicy →
    s.dev.hasQueued p = false → s.dev.reservedOutput p = false →
    Runs (.quietEntry p) s ((s.dev.emit (.ctrl p (mkCtrl [0x05, 0x01]))).modPort p fun x => { x with txPwr := 1 })) ∧
  (∀ (s : State) (p : ExtPort), (s.dev.port p).lstate = 7 → (s.dev.port p).txPwr = 1 → (s.dev.port p).pwrPolicy = 2 →
    s.dev.hasQueued p = false → s.dev.reservedOutput p = false →
    Runs (.sleepEntry p) s ((s.dev.emit (.ctrl p (mkCtrl [0x05, 0x02]))).modPort p fun x => { x with txPwr := 2 })) ∧
  (∀ (s : State) (p : ExtPort), s.dev.hasQueued p = true → ((s.dev.port p).txPwr = 1 ∨ (s.dev.port p).txPwr = 2) →
    Runs (.powerResume p) s ((s.dev.modPort p fun x => { x with txPwr := 0 }).sendAlign p true))

/-- The stages of bring-up (R275–R277, R280, R298): each command takes the port on to its next LSTATE. CLOCK_DETECT_RETRY repeats the stage:
nothing of the port is lost. A codeword that decodes is counted with the symbols corrected on each lane, and the fourth in a row starts the
exchange; one that does not is a header-check failure. The steps of firmware pause during a handover (R406). An alignment block in order starts its period anew. -/
def Obligations.BringUpStages : Prop :=
  (∀ (s : State) (p : ExtPort), (s.dev.port p).lstate = 1 → s.dev.host.handover = false →
    Runs (.clockDetect p) s (s.dev.modPort p fun x => { x with lstate := 2 })) ∧
  (∀ (s : State) (p : ExtPort), (s.dev.port p).lstate = 1 →
    ∃ d, Runs (.clockDetectRetry p) s d ∧ d.port p = s.dev.port p ∧ ∀ q, q ≠ p.val → d.port q = s.dev.port q) ∧
  (∀ (s : State) (p : ExtPort) (inverted : Bool), (s.dev.port p).lstate = 2 → s.dev.host.handover = false →
    ∃ d, Runs (.phaseAlignment p inverted) s d ∧ (d.port p).lstate = 3 ∧ (∀ l ∈ (s.dev.port p).rxWanted, ((d.port p).lane l).phaseOk = true) ∧
      ∀ q, q ≠ p.val → d.port q = s.dev.port q) ∧
  (∀ (s : State) (p : ExtPort) (pass : BitVec 8), (s.dev.port p).lstate = 4 → s.dev.host.handover = false → ((s.dev.port p).rxWanted.all fun l => pass.getLsbD l) = true →
    ∃ d, Runs (.equalizationCheck p pass) s d ∧ (d.port p).lstate = 5 ∧ (d.port p).fecGood = 0 ∧
      ∀ l ∈ (s.dev.port p).rxWanted, ((d.port p).lane l).rxReady = true) ∧
  (∀ (s : State) (p : ExtPort) (done : BitVec 8), (s.dev.port p).lstate = 6 → s.dev.host.handover = false →
    Runs (.bringUpStageTimeout p done) s (s.dev.holdPort p 1)) ∧
  (∀ (s : State) (p : ExtPort) (inverted : Bool) (m : BitVec 8), s.dev.host.handover = true →
    Runs (.clockDetect p) s s.dev ∧ Runs (.phaseAlignment p inverted) s s.dev ∧ Runs (.equalizationCheck p m) s s.dev ∧
      Runs (.bringUpStageTimeout p m) s s.dev) ∧
  (∀ (s : State) (p : ExtPort) (levels : List (List (BitVec 2))) (n : Nat) (w : List Nat),
    let x := s.dev.port p
    let lanes := bitsOf 8 x.rxLanes.toNat
    let cw := (gatherCodeword lanes.length x.rxCw (x.corrected' lanes levels)).map (·.toNat)
    let msg := (w.take 128).map (BitVec.ofNat 10)
    4 ≤ x.lstate → x.lstate ≤ 7 → x.rxPwr = 0 → x.loop ≠ 7 → s.dev.host.handover = false → rsDecode cw = some (n, w) →
    ((takeMessage x msg).1.all fun b => b.isSome) = true →
    Runs (.codewordDecode p levels) s
      (let wrong (m : Nat) := ((List.range 136).filter fun j => laneOf lanes.length x.rxCw j = m && cw.getD j 0 ≠ w.getD j 0).length
       let d := s.dev.modPort p fun y => (takeMessage ((lanes.zip (List.range lanes.length)).foldl
         (fun s' e => noteErrors s.dev.now s' e.1 (wrong e.2)) { y with corrected := satAdd 64 y.corrected n, fecGood := y.fecGood + 1 }) msg).2
       (if x.lstate = 5 ∧ 3 ≤ x.fecGood ∧ x.lanesAgree = true then d.startExchange p else d).detectErrors p)) ∧
  (∀ (s : State) (p : ExtPort) (levels : List (List (BitVec 2))),
    let x := s.dev.port p
    let lanes := bitsOf 8 x.rxLanes.toNat
    let cw := gatherCodeword lanes.length x.rxCw (x.corrected' lanes levels)
    6 ≤ x.lstate → x.lstate ≤ 7 → x.rxPwr = 0 → x.loop ≠ 7 → rsDecode (cw.map (·.toNat)) = none →
    Runs (.codewordDecode p levels) s
      (((s.dev.modPort p fun y => (takeMessage (lanes.foldl (fun s' l => noteErrors s.dev.now s' l 5)
        { y with uncorrectable := satAdd 64 y.uncorrectable 1, fecGood := 0 }) (cw.take 128)).2).blockFailure p).detectErrors p)) ∧
  (∀ (s : State) (p : ExtPort) (lane : Fin 8) (b : AlignBlock),
    let c := if ((s.dev.port p).lane lane).inverted then invertBlock b else b
    (s.dev.port p).lstate = 7 → achkOk c = true → commaOk c = true → field c.toNat 64 4 = lane.val → (s.dev.port p).widthOut = none →
    (s.dev.port p).fallbackHold = false → (s.dev.port p).rxMapped.getLsbD lane.val = false →
    ∃ d, Runs (.alignmentBlock p lane b) s d ∧ (d.port p).rxPeriod = BitVec.ofNat 16 (field c.toNat 96 16) ∧
      (d.port p).peerLstage = field c.toNat 90 2 ∧ ((d.port p).lane lane).peerReady = c.getLsbD 137 ∧
      (d.port p).rxCw = 0 ∧ (d.port p).rxScr = BitVec.allOnes 58 ∧
      (((s.dev.port p).lane lane).lastPeriod = some (BitVec.ofNat 16 (field c.toNat 96 16) - 1) →
        ((d.port p).lane lane).commas = ((s.dev.port p).lane lane).commas + 1) ∧
      ((d.port p).lane lane).taps = (applyRequest ((s.dev.port p).lane lane) (BitVec.ofNat 10 (field c.toNat 124 10)) (field c.toNat 134 3)).taps) ∧
  (∀ (s : State) (p : ExtPort), (s.dev.port p).lstate = 7 → (s.dev.port p).txPwr = 1 →
    Runs (.periodStart p) s (s.dev.modPort p fun x => { x with period := x.period + 1 }))

/-- Lane and clock failures (R278, R286, R288, R289): the detector's report counts its event on the lane and fails the lane; a clock
fallback that is not answered and a credit stall take the port out of service with LSTATE 9. -/
def Obligations.LaneAndClockFailures : Prop :=
  (∀ (s : State) (p : ExtPort) (lane : Fin 8), (s.dev.port p).detects = true → (s.dev.port p).rxMapped.getLsbD lane = false →
    Runs (.laneLossOfSignal p lane) s
      ((s.dev.modPort p fun x => x.modLane lane fun n => { n with losEvents := satAdd 32 n.losEvents 1 }).lanesFail p [lane.val] 1)) ∧
  (∀ (s : State) (p : ExtPort) (lane : Fin 8), (s.dev.port p).detects = true → (s.dev.port p).rxMapped.getLsbD lane = false →
    Runs (.laneLossOfLock p lane) s
      ((s.dev.modPort p fun x => x.modLane lane fun n => { n with lolEvents := satAdd 32 n.lolEvents 1, commas := 0 }).lanesFail p
        [lane.val] 2)) ∧
  (∀ (s : State) (p : ExtPort) (lane : Fin 8), (s.dev.port p).detects = true → (s.dev.port p).rxMapped.getLsbD lane = false →
    Runs (.symbolErrors p lane) s (s.dev.lanesFail p [lane.val] 3)) ∧
  (∀ (s : State) (p : ExtPort), (s.dev.port p).detects = true → (s.dev.port p).rxMapped.getLsbD 8 = false →
    Runs (.clockLossOfSignal p) s
      ((s.dev.modPort p fun x => x.modLane 8 fun n => { n with losEvents := satAdd 32 n.losEvents 1 }).lanesFail p [8] 1)) ∧
  (∀ (s : State) (p : ExtPort), (s.dev.port p).fallbackHold = true →
    Runs (.clockFallbackTimeout p) s (s.dev.leaveService p 9 (s.dev.port p).hold ((s.dev.port p).lane 8).cause)) ∧
  (∀ (s : State) (p : ExtPort) (vc : Fin 9) (q : Nat) (x : QFrame) (r : List QFrame), (s.dev.port p).lstate = 7 → (s.dev.port p).txPwr = 0 →
    (s.dev.port p).rxPwr = 0 → q < 25 → (s.dev.queue p q).sram = x :: r → x.f.vc = vc.val → s.dev.creditCovers p x.f = false →
    Runs (.creditStall p vc) s (s.dev.leaveService p 9 (s.dev.port p).hold 0))

/-- Bundles and checks (R159, R161, R293): a probe without an answer makes the direction's STATE 3 and its frames are routed again; a
bundle none of whose members came up is lost; an in-service check runs on a port in service, and its end reads every lane's BER. -/
def Obligations.BundlesAndChecks : Prop :=
  (∀ (s : State) (dir : Dir), (s.dev.detour dir).state = 1 →
    Runs (.detourProbeTimeout dir) s (((s.dev.setDetour dir 3 3).rerouteDir dir fun _ => true).abortDead)) ∧
  (∀ (s : State) (dir : Dir), (s.dev.detour dir).started = false → linkAllowed s.dev.rt s.dev.rack dir = true →
    (s.dev.detour dir).state = 0 → ((s.dev.bundle dir).any s.dev.inService) = false →
    Runs (.bundleStartupTimeout dir) s (s.dev.loseBundle dir)) ∧
  (∀ (s : State) (p : ExtPort), (s.dev.port p).lstate = 7 → s.dev.checksSuspended p = false →
    Runs (.inServiceCheckStart p) s (s.dev.modPort p fun x => { x with checkRunning := true })) ∧
  (∀ (s : State) (p : ExtPort) (errs : List Nat) (bits : Nat), (s.dev.port p).checkRunning = true →
    (∀ l, l ∈ bitsOf 8 (s.dev.port p).rxLanes.toNat → errs.getD l 0 * 2000000 ≤ bits) →
    ∃ d, Runs (.inServiceCheckEnd p errs bits) s d ∧ (d.port p).checkRunning = false ∧
      (∀ l, l ∈ bitsOf 8 (s.dev.port p).rxLanes.toNat → ((d.port p).lane l).lastBer = ratioFp32 (errs.getD l 0) bits) ∧
      ∀ q, q ≠ p.val → d.port q = s.dev.port q)

/-- A link-local frame of the exchange that is good in all that R117 asks of it counts as received in class M, and does what R282 says: LINK_HELLO
(R283) and PROFILE_IDENT (R86) that fit the port pass the identity checks and are kept; CREDIT_INIT sets LIMIT to the peer's allotments and SENT to 0;
RTT_PROBE is answered by RTT_ECHO with the same bytes; RTT_ECHO gives one sample, the time since the probe was sent; LINK_READY is noted; LINK_DOWN
takes the port out of service (R289), with reason 3 till the end of the drill that sent it (R379). Each is followed by the attempt to enter service. -/
def Obligations.LinkLocalFrames : Prop :=
  ∀ (s : State) (p : ExtPort) (f : Frame) (op len : Nat), let d := s.dev.countFrame p f
    (s.dev.port p).discarding = false → f.hchkOk = true → f.checkOk = true → f.op.toNat = op → f.cls = .m → f.hops = 0 →
    f.payload.length = len → (s.dev.port p).lstate = 6 →
    (op = 0x52 → len = 32 → (s.dev.port p).kind = 2 → torusCheck s.dev p f.payload = 0 →
      Runs (.linkHello p f) s ((d.modPort p fun x => { x with profileOk := true, hello := f.payload }).tryReady p)) ∧
    (op = 0x50 → len = 32 → (s.dev.port p).kind = 1 → profileFits f.payload = true →
      Runs (.profileIdent p f) s
        (((d.modPort p fun x => { x with profile := f.payload }).modPort p fun x => { x with profileOk := true }).tryReady p)) ∧
    (op = 0x53 → len = 32 →
      Runs (.creditInit p f) s
        ((d.modPort p fun x => { x with creditSeen := true, sent := List.replicate 9 0,
                                            limit := (List.range 9).map fun v => num f.payload (2 * v) 2 }).tryReady p)) ∧
    (op = 0x54 → len = 16 → Runs (.rttProbe p f) s (d.sendLinkLocal p 0x55 f.payload)) ∧
    (op = 0x55 → len = 16 → (s.dev.port p).rttSamples.length < 7 →
      Runs (.rttEcho p f) s (d.modPort p fun x => { x with rttSamples := x.rttSamples ++ [s.dev.now - num f.payload 0 8] })) ∧
    (op = 0x56 → len = 8 → Runs (.linkReady p f) s ((d.modPort p fun x => { x with readySeen := true }).tryReady p)) ∧
    (op = 0x57 → len = 8 → Runs (.linkDown p f) s ((d.leaveService p 0 0 0).modPort p fun x => { x with dropDrill := num f.payload 0 1 = 3 }))

/-! ### The pool homes -/

/-- Every operation of R55 but FLUSH, on one line, at a home where nothing is under way (R34, R57–R63, R72): once its form, its alignment
and its region allow it, the line holds what `lineEffect` gives, under the region's key, its OWNER is the region's slice, every other line keeps its bytes and its
metadata, and an operation that is not posted is answered OK, with the old value or the data where the operation returns any.
Choices of the model that this writes out: an operation carried through at once (log 9), a mask of zero (log 48), how encrypted bytes are
kept (log 53). -/
def Obligations.HomeOpsPerform : Prop :=
  ∀ e ∈ [(Instr.load, opLOAD), (Instr.store, opSTORE), (Instr.storePosted, opSTORE_POSTED), (Instr.storeMasked, opSTORE_MASKED),
      (Instr.storeMaskedPosted, opSTORE_MASKED_POSTED), (Instr.atomicAdd, 0x10), (Instr.atomicMin, 0x11), (Instr.atomicMax, 0x12),
      (Instr.fetchAdd, 0x14), (Instr.fetchMin, 0x15), (Instr.fetchMax, 0x16), (Instr.cas, opCAS), (Instr.reduceStore, opREDUCE_STORE)],
  ∀ (s : State) (pp : PoolPort) (f : Frame) (i : Nat) (r : Region) (line : Nat),
    s.dev.calm → (s.dev.home (pp.val / 4)).up = true → f.op.toNat = e.2 → f.hchkOk = true → f.checkOk = true → f.conf = false → f.cm = false →
    f.resend = false → s.dev.tornDown f.slice.toNat = false → (usesDtype e.2 = true → f.dtype.toNat < 8) → (s.dev.home (pp.val / 4)).dedupe = [] →
    s.dev.pool.state ≠ 0 → s.dev.disabled f.slice.toNat 3 = false → inPool f.offset.toNat = true → formOk f = true → alignedOk f = true →
    opLines f = [line] → s.dev.isMirror f = false → s.dev.judge f (touched f) = .ok (i, r) → s.dev.dieLost line = false →
    s.dev.pool.isMappedOut (pageOfLine line) = false → (s.dev.pool.lineMeta line).poison = false →
    let old := s.dev.pool.seen line r.slice (s.dev.regionCipher r)
    ∃ x : Dev, Runs (e.1 pp f {}) s
        (if isPosted e.2 then x
         else x.reply (144 + pp.val) f 0 0
           (if e.2 = opLOAD || e.2 = opCAS || (isAtomicOp e.2 && atomicFetches e.2) then some (lineEffect f line old).2 else none)).serveHeld ∧
      (∀ new, (lineEffect f line old).1 = some new →
        x.pool.mem = memWrites s.dev.pool.mem (64 * line) new ∧ x.pool.lineMeta line = { owner := r.slice, poison := false, cipher := s.dev.regionCipher r }) ∧
      ((lineEffect f line old).1 = none → x.pool.mem = s.dev.pool.mem ∧ x.pool.lineMeta line = s.dev.pool.lineMeta line) ∧
      (∀ l, l ≠ line → x.pool.lineMeta l = s.dev.pool.lineMeta l) ∧ x.ports = s.dev.ports ∧ x.prot = s.dev.prot ∧ x.host = s.dev.host ∧
      x.wire = s.dev.wire ∧ x.sw = s.dev.sw

/-- FLUSH (R61) at a home with no posted store of its stream pending is answered OK at once. An operation whose OP and LENGTH name nothing
a home performs is refused UNSUPPORTED (R11, R55), a misaligned one MISALIGNED (R57); one that is in order but not carried through at once
waits at its home with its number.
Choices of the model that this writes out: an operation carried through at once (log 9), FLUSH in STATE 0, set aside here (log 49), where a
disabled function is refused, set aside here (log 50). -/
def Obligations.HomeArrivals : Prop :=
  ∀ (s : State) (pp : PoolPort) (f : Frame) (e : HomeEnv), s.dev.calm → (s.dev.home (pp.val / 4)).up = true →
    f.hchkOk = true → f.checkOk = true → f.conf = false → f.cm = false → f.resend = false → s.dev.tornDown f.slice.toNat = false → (s.dev.home (pp.val / 4)).dedupe = [] →
    s.dev.pool.state ≠ 0 → s.dev.disabled f.slice.toNat 3 = false → inPool f.offset.toNat = true →
    let h := pp.val / 4
    let o : HomeOp := { id := (s.dev.home h).nextOp, pp := pp, f := f }
    let d := s.dev.modHome h fun x => { x with nextOp := x.nextOp + 1 }
    (f.op = 0x06 → f.length = 0 → Runs (.flush pp f e) s (d.reply (144 + pp.val) f 0 0 none)) ∧
    ∀ g ∈ [(Instr.load, opLOAD), (Instr.store, opSTORE), (Instr.storeMasked, opSTORE_MASKED), (Instr.atomicAdd, 0x10), (Instr.atomicMin, 0x11),
        (Instr.atomicMax, 0x12), (Instr.fetchAdd, 0x14), (Instr.fetchMin, 0x15), (Instr.fetchMax, 0x16), (Instr.cas, opCAS),
        (Instr.reduceStore, opREDUCE_STORE)], f.op.toNat = g.2 → (usesDtype g.2 = true → f.dtype.toNat < 8) →
      (formOk f = false → Runs (g.1 pp f e) s (d.refuseOp h o 0x09 0 none)) ∧
      (formOk f = true → alignedOk f = false → Runs (g.1 pp f e) s (d.refuseOp h o 0x0B 0 none)) ∧
      (formOk f = true → alignedOk f = true → e.atOnce = false →
        Runs (g.1 pp f e) s (d.modHome h fun x => { x with ops := x.ops ++ [o] }).serveHeld)

/-- The homes' own steps (R60, R72, R74, R76, R251, R252): a line step is issued to its line's queue; the step at the head of a line's
queue is performed, and the last one completes its operation; a multi-line write with every line held commits as one; a buffered posted
store that may proceed leaves the buffer; a dedupe entry and a stream's entry end at their time.
Choices of the model that this writes out: when a step comes (log 9), the block and operations sent again (log 195). -/
def Obligations.HomeSteps : Prop :=
  (∀ (s : State) (h : PoolDie) (id line : Nat) (o : HomeOp), s.dev.hop h id = some o → s.dev.stepReady h o = true → o.issued ≠ 0 →
    (opLines o.f)[o.issued]? = some line → s.dev.dieLost line = false → s.dev.lineTakes line = true →
    Runs (.lineStep h id) s
      (((s.dev.modPool fun p => { p with lineQ := tmod p.lineQ line [] fun q => q ++ [⟨h, o.id⟩] }).modOp h o.id
        fun o => { o with issued := o.issued + 1 }).serveHeld)) ∧
  (∀ (s : State) (h line : Nat) (st : LineStep) (q : List LineStep) (o : HomeOp) (r : Nat), tget s.dev.pool.lineQ line [] = st :: q →
    st.home = h → s.dev.pool.lineHeld = [] → s.dev.pool.bankHeld line = false → s.dev.hop h st.op = some o → isMultiWrite o.f = false →
    s.dev.pool.isMappedOut (pageOfLine line) = false → (s.dev.pool.lineMeta line).poison = false → o.region = some r →
    o.got.length + 1 = (opLines o.f).length →
    s.dev.mayStep (chanOf (64 * line)) 1 = true →
    let e := (s.dev.countSteps (chanOf (64 * line)) 1).storeLine o line
    Runs (.linePerform line none) s
      (((e.1.popLine line).completeOp h o (joinParts (o.got ++ [(line, e.2)]) (opLines o.f))).serveHeld)) ∧
  (∀ (s : State) (h : PoolDie) (id r : Nat) (o : HomeOp), s.dev.hop h id = some o → o.fail = none → isMultiWrite o.f = true →
    o.held.length = (opLines o.f).length → o.region = some r →
    Runs (.multilineCommit h id) s
      (((eachOf o.held s.dev fun d line => ((d.storeLine o line).1).popLine line).completeOp h o []).serveHeld)) ∧
  (∀ (s : State) (h : PoolDie) (e : HomeEnv) (o : HomeOp), (s.dev.home h).posted.find? (fun o => s.dev.postedReady h o) = some o →
    e.atOnce = false →
    Runs (.postedBufferRelease h e) s
      ((s.dev.modHome h fun x =>
          let rest := x.posted.filter fun y => y.id ≠ o.id
          { x with posted := rest, ops := x.ops ++ [o], withheld := decide (8192 ≤ rest.length) }).serveHeld)) ∧
  (∀ (s : State) (h : PoolDie) (src : BitVec 16) (tag : BitVec 32),
    ∃ d, Runs (.dedupeEntryExpiry h src tag) s d ∧ (∀ x ∈ (d.home h).dedupe, ¬ (x.src = src ∧ x.tag = tag)) ∧
      (∀ x ∈ (s.dev.home h).dedupe, ¬ (x.src = src ∧ x.tag = tag) → x ∈ (d.home h).dedupe) ∧ (∀ k, k ≠ h.val → d.home k = s.dev.home k) ∧
      d.pool = s.dev.pool) ∧
  (∀ (s : State) (src : BitVec 16) (st : BitVec 14),
    Runs (.streamTableTimeout src st) s
      ((s.dev.modPool fun p => { p with streams := p.streams.filter fun e => !(e.src = src && e.stream = st) }).serveHeld))

/-- The pool's own events (R254, R258–R260, R264, R266, R267, R370).
SWEEP_LAP (R258): every line of the slices whose pending sweep ends reads zero and is owned by slice 0; every other line keeps its bytes and
its metadata; the sweeps of the other slices go on.
Choices of the model that this writes out: CODE of a refusal's record (log 47), one lap is one step (log 51), when areas change (log 101),
what a die's reset ends (log 103), which slices a lap ends (log 187). -/
def Obligations.PoolEvents : Prop :=
  (
  (∀ (s : State) (ch : Fin 384) (r : RowRepair), s.dev.pool.repairing.find? (fun x => x.chan = ch.val) = some r →
    ∃ d, Runs (.rowRepairDone ch []) s d ∧ d.pool.softRepairs = s.dev.pool.softRepairs ++ [r] ∧ d.pool.repairs = s.dev.pool.repairs + 1 ∧
      d.pool.mem = s.dev.pool.mem ∧ d.pool.lmeta = s.dev.pool.lmeta) ∧
  (∀ (s : State) (line : Nat),
    Runs (.patrolRead line none true) s (s.dev.modPool fun p => { p with patrolDone := s.dev.now }) ∧
    Runs (.patrolRead line none false) s s.dev) ∧
  (∀ (s : State), s.dev.pool.state = 0 → 2 ≤ s.dev.power.releaseStep →
    Runs .poolInitDone s (s.dev.modPool fun p =>
      { p with state := 1, mem := [], lmeta := [], sweeping := [], contexts := [], softRepairs := [] })) ∧
  (∀ (s : State) (die : PoolDie),
    ∃ x : Dev, Runs (.poolDieReset die) s (x.fault (mkRec 4 0x06 6 (obj 0x18 0) [(32, 2, 96 * die.val)])) ∧ x.pool.state = 3 ∧
      x.pool.diesLost.contains die.val = true ∧ (∀ c ∈ x.pool.mem, homeOfLine (c.1 / 64) ≠ die.val) ∧
      (∀ c ∈ x.pool.lmeta, homeOfLine c.1 ≠ die.val)) ∧
  (∀ (s : State) (die : PoolDie), s.dev.pool.diesLost = [die.val] → s.dev.pool.mappedExtra = [] →
    ∃ x : Dev, Runs (.poolDieReturn die) s (x.fault (mkRec 17 0 0 (obj 0x38 0))) ∧ x.pool.state = 1 ∧ x.pool.diesLost = [] ∧
      x.faults.ring = [] ∧ x.faults.tailSeq = s.dev.faults.headSeq ∧ x.pool.mem = s.dev.pool.mem) ∧
  (∀ (s : State) (id : Nat), s.dev.pool.areaChange = some id →
    Runs .poolAreasZeroed s ((s.dev.modPool fun p => { p with areaChange := none }).finishWait id 0 0)) ∧
  (∀ (s : State) (die : PoolDie) (ctx : Fin 16) (ecc : List (Nat × Ecc)) (reg n : Nat) (d : Dev),
    let i := 16 * die.val + ctx.val
    let c := s.dev.checkCtx i
    c.state = 1 → c.mode = 0 → c.cont = false → s.dev.checkScan c ecc (linePieces c.offset c.length) (checkInit c.poly) 0 = ((reg, n, none), d) →
    Runs (.checkJobDone die ctx ecc) s
      (d.modCheck i fun x =>
        { x with state := 2, status := 0, done := n, running := BitVec.ofNat 64 (reg ^^^ checkXor c.poly), isMatch := false }))
  ) ∧ (
  ∀ (s : State) (ends : List (BitVec 10)),
    let done := s.dev.pool.sweeping.filter fun i => ends.contains (BitVec.ofNat 10 i)
    let owned (line : Nat) : Bool := s.dev.pool.lmeta.any fun e => e.1 = line && done.contains e.2.owner.toNat
    s.dev.host.handover = false →
    ∃ d, Runs (.sweepLap ends []) s d ∧
      (∀ line, owned line = true → (∀ k, k < 64 → memRead d.pool.mem (64 * line + k) = 0) ∧ d.pool.lineMeta line = {}) ∧
      (∀ line, owned line = false → (∀ k, k < 64 → memRead d.pool.mem (64 * line + k) = memRead s.dev.pool.mem (64 * line + k)) ∧
        d.pool.lineMeta line = s.dev.pool.lineMeta line) ∧
      ∀ i, i ∈ d.pool.sweeping ↔ i ∈ s.dev.pool.sweeping ∧ i ∉ done
  )

/-! ### Internal requesters -/

/-- The module's own requests (R62, R70, R75, R83): the first completion of an outstanding tag ends it; one with RETRY_LATER blocks
its target for the operation's stream until the back-off elapses and defers the operation, or ends it after its 16th re-send;
after a time-out one retry is sent, and the second ends it with TIMEOUT; the back-off of a node elapses; the limiter falls by a quarter at a
notice, rises by 1/32 of link rate and gives its entry up at link rate.
The limiter's fall (R83): at an endpoint with a full-rate entry, a notice makes it three quarters of link rate, and a second notice
within 4 µs leaves it there.
Choices of the model that this writes out: the limiter delays nothing (log 35), which completions move the limiter (log 114), the code of a
lost operation (log 180), a retry carries RETRY alone (log 182). -/
def Obligations.RequesterEvents : Prop :=
  (
  (∀ (s : State) (p : Port) (f : Frame) (o : OutOp), f.hchkOk = true → f.checkOk = true → f.op = 0x30 → s.dev.tornDown f.slice.toNat = false →
    f.conf = false → f.status ≠ 0x08 → f.backoff ≤ 10 → f.echo = false →
    s.dev.req.ops.find? (fun o => o.tag = f.tag && o.phase = .flying) = some o →
    Runs (.completion p f) s (s.dev.endOut o (fateCode f.status) (padTo o.f.length.toNat f.payload))) ∧
  (∀ (s : State) (p : Port) (f : Frame) (o : OutOp), f.hchkOk = true → f.checkOk = true → f.op = 0x31 → s.dev.tornDown f.slice.toNat = false →
    f.conf = false → f.status ≠ 0x08 → f.backoff ≤ 10 → f.echo = false →
    s.dev.req.ops.find? (fun o => o.tag = f.tag && o.phase = .flying) = some o →
    Runs (.completionData p f) s (s.dev.endOut o (fateCode f.status) (padTo o.f.length.toNat f.payload))) ∧
  (∀ (s : State) (p : Port) (f : Frame) (o : OutOp), f.hchkOk = true → f.checkOk = true → s.dev.tornDown f.slice.toNat = false →
    f.conf = false → f.status = 0x08 → f.backoff ≤ 10 → f.echo = false →
    s.dev.req.ops.find? (fun o => o.tag = f.tag && o.phase = .flying) = some o →
    let d := s.dev.modCtx (tagStream o.tag) fun c => { c with blocked := (c.blocked.filter fun b => b.1 ≠ o.f.dst) ++ [(o.f.dst, false)] }
    let e := if o.resends < 16 then d.setOp { o with phase := .refused } else d.endOut o 0x08 []
    (f.op = 0x30 → Runs (.completion p f) s e) ∧ (f.op = 0x31 → Runs (.completionData p f) s e)) ∧
  (∀ (s : State) (p : Port) (f : Frame) (c : StreamCtx), f.hchkOk = true → f.checkOk = true → s.dev.tornDown f.slice.toNat = false →
    f.conf = false → s.dev.ctx (tagStream f.tag) = some c →
    Runs (.congNotice p f) s (s.dev.limiterDecrease c.ep f.src)) ∧
  (∀ (s : State) (tag : BitVec 32) (o : OutOp) (c : StreamCtx), s.dev.req.ops.find? (fun o => o.tag = tag && o.phase = .flying) = some o →
    s.dev.notPresented o = false → s.dev.ctx (tagStream tag) = some c →
    (o.retried = true → Runs (.requesterTimeout tag) s (s.dev.endOut o 0x05 [])) ∧
    (o.retried = false → c.timeoutUs ≤ 60 →
      Runs (.requesterTimeout tag) s ((s.dev.setOp { o with retried := true }).sendAttempt c { o with retried := true }))) ∧
  (∀ (s : State) (st : BitVec 14) (node : BitVec 16),
    Runs (.backoffElapsed st node) s
      ((s.dev.modCtx st.toNat fun c => { c with blocked := c.blocked.map fun b => if b.1 = node then (node, true) else b }).resendRefused
        st.toNat node)) ∧
  (∀ (s : State) (ep : Fin 13) (node : BitVec 16) (l : Limiter), s.dev.req.limiters = [l] → l.ep = ep.val → l.node = node →
    Runs (.limiterIncrease ep node) s
      { s.dev with req := { s.dev.req with limiters := [{ l with rate := min (2 ^ 40) (l.rate + 2 ^ 35) }] } }) ∧
  (∀ (s : State) (ep : Fin 13) (node : BitVec 16) (l : Limiter), s.dev.req.limiters = [l] → l.ep = ep.val → l.node = node →
    l.rate = 2 ^ 40 → Runs (.limiterEntryFree ep node) s { s.dev with req := { s.dev.req with limiters := [] } })
  ) ∧ (
  ∀ (d : Dev) (ep : Nat) (node : BitVec 16) (l : Limiter), d.req.limiters = [l] → l.ep = ep → l.node = node → l.lastDec = none →
    let e := d.limiterDecrease ep node
    e.req.limiters = [{ l with rate := max (2 ^ 32) (l.rate * 3 / 4), lastDec := some d.now }] ∧
      (∀ t, d.now ≤ t → t < d.now + 4000 → ({ e with now := t }.limiterDecrease ep node) = { e with now := t })
  )

/-! ### In-fabric combining -/

/-- The combining unit's entries (R78–R82): an entry under watch ends with its window; an open one sends its combined request and returns
the records it did not use; a combined request that times out is retried once under its tag; a completion that is not OK gives every member
its status, one that is OK gives each fetch its value in joining order (`memberValue`); a member's stored answer ends with its record.
Choices of the model that this writes out: the pacer does not judge its completions (log 27), the code of a lost operation (log 180). -/
def Obligations.CombiningEntries : Prop :=
  (∀ (s : State) (k : Kamro) (id : Nat),
    Runs (.combineWatchExpiry k id) s
      (s.dev.modKamro k fun x => { x with combine := x.combine.filter fun e => !(e.id = id && e.st = .watch) })) ∧
  (∀ (s : State) (k : Kamro) (id : Nat) (e : CombEntry),
    ((s.dev.kamro k).combine.find? fun e => e.id = id && e.st = .opened) = some e →
    let tag := BitVec.ofNat 32 ((0x3FFE + k.val) * 2 ^ 18 + (s.dev.kamro k).combSeq % 2 ^ 18)
    let e' := { e with st := .sent, tag := tag }
    Runs (.combineOpenTimer k id) s
      ((s.dev.modKamro k fun x =>
        { x with combine := x.combine.map fun y => if y.id = id then e' else y, combSeq := x.combSeq + 1,
                 reserved := x.reserved - (32 - e.members.length) }).inject (combPort k) (combinedFrame s.dev.node e' false))) ∧
  (∀ (s : State) (k : Kamro) (id : Nat) (e : CombEntry),
    ((s.dev.kamro k).combine.find? fun e => e.id = id && e.st = .sent) = some e → e.retried = false →
    Runs (.combinedRequestTimeout k id) s
      ((s.dev.modKamro k fun x =>
        { x with combine := x.combine.map fun y => if y.id = id then { y with retried := true } else y }).inject (combPort k)
          (combinedFrame s.dev.node e true))) ∧
  (∀ (s : State) (k : Kamro) (f : Frame) (e : CombEntry), f.hchkOk = true → f.checkOk = true →
    s.dev.tornDown f.slice.toNat = false → f.conf = false → f.backoff ≤ 10 →
    ((s.dev.kamro k).combine.find? fun e => e.st = .sent && e.tag = f.tag) = some e →
    let left := s.dev.modKamro k fun x => { x with combine := x.combine.filter fun y => y.id ≠ e.id }
    let answered (d : Dev) (m : Member) (a : Frame) : Dev :=
      (d.modKamro k fun x => { x with records := x.records.map fun r =>
        if r.src = m.f.src && r.tag = m.f.tag then { r with done := some a } else r }).inject (combPort k) a
    let answer (d : Dev) (m : Member) (v : Option (List Byte)) : Frame :=
      answerTo d.node { m.f with cm := m.cm || f.echo } (fateCode f.status) f.backoff v
    (f.status ≠ 0 → Runs (.combinedCompletion k f) s (e.members.foldl (fun d m => answered d m (answer d m none)) left)) ∧
    (f.status = 0 → Runs (.combinedCompletion k f) s ((e.members.zip (List.range e.members.length)).foldl (fun d mi =>
      answered d mi.1 (answer d mi.1 (if atomicFetches mi.1.f.opn then some (le e.length.toNat (memberValue e (unle f.payload) mi.2)) else none)))
      left))) ∧
  (∀ (s : State) (k : Kamro) (src : BitVec 16) (tag : BitVec 32),
    ∃ d, Runs (.memberRecordExpiry k src tag) s d ∧
      (∀ r ∈ (d.kamro k).records, ¬ (r.src = src ∧ r.tag = tag ∧ r.done.isSome)) ∧
      (∀ r ∈ (s.dev.kamro k).records, r.src = src → r.tag = tag → r.done = none → r ∈ (d.kamro k).records) ∧
      (∀ j, j ≠ k.val → d.kamro j = s.dev.kamro j))

/-- What a combined fetch gives its members (R80): for an ADD of 4-byte integers, member i receives V plus the operands of the members
before it, modulo 2^32, so that the members' results are those of the requests performed one after another in joining order. -/
def Obligations.CombinedAddIsSerial : Prop :=
  ∀ (e : CombEntry) (v i : Nat), e.kind = 0 → e.dtype = 0 → i ≤ e.members.length → v < 2 ^ 32 →
    memberValue e v i = (v + ((e.members.take i).map fun m => unle m.f.payload).sum) % 2 ^ 32

/-! ### Relay engines -/

/-- The relay window (R170, R171, R176): a launch word with the next LAUNCH_SEQ is answered OK, the launch starts and the request is kept
for its retry; member data joins the accumulators of its chunk; a FLUSH is answered OK; data that is no operation of the window, or comes
while no launch runs, is refused.
Choices of the model that this writes out: a full dedupe table (log 54), when FLUSH is answered (log 67), FLUSH with bits 22:16 (log 200), a
chunk's slot starts empty (log 201). -/
def Obligations.RelayWindow : Prop :=
  (∀ (s : State) (pp : PoolPort) (f : Frame) (gi root : Nat) (q : BitVec 16),
    s.dev.relayHears pp f → inRelay f.offset.toNat = true → s.dev.groupOf f.key f.slice = some gi → s.dev.disabled f.slice.toNat 0 = false →
    f.op = 0x02 → f.length = 8 → f.cls = .g → f.offset.toNat = 0x800100008000 → num f.payload 0 8 = q.toNat + 65536 * root → root < 65536 →
    (s.dev.localIndex (s.dev.group gi) f.src).isSome = true → q = (s.dev.group gi).launchSeq + 1 → (s.dev.group gi).state = 1 →
    (s.dev.group gi).slice = f.slice → (s.dev.home (pp.val / 4)).relayDedupe = [] →
    let h := pp.val / 4
    let d := s.dev.startLaunch gi q root
    let d := if (d.home h).relayDedupe.length < 65536 then d.modHome h fun x => { x with relayDedupe := x.relayDedupe ++ [⟨f.src, f.tag, []⟩] }
      else d
    Runs (.launchWord pp f) s (d.reply (144 + pp.val) f 0 0 none)) ∧
  (∀ (s : State) (pp : PoolPort) (f : Frame) (gi j : Nat),
    s.dev.relayHears pp f → inRelay f.offset.toNat = true → s.dev.groupOf f.key f.slice = some gi → s.dev.disabled f.slice.toNat 0 = false →
    f.op = 0x03 → f.cls = .g → f.length.toNat ∈ [64, 128, 2048] →
    let g := s.dev.group gi
    let l := s.dev.launch gi
    let w := f.offset.toNat - 0x800100000000
    let n := relaySize g.dtype
    let c := chunkOf l.lowest w
    let off := field w 0 15
    let fin := off + f.length.toNat
    g.state = 3 → g.coll = 0 → s.dev.localIndex g f.src = some j → w.testBit 15 = false → field w 16 7 = 0 → off % 64 = 0 →
    c < min (l.lowest + 2 * g.depth) g.chunkCount → fin ≤ g.chunkLen c * n →
    let ch := s.dev.chunk gi c
    let grans := (upTo (fin / 64)).drop (off / 64)
    (∀ x ∈ grans, ch.granules.contains (j, x) = false) →
    let vs := (chunksOf n f.payload).map fun e => widen g.dtype (unle e)
    let ch' := { ch with granules := ch.granules ++ grans.map fun x => (j, x),
                         acc := (vs.zip (upTo vs.length)).foldl (fun acc x => lmod acc (off / n + x.2) fun a => accumulate g a x.1) ch.acc }
    Runs (.relayData pp f) s ((s.dev.setChunk gi c ch').goOn gi c)) ∧
  (∀ (s : State) (pp : PoolPort) (f : Frame), s.dev.relayHears pp f → inRelay f.offset.toNat = true → f.op = 0x06 →
    (s.dev.home (pp.val / 4)).relayDedupe = [] →
    Runs (.relayFlush pp f) s (s.dev.reply (144 + pp.val) f 0 0 none)) ∧
  (∀ (s : State) (pp : PoolPort) (f : Frame), s.dev.relayHears pp f → inRelay f.offset.toNat = true →
    (s.dev.home (pp.val / 4)).relayDedupe = [] →
    (f.op = 0x01 → s.dev.disabled f.slice.toNat 0 = false → Runs (.relayData pp f) s (s.dev.reply (144 + pp.val) f 0x09 0 none)) ∧
    (∀ gi, f.op = 0x02 → f.cls = .g → f.length = 64 → f.offset.toNat % 65536 < 32768 → field (f.offset.toNat - 0x800100000000) 16 7 = 0 →
      s.dev.groupOf f.key f.slice = some gi → s.dev.disabled f.slice.toNat 0 = false → (s.dev.group gi).state = 1 →
      Runs (.relayData pp f) s (s.dev.reply (144 + pp.val) f 0x07 0 none)))

/-- Frames of a running launch (R176, R179, R180, R184). The first frame of a ring step of several is taken into its chunk; a STEP baton ends the
step it answers, a READY baton of the same CRC from a neighbour of the ring opens it; the first frame of a block of an all-to-all is answered with
its baton and written to its member; GROUP_ABORT aborts with cause 9. A frame that belongs to no group of the module is discarded and counted.
Choices of the model that this writes out: where a frame of no group counts (log 60), an early READY baton (log 63). -/
def Obligations.RelayFrames : Prop :=
  ∀ (s : State) (pp : PoolPort) (f : Frame) (gi : Nat), s.dev.relayHears pp f →
    let g := s.dev.group gi
    let b := f.payload
    let c := num b 2 3
    let axis := num b 5 1 / 64
    let gather := (num b 5 1).testBit 5
    let fr := num b 5 1 % 32
    let step := num b 6 1 / 16
    let total := num b 7 1
    (s.dev.groupOf f.key f.slice = some gi → BitVec.ofNat 16 (num b 0 2) = g.launchSeq → g.state = 3 →
      (∀ (i : Nat) (p : Pass), (s.dev.passes g).findIdx (fun p => p.ring.pos = axis && p.gather = gather) = i → (s.dev.passes g)[i]? = some p →
        f.op = 0x60 → 0 < step → step < p.ring.n → 1 < total → total ≤ 31 → fr < total → c < g.chunkCount → (s.dev.chunk gi c).recv = [] →
        Runs (.ringData pp f) s
          (s.dev.setChunk gi c (s.dev.takeRing gi c
            { s.dev.chunk gi c with
              recv := [{ axis := axis, gather := gather, step := step, total := total, bits := 2 ^ fr }] } (s.dev.passes g) i step fr (b.drop 16)))) ∧
      (∀ (st : RingStep), f.op = 0x61 → (s.dev.launch gi).steps = [st] → st.chunk = c → st.dst = f.src → st.block = none → st.axis = axis →
        st.gather = gather → st.step = step → num b 8 4 = 2 ^ st.frames.length - 1 → total = 1 →
        let d := s.dev.modLaunch gi fun l => { l with steps := [] }
        Runs (.baton pp f) s ((d.setChunk gi c { d.chunk gi c with acked := true }).goOn gi c)) ∧
      (f.op = 0x61 → total = 0 → ((s.dev.rings g).any fun r => r.pos = axis && (r.down = f.src.toNat || r.up = f.src.toNat)) = true →
        num b 8 4 = groupCrc g → g.coll ≠ 3 → g.queued = none →
        let d := s.dev.modLaunch gi fun l => { l with ready := if l.ready.contains axis then l.ready else l.ready ++ [axis] }
        Runs (.baton pp f) s ((d.goOnAll gi).startQueued gi)) ∧
      (∀ (m : MemberEntry) (e : Nat), f.op = 0x63 → (s.dev.localMembers g).find? (fun m => m.1 = num b 10 2) = some (num b 10 2, m, e) → g.coll = 4 →
        c < g.chunkCount → fr < a2aFrames g c (num b 10 2) → num b 8 2 < g.members.length →
        (s.dev.chunk gi c).blocks.contains (num b 8 2, num b 10 2, fr) = false →
        let ch := s.dev.chunk gi c
        let d := (s.dev.sendBaton gi f.src.toNat c 0 0 (2 ^ fr)).setChunk gi c { ch with blocks := ch.blocks ++ [(num b 8 2, num b 10 2, fr)] }
        Runs (.a2aData pp f) s
          ((d.writeResult gi c m (m.result.toNat + num b 8 2 * g.blockLen * relaySize g.dtype + num b 12 4) (b.drop 16)).goOn gi c)) ∧
      (f.op = 0x62 → Runs (.groupAbortFrame pp f) s ((s.dev.abortLaunch gi 0x09 total false).startQueued gi))) ∧
    (s.dev.groupOf f.key f.slice = none →
      ∀ e ∈ [(Instr.ringData, 0x60#8), (Instr.baton, 0x61), (Instr.a2aData, 0x63), (Instr.groupAbortFrame, 0x62)], f.op = e.2 →
        Runs (e.1 pp f) s (s.dev.countDiscard (144 + pp.val) discReserved))

/-- Ends of a launch (R180, R183, R184): a step without its baton is sent again once, and after that the launch aborts with cause 2; no
progress aborts with cause 1, no resources with cause 7; a launch whose every result is written and drained is done, its record written and
its resources released.
What a launch does at once (R176): with its resources not to be had it waits in STATE 2 under its number, counted.
What an abort leaves (R184): a RELAY record with the cause, the group in STATE 5 with its status, its cause and one abort more, and no
launch; a group that runs nothing is left alone.
Choices of the model that this writes out: PROGRESS (log 61), GROUP_ABORT at the pacer (log 64). -/
def Obligations.LaunchesEnd : Prop :=
  (
  (
  (∀ (s : State) (gi : GroupSlot) (id : Nat) (st : RingStep),
    (s.dev.launch gi).steps.find? (fun x => x.id = id && !x.resent) = some st →
    Runs (.ringStepResend gi id) s
      (eachOf st.frames (s.dev.modLaunch gi fun l =>
        { l with steps := l.steps.map fun x => if x.id = id then { x with resent := true } else x }) fun d f => d.sendRelay (st.chunk % 16) f)) ∧
  (∀ (s : State) (gi : GroupSlot) (id : Nat) (st : RingStep), (s.dev.launch gi).steps = [st] → st.id = id → st.resent = true →
    Runs (.ringLost gi id) s ((s.dev.abortLaunch gi 0x02 0x05 true).startQueued gi)) ∧
  (∀ (s : State) (gi : GroupSlot), (s.dev.group gi).state = 3 →
    Runs (.launchStall gi) s ((s.dev.abortLaunch gi 0x01 0x05 true).startQueued gi)) ∧
  (∀ (s : State) (gi : GroupSlot), (s.dev.group gi).state = 2 →
    Runs (.launchResourceTimeout gi) s ((s.dev.abortLaunch gi 0x07 0x07 true).startQueued gi)) ∧
  (∀ (s : State) (gi : GroupSlot), (s.dev.group gi).state = 3 → (s.dev.launch gi).drained = (s.dev.group gi).chunkCount →
    Runs (.launchComplete gi) s
      ((((s.dev.writeRecords gi 2 0 0).dropLaunch gi).modGroup gi fun g =>
        { g with state := 4, lastStatus := 0, lastCause := 0, launch := none }).startQueued gi))
  ) ∧ (
  ∀ (d : Dev) (gi : Nat) (q : BitVec 16) (root : Nat), (d.group gi).early = [] →
    let e := d.modGroup gi fun g =>
      { g with launchSeq := q, state := 2, launches := satAdd 32 g.launches 1, queued := none, early := [],
               launch := some { root := root, turn := d.relay.waitTick } }
    let e := { e with relay := { e.relay with waitTick := e.relay.waitTick + 1 } }
    (e.takeLaunch gi = none → d.startLaunch gi q root = e) ∧
      ((∃ k, k < 16 ∧ 128 < tget d.relay.slots k 0 + (e.group gi).depth / 8) → d.startLaunch gi q root = e)
  )
  ) ∧ (
  ∀ (d : Dev) (gi cause status : Nat) (tell : Bool),
    ((d.group gi).state = 2 ∨ (d.group gi).state = 3 →
      ∃ x : Dev, d.abortLaunch gi cause status tell = x.fault (relayRec (d.group gi) gi cause) ∧ (x.group gi).state = 5 ∧
        (x.group gi).lastStatus = status ∧ (x.group gi).lastCause = cause ∧ (x.group gi).launch = none ∧
        (x.group gi).aborts = satAdd 32 (d.group gi).aborts 1) ∧
    ((d.group gi).state ≠ 2 → (d.group gi).state ≠ 3 → d.abortLaunch gi cause status tell = d)
  )

/-! ### Tiles -/

/-- Every tile instruction at a position that runs and whose predicate is false only advances (R205); at a position that does not run it
does nothing (R211, R214). -/
def Obligations.TilePredicateAndState : Prop :=
  ∀ (s : State) (pos : Position) (iss : Issue) (op : VOp) (rop : ROp) (fmt fb : Fmt) (mode : RMode) (fn : FnOp) (so : SramOp) (q : SeqOp)
    (dst a b c : VReg) (sa sb sc : MxScale) (init nan : Bool) (n off k dv di : Nat) (slot word : Fin 64) (r : Fin 32) (sp : Fin 2)
    (src : FnSrc) (wa : WordAt),
    ∀ e ∈ [Instr.vectorArithmetic pos op fmt mode dst a b c sa sb sc iss, .dotAccumulate pos fmt fb mode a b sa sb init iss,
        .convert pos fmt fb mode nan dst a sa sb iss, .crossLaneReduce pos rop fmt a r iss mode, .function pos fn dst src n iss mode,
        .topK pos fmt init off n k dv di iss, .sramAccess pos so iss.cycle iss.ecc iss.pred, .meshSend pos slot r word iss,
        .meshReceive pos slot wa iss.cycle iss.pred, .streamRead pos sp wa iss.cycle iss.pred, .streamWrite pos sp wa iss.cycle iss.pred iss.ecc, .sequencer pos q iss],
      ((s.dev.pos pos).state ≠ 2 → Runs e s s.dev) ∧
      (∀ p, (s.dev.pos pos).state = 2 → iss.pred = some p → (s.dev.pos pos).preds.contains p = false →
        Runs e s (s.dev.modPos pos PosSt.advance))

/-- Vector arithmetic (R195, R198, R205) on the lanes of a format: integer lanes give `intLane` of the operands' lanes and raise no flag;
fp32, bf16 and fp16 lanes give `floatLane`, and the flags raised stay set. Nothing but the destination, the flags and the place of the
sequencer changes. A rounding mode other than RNE is illegal and stops the position. -/
def Obligations.VectorArithmeticLanes : Prop :=
  ∀ (s : State) (pos : Position) (op : VOp) (dst a b c : VReg) (iss : Issue), s.dev.performs pos iss →
    let x := s.dev.pos pos
    (∀ (fmt : Fmt) (mode : RMode) (sa sb sc : MxScale), mode ≠ .rne →
      Runs (.vectorArithmetic pos op fmt mode dst a b c sa sb sc iss) s (s.dev.posFault pos fcIllegal (iss.cycle % 64) 0)) ∧
    (∀ fmt ∈ [Fmt.int32, .uint32, .int8, .uint8],
      let n := (laneForm fmt).1
      let w := (laneForm fmt).2.1
      let el (v : VReg) (used : Bool) (i : Nat) : Nat := if used then intEncode w (intDecode fmt (x.elem v (fmtBits fmt) i)) else 0
      operandOk dst w n = true → operandOk a (fmtBits fmt) n = true → ((vopUses op).1 = true → operandOk b (fmtBits fmt) n = true) →
      ((vopUses op).2 = true → operandOk c (fmtBits fmt) n = true) →
      Runs (.vectorArithmetic pos op fmt .rne dst a b c none none none iss) s
        (s.dev.modPos pos fun x =>
          (x.setElems dst w ((upTo n).map fun i =>
            intLane op (laneSigned fmt) w (el a true i) (el b (vopUses op).1 i) (el c (vopUses op).2 i))).advance)) ∧
    (∀ e ∈ [(Fmt.fp32, fmtFp32), (.bf16, fmtBf16), (.fp16, fmtFp16)],
      let n := (laneForm e.1).1
      let w := (laneForm e.1).2.1
      let el (v : VReg) (used : Bool) (i : Nat) : Nat := if used then x.elem v w i else 0
      let rs := (upTo n).map fun i => floatLane op e.2 w (el a true i) (el b (vopUses op).1 i) (el c (vopUses op).2 i)
      operandOk dst w n = true → operandOk a w n = true → ((vopUses op).1 = true → operandOk b w n = true) →
      ((vopUses op).2 = true → operandOk c w n = true) →
      Runs (.vectorArithmetic pos op e.1 .rne dst a b c none none none iss) s
        (s.dev.modPos pos fun x =>
          let y := x.setElems dst w (rs.map (·.1))
          PosSt.advance { y with flags := y.flags ||| rs.foldl (fun e r => e ||| r.2) 0 }))

/-- Elements written into a vector register operand are read back one by one, and an element of another place of the same width keeps its
value: the packing of elements of 4 to 32 bits into the registers loses and disturbs nothing (R191, R193). -/
def Obligations.ElementsReadBack : Prop :=
  ∀ (x : PosSt) (f : Fmt) (r q : Fin 32) (base baseQ i j v : Nat), Memory.wf x.vregs = true →
    let n := fmtBits f
    v < 2 ^ n →
    (x.setElem (.vec r base) n i v).elem (.vec r base) n i = v ∧
    (elemBit r.val base n i + n ≤ elemBit q.val baseQ n j ∨ elemBit q.val baseQ n j + n ≤ elemBit r.val base n i →
      (x.setElem (.vec r base) n i v).elem (.vec q baseQ) n j = x.elem (.vec q baseQ) n j) ∧
    Memory.wf (x.setElem (.vec r base) n i v).vregs = true

/-- Dot-accumulate, conversion, functions (R196, R198, R201, R203): int8 products are summed exactly and kept modulo 2^32; a conversion
between integer formats saturates; a function unit gives `fnUnit` of every element and its flags, of registers or of SRAM, whose banks it then
takes (R207). -/
def Obligations.DotConvertFunction : Prop :=
  ∀ (s : State) (pos : Position) (dst a b : VReg) (iss : Issue), s.dev.performs pos iss →
    let x := s.dev.pos pos
    (∀ (init : Bool), ∀ fa ∈ [Fmt.int8, .uint8], ∀ fb ∈ [Fmt.int8, .uint8], operandOk a 8 2048 = true → operandOk b 8 2048 = true →
      Runs (.dotAccumulate pos fa fb .rne a b none none init iss) s
        (s.dev.modPos pos fun x => (x.setElems .acc 32 ((upTo 1024).map fun i =>
          intEncode 32 ((if init then 0 else ((tget x.acc i 0).toNat : Int)) +
            intDecode fa (x.elem a 8 (2 * i)) * intDecode fb (x.elem b 8 (2 * i)) +
            intDecode fa (x.elem a 8 (2 * i + 1)) * intDecode fb (x.elem b 8 (2 * i + 1))))).advance)) ∧
    (∀ (init : Bool), operandOk a 32 256 = true → operandOk b 32 256 = true →
      let rs := (upTo 256).map fun i => x.dotLane .fp32 .fp32 a b none none init 1 i
      Runs (.dotAccumulate pos .fp32 .fp32 .rne a b none none init iss) s
        (s.dev.modPos pos fun x =>
          let y := x.setElems .acc 32 (rs.map (·.1))
          PosSt.advance { y with flags := y.flags ||| rs.foldl (fun e r => e ||| r.2) 0 })) ∧
    (∀ (mode : RMode), ∀ src ∈ [Fmt.int8, .uint8, .int32, .uint32], ∀ to' ∈ [Fmt.int8, .uint8, .int32, .uint32], mode ≠ .sr →
      operandOk dst (fmtBits to') 1024 = true → operandOk a (fmtBits src) 1024 = true →
      Runs (.convert pos src to' mode false dst a none none iss) s
        (s.dev.modPos pos fun x => (x.setElems dst (fmtBits to') ((upTo 1024).map fun i =>
          intSat to' (intDecode src (x.elem a (fmtBits src) i)))).advance)) ∧
    (∀ (fn : FnOp) (n : Nat), operandOk dst 32 n = true → operandOk a 32 n = true →
      let rs := (upTo n).map fun i => fnUnit fn (x.elem a 32 i)
      Runs (.function pos fn dst (.reg a) n iss) s
        (s.dev.modPos pos fun x =>
          let y := x.setElems dst 32 (rs.map (·.1))
          PosSt.advance { y with flags := y.flags ||| rs.foldl (fun e r => e ||| r.2) 0 })) ∧
    (∀ (fn : FnOp) (off n : Nat), s.dev.performsLocal pos iss → operandOk dst 32 n = true → x.inRange off (4 * n) = true → x.bankUses = [] →
      iss.ecc = [] →
      let rs := (upTo n).map fun i => fnUnit fn (unle (memReads x.sram (off + 4 * i) 4))
      Runs (.function pos fn dst (.sram off) n iss) s
        (s.dev.modPos pos fun x =>
          let y := x.setElems dst 32 (rs.map (·.1))
          PosSt.advance { y with flags := y.flags ||| rs.foldl (fun e r => e ||| r.2) 0,
                                 bankUses := [⟨iss.cycle, iss.cycle + ceilDiv (4 * n) 2048, upTo 32,
                                   x.keepElems { y with flags := y.flags ||| rs.foldl (fun e r => e ||| r.2) 0 } dst n⟩] }))

/-- Cross-lane reductions (R197, R205): every operand form and operation completes. Of integer lanes the sum is that of all 1,024 elements modulo 2^32
(DESIGN CHOICE, log 224), the minimum and the maximum theirs. Of floating lanes the result is the last of ten levels of a tree, at each of which lane
2i meets lane 2i + 1 and the outcome is rounded to fp32, to nearest even; the flags of every rounding join FLAGS. An operand that does not lie
in its registers, or another rounding mode, is ILLEGAL_INSTRUCTION (DEDUCED, log 225).
What top-k keeps (R204): of elements put in with rising indices, the `k` largest, or smallest, in the order of R204: by value, −0 below +0,
equal values by lower index, NaN after every number. -/
def Obligations.CrossLaneSumAndTopK : Prop :=
  (
  ∀ (s : State) (pos : Position) (a : VReg) (r : Fin 32) (iss : Issue), s.dev.performs pos iss →
    let x := s.dev.pos pos
    let gives (v : Nat) (e : Exc) : Dev := s.dev.modPos pos fun x =>
      PosSt.advance { x with scalars := tset x.scalars r.val (BitVec.ofNat 64 v), flags := x.flags ||| e }
    (∀ fmt ∈ [Fmt.int8, .uint8, .int32, .uint32], operandOk a (fmtBits fmt) 1024 = true →
      let v := (upTo 1024).map fun i => intDecode fmt (x.elem a (fmtBits fmt) i)
      Runs (.crossLaneReduce pos .sum fmt a r iss) s (gives (intEncode 32 v.sum) 0) ∧
      Runs (.crossLaneReduce pos .min fmt a r iss) s (gives (intEncode 32 (v.foldl min (v.headD 0))) 0) ∧
      Runs (.crossLaneReduce pos .max fmt a r iss) s (gives (intEncode 32 (v.foldl max (v.headD 0))) 0)) ∧
    (∀ op : ROp, ∀ fmt ∈ [Fmt.fp32, .bf16, .fp16, .e4m3, .e5m2, .e3m2, .e2m3, .e2m1], operandOk a (fmtBits fmt) 1024 = true →
      let meet (p q : FVal × Exc) : FVal × Exc :=
        let v := match op with | .sum => faddX p.1 q.1 | .min => fminmaxX false p.1 q.1 | .max => fminmaxX true p.1 q.1
        let w := froundTo fmtFp32 .rne 0 false v.1
        (fdecode fmtFp32 w.1, w.2 ||| v.2 ||| p.2 ||| q.2)
      let zero : FVal × Exc := (.fin false 0 0, 0)
      let level (l : List (FVal × Exc)) (n : Nat) := (List.range (2 ^ (9 - n))).map fun i => meet (l.getD (2 * i) zero) (l.getD (2 * i + 1) zero)
      let z := ((List.range 10).foldl level ((upTo 1024).map fun i => (x.fval fmt a none i, 0))).headD zero
      Runs (.crossLaneReduce pos op fmt a r iss) s (gives (fround fmtFp32 z.1) z.2)) ∧
    (∀ (op : ROp) (fmt : Fmt) (mode : RMode), operandOk a (fmtBits fmt) 1024 = false ∨ mode ≠ .rne →
      Runs (.crossLaneReduce pos op fmt a r iss mode) s (s.dev.posFault pos fcIllegal (iss.cycle % 64) 0))
  ) ∧ (
  (∀ (largest : Bool) (k : Nat) (es : List (FVal × Nat)), (es.map (·.2)).Pairwise (· < ·) →
    let best := es.foldl (insertTop largest k) []
    let before (a b : FVal × Nat) : Bool := ranksBefore largest a.1 b.1 || (!ranksBefore largest b.1 a.1 && decide (a.2 < b.2))
    best.length = min k es.length ∧ (best.all fun e => es.contains e) = true ∧ best.Pairwise (fun a b => before a b = true) ∧
    (es.all fun e => best.contains e || best.all fun b => before b e) = true) ∧
  (∀ (largest : Bool) (a b : FVal), (a.isNan = true → ranksBefore largest a b = false) ∧
    (a.isNan = false → b.isNan = true → ranksBefore largest a b = true)) ∧
  (∀ (x y : Bool) (m n : Nat) (e g lo : Int), lo ≤ e → lo ≤ g →
    let v (s : Bool) (m : Nat) (e : Int) : Int := (if s then -1 else 1) * ((m * 2 ^ (e - lo).toNat : Nat) : Int)
    v y n g < v x m e →
    ranksBefore true (.fin x m e) (.fin y n g) = true ∧ ranksBefore true (.fin y n g) (.fin x m e) = false ∧
      ranksBefore false (.fin y n g) (.fin x m e) = true ∧ ranksBefore false (.fin x m e) (.fin y n g) = false) ∧
  (∀ e g : Int, ranksBefore true (.fin false 0 e) (.fin true 0 g) = true ∧ ranksBefore false (.fin true 0 g) (.fin false 0 e) = true ∧
    ranksBefore true (.fin true 0 g) (.fin false 0 e) = false ∧ ranksBefore false (.fin false 0 e) (.fin true 0 g) = false) ∧
  (∀ (s : Bool) (m : Nat) (e : Int), ranksBefore true (.inf false) (.fin s m e) = true ∧ ranksBefore false (.inf true) (.fin s m e) = true ∧
    ranksBefore true (.fin s m e) (.inf true) = true ∧ ranksBefore false (.fin s m e) (.inf false) = true)
  )

/-- SRAM and top-k (R204, R206, R207, R213): a load copies SRAM bytes into a register, a store the register's bytes into SRAM, in range and with
no bank in use; a word that the code corrects is counted, one that it cannot correct stops the position; out of range the position stops with
RANGE, and its pipeline with it; an access that needs a bank in use stops it with BANK_COLLISION, and neither access is performed; a gather copies 64 bytes from each of the
addresses in a register, a scatter to each, in order; top-k writes its values and indices; an access that a fence holds waits.
Choices of the model that this writes out: banks of top-k (log 93), a pending fence holds local accesses (log 191). -/
def Obligations.TileMemory : Prop :=
  (∀ (s : State) (pos : Position) (iss : Issue), s.dev.performsLocal pos iss →
    let x := s.dev.pos pos
    (∀ (r : Fin 32) (off len : Nat), off % 64 = 0 → 1 ≤ len → len ≤ 2048 → x.inRange off len = true → x.bankUses = [] →
      r.val * 2048 + len ≤ 65536 →
      let banks := (upTo ((off + len - 1) / 64 + 1 - off / 64)).map fun i => (off / 64 + i) * 64 / 64 % 32
      (iss.ecc = [] ∨ iss.ecc = [(off, .corrected)] →
        Runs (.sramAccess pos (.load r off len) iss.cycle iss.ecc iss.pred) s
          (s.dev.modPos pos fun x => PosSt.advance
            { x with vregs := memWrites x.vregs (r.val * 2048) (memReads x.sram off len),
                     corrected := if iss.ecc = [] then x.corrected else satAdd 32 x.corrected 1,
                     bankUses := [⟨iss.cycle, iss.cycle + 1, banks,
                       { regs := keepBytes x.vregs (r.val * 2048) len, fixed := iss.ecc.length }⟩] })) ∧
      (iss.ecc = [(off, .uncorrectable)] →
        Runs (.sramAccess pos (.load r off len) iss.cycle iss.ecc iss.pred) s (s.dev.posFault pos fcEcc (iss.cycle % 64) (off / 64 % 32))) ∧
      Runs (.sramAccess pos (.store r off len) iss.cycle iss.ecc iss.pred) s
        (s.dev.modPos pos fun x => PosSt.advance
          { x with sram := memWrites x.sram off (memReads x.vregs (r.val * 2048) len),
                   bankUses := [⟨iss.cycle, iss.cycle + 1, banks, { sram := keepBytes x.sram off len }⟩] })) ∧
    (∀ (r : Fin 32) (off len : Nat), 1 ≤ len → len ≤ 2048 → r.val * 2048 + len ≤ 65536 → x.inRange off len = false →
      Runs (.sramAccess pos (.load r off len) iss.cycle iss.ecc iss.pred) s (s.dev.posFault pos fcRange (iss.cycle % 64) (off / 64 % 32)) ∧
      Runs (.sramAccess pos (.store r off len) iss.cycle iss.ecc iss.pred) s (s.dev.posFault pos fcRange (iss.cycle % 64) (off / 64 % 32))) ∧
    (∀ (r : Fin 32) (off len b : Nat) (u : Undo), off % 64 = 0 → 1 ≤ len → len ≤ 64 → r.val * 2048 + len ≤ 65536 → x.inRange off len = true →
      b = off / 64 % 32 → x.bankUses = [⟨iss.cycle, iss.cycle + 1, [b], u⟩] →
      ∀ op ∈ [SramOp.load r off len, .store r off len],
        Runs (.sramAccess pos op iss.cycle iss.ecc iss.pred) s ((s.dev.modPos pos fun x => x.undone u).posFault pos fcBank (iss.cycle % 64) b)) ∧
    (∀ (r idx : Fin 32) (n : Nat), 1 ≤ n → r.val * 2048 + 64 * n ≤ 65536 → idx.val * 2048 + 4 * n ≤ 65536 →
      let at' (i : Nat) : Nat := unle (memReads x.vregs (idx.val * 2048 + 4 * i) 4)
      (∀ i, i < n → (∀ j, j < i → at' j % 64 = 0 ∧ x.inRange (at' j) 64 = true) → (at' i % 64 ≠ 0 ∨ x.inRange (at' i) 64 = false) →
        ∀ op ∈ [SramOp.gather r idx n, .scatter r idx n],
          Runs (.sramAccess pos op iss.cycle iss.ecc iss.pred) s (s.dev.posFault pos fcRange (iss.cycle % 64) (at' i / 64 % 32))) ∧
      ((∀ i, i < n → at' i % 64 = 0 ∧ x.inRange (at' i) 64 = true) → x.bankUses = [] → iss.ecc = [] →
        Runs (.sramAccess pos (.gather r idx n) iss.cycle iss.ecc iss.pred) s
          (s.dev.modPos pos fun x => PosSt.advance
            { x with vregs := memWrites x.vregs (r.val * 2048) ((List.range n).flatMap fun i => memReads x.sram (at' i) 64),
                     bankUses := [⟨iss.cycle, iss.cycle + n, upTo 32, { regs := keepBytes x.vregs (r.val * 2048) (64 * n) }⟩] }) ∧
        Runs (.sramAccess pos (.scatter r idx n) iss.cycle iss.ecc iss.pred) s
          (s.dev.modPos pos fun x => PosSt.advance
            { x with sram := (List.range n).foldl (fun m i => memWrites m (at' i) (memReads x.vregs (r.val * 2048 + 64 * i) 64)) x.sram,
                     bankUses := [⟨iss.cycle, iss.cycle + n, upTo 32,
                       { sram := ((List.range n).map at').reverse.flatMap fun g => keepBytes x.sram g 64 }⟩] }))) ∧
    (∀ (largest : Bool) (off n k dv di : Nat), ∀ fmt ∈ [Fmt.fp32, .bf16],
      let w := if fmt = .fp32 then 4 else 2
      let ff := if fmt = .fp32 then fmtFp32 else fmtBf16
      1 ≤ n → n ≤ 65536 → 1 ≤ k → k ≤ 64 → x.inRange off (w * n) = true → x.inRange dv (w * k) = true →
      x.inRange di (4 * k) = true → x.bankUses = [] → iss.ecc = [] →
      let best := (upTo n).foldl (fun best i => insertTop largest k best (fdecode ff (unle (memReads x.sram (off + w * i) w)), i)) []
      let rows := best.map (fun e => (fround ff e.1, e.2)) ++ List.replicate (k - n) (nanBits ff, 0xFFFFFFFF)
      Runs (.topK pos fmt largest off n k dv di iss) s
        (s.dev.modPos pos fun x => PosSt.advance
          { x with sram := memWrites (memWrites x.sram dv (rows.flatMap fun e => le w e.1)) di (rows.flatMap fun e => le 4 e.2),
                   bankUses := [⟨iss.cycle, iss.cycle + ceilDiv (w * n) 2048, upTo 32,
                     { sram := keepBytes x.sram dv (w * k) ++ keepBytes x.sram di (4 * k) }⟩] }))) ∧
  (∀ (s : State) (pos : Position) (iss : Issue) (op : SramOp), s.dev.performs pos iss → s.dev.localHeld pos (readsSram op) (!readsSram op) = true →
    Runs (.sramAccess pos op iss.cycle iss.ecc iss.pred) s s.dev)

/-- Mesh words and stream words (R208–R212, R242): a word sent waits in the slot buffer of its route; a word that arrives leaves the
neighbour and waits here; a word received is written to its register, an empty owned slot gives 32 zero bytes; a stream read takes the
queue's first word, into a register or into SRAM with its bank, a stream write adds one, and a word that is the request word of a write takes
the write's number (R240); a read of an empty queue stops the position with SLOT_COLLISION. -/
def Obligations.TileWords : Prop :=
  ∀ (s : State) (pos : Position),
    let x := s.dev.pos pos
    (∀ (slot : Fin 64) (r : Fin 32) (word : Fin 64) (iss : Issue) (e : Route), s.dev.performs pos iss → x.routeAt 0 slot = some e →
      e.pipe = x.pipe →
      Runs (.meshSend pos slot r word iss) s
        (s.dev.modPos pos fun x => PosSt.advance
          { x with words := x.words ++ [⟨e.output, e.leaves, (e.slot + e.delay) / 64, e.pipe, x.regWord r word⟩] })) ∧
    (∀ (input : Fin 5) (nb : Nat) (slot : Fin 64) (pipe : Pipe) (data : BitVec 256), neighbour pos input = some nb →
      (s.dev.pipe pipe).loaded = true → s.dev.neverLeft pipe slot (hopSlots pos nb) = true →
      Runs (.meshWordArrival pos input slot pipe data) s s.dev) ∧
    (∀ (input : Fin 5) (nb : Nat) (slot : Fin 64) (pipe : Pipe) (data : BitVec 256) (e : Route), neighbour pos input = some nb →
      (s.dev.pipe pipe).loaded = false ∨ s.dev.neverLeft pipe slot (hopSlots pos nb) = false →
      x.routeAt input slot = some e → e.pipe = pipe.val →
      let left := (slot.val + 64 - hopSlots pos nb) % 64
      Runs (.meshWordArrival pos input slot pipe data) s
        ((s.dev.modPos nb fun y => { y with words := removeFirst (fun w =>
            w.output = backLink input && w.slot = left && w.pipe = pipe.val && w.data = data && w.left = 0) y.words }).modPos pos fun y =>
          { y with words := y.words ++ [⟨e.output, e.leaves, (e.slot + e.delay) / 64, pipe, data⟩] })) ∧
    (∀ (slot : Fin 64) (r : Fin 32) (word : Fin 64) (iss : Issue), s.dev.performs pos iss →
      let it (w : BufWord) : Bool := w.output = 0 && w.slot = slot.val && w.pipe = x.pipe && w.left = 0
      (∀ w, x.words.find? it = some w →
        Runs (.meshReceive pos slot (.reg r word) iss.cycle iss.pred) s
          (s.dev.modPos pos fun x => PosSt.advance (({ x with words := removeFirst it x.words }).setRegWord r word w.data))) ∧
      (x.words.find? it = none → (x.routes.any fun e => e.output = 0 && e.leaves = slot.val && e.pipe = x.pipe) = true →
        Runs (.meshReceive pos slot (.reg r word) iss.cycle iss.pred) s (s.dev.modPos pos fun x => PosSt.advance (x.setRegWord r word 0)))) ∧
    (∀ (sp : Fin 2) (r : Fin 32) (word : Fin 64) (iss : Issue) (q : StreamQ) (w : BitVec 256) (ws : List (BitVec 256)),
      s.dev.performs pos iss → (s.dev.pipe x.pipe).queueAt pos sp false = some q → q.words = w :: ws →
      let d := (s.dev.modPos pos fun x => x.setRegWord r word w).modStreamQ x.pipe pos sp false fun q =>
        pourFetches { q with words := ws, used := q.used + 1 }
      Runs (.streamRead pos sp (.reg r word) iss.cycle iss.pred) s ((if q.mode = 0 then d.wordTaken x.pipe q.channel else d).modPos pos PosSt.advance)) ∧
    (∀ (sp : Fin 2) (off : Nat) (iss : Issue) (q : StreamQ) (w : BitVec 256) (ws : List (BitVec 256)), s.dev.performsLocal pos iss →
      (s.dev.pipe x.pipe).queueAt pos sp false = some q → q.words = w :: ws → q.mode ≠ 0 → off % 32 = 0 → x.inRange off 32 = true →
      x.bankUses = [] →
      Runs (.streamRead pos sp (.sram off) iss.cycle iss.pred) s
        (((s.dev.modPos pos fun x =>
            { x with sram := memWrites x.sram off (le 32 w.toNat),
                     bankUses := [⟨iss.cycle, iss.cycle + 1, [off / 64 % 32], { sram := keepBytes x.sram off 32 }⟩] }).modStreamQ x.pipe pos sp
          false fun q => pourFetches { q with words := ws, used := q.used + 1 }).modPos pos PosSt.advance)) ∧
    (∀ (sp : Fin 2) (r : Fin 32) (word : Fin 64) (iss : Issue) (q : StreamQ), s.dev.performs pos iss →
      (s.dev.pipe x.pipe).queueAt pos sp true = some q → q.words.length < 2048 →
      let w := x.regWord r word
      let n := (s.dev.pipe x.pipe).writeSeq
      (¬ (q.mode = 3 ∧ q.due = 0) →
        Runs (.streamWrite pos sp (.reg r word) iss.cycle iss.pred iss.ecc) s
          ((s.dev.modStreamQ x.pipe pos sp true fun q =>
            { q with words := q.words ++ [w], used := q.used + 1, due := q.due - 1 }).modPos pos PosSt.advance)) ∧
      (q.mode = 3 → q.due = 0 →
        Runs (.streamWrite pos sp (.reg r word) iss.cycle iss.pred iss.ecc) s
          (((s.dev.modPipe x.pipe fun y => { y with writeSeq := n + 1 }).modStreamQ x.pipe pos sp true fun q =>
            { q with words := q.words ++ [w], used := q.used + 1, due := field w.toNat 64 32 / 32, orders := q.orders ++ [n] }).modPos pos
              PosSt.advance))) ∧
    (∀ (sp : Fin 2) (r : Fin 32) (word : Fin 64) (iss : Issue) (q : StreamQ), s.dev.performs pos iss →
      (s.dev.pipe x.pipe).queueAt pos sp false = some q → q.words = [] →
      Runs (.streamRead pos sp (.reg r word) iss.cycle iss.pred) s (s.dev.posFault pos fcSlot (iss.cycle % 64) 0))

/-- The sequencer (R191, R205): scalar arithmetic, an immediate, a predicate, a loop entered; a ninth nested loop is illegal and stops the
position; a fence of tile scope orders nothing more (R93). A position whose compute fails stops with HARDWARE, its pipeline with it, running or
not (R245), and goes offline (R190, R213).
Choices of the model that this writes out: the spare (log 82). -/
def Obligations.SequencerAndHardware : Prop :=
  ∀ (s : State) (pos : Position),
    let x := s.dev.pos pos
    (∀ (iss : Issue), s.dev.performs pos iss →
      (∀ (op : SOp) (dst a b : Fin 32),
        Runs (.sequencer pos (.scalar op dst a b) iss) s
          (s.dev.modPos pos fun x => PosSt.advance
            { x with scalars := tset x.scalars dst.val (scalarOp op (tget x.scalars a.val 0) (tget x.scalars b.val 0)) })) ∧
      (∀ (dst : Fin 32) (v : BitVec 64),
        Runs (.sequencer pos (.scalarImm dst v) iss) s (s.dev.modPos pos fun x => PosSt.advance { x with scalars := tset x.scalars dst.val v })) ∧
      (∀ (p : Nat) (r : Fin 32),
        Runs (.sequencer pos (.predSet p r) iss) s
          (s.dev.modPos pos fun x => PosSt.advance
            { x with preds := (if tget x.scalars r.val 0 = 0 then [] else [p]) ++ x.preds.filter fun q => q ≠ p })) ∧
      (∀ k, Runs (.sequencer pos (.fence k .tile) iss) s (s.dev.modPos pos PosSt.advance)) ∧
      (∀ (count len : Nat), x.loops = [] → 0 < len → 0 < count →
        Runs (.sequencer pos (.loop count len) iss) s
          (s.dev.modPos pos fun x => { x with index := x.index + 1, loops := [(x.index + 1, len, count - 1)] })) ∧
      (∀ (count len : Nat), 8 ≤ x.loops.length → Runs (.sequencer pos (.loop count len) iss) s (s.dev.posFault pos fcIllegal (iss.cycle % 64) 0))) ∧
    (∀ (slot : Fin 64), isPassThrough pos = false →
      (x.state = 0 → Runs (.tileHardwareFault pos slot) s ((s.dev.haltPos pos fcHardware slot 0).substitute pos)) ∧
      (x.state = 1 ∨ x.state = 2 ∨ x.state = 3 →
        Runs (.tileHardwareFault pos slot) s
          (((s.dev.haltPos pos fcHardware slot 0).stopPipe x.pipe pcPosition 0x0D pos fcHardware).substitute pos)))

/-! ### Pipelines -/

/-- The entry window (R236–R238): the first descriptor of a channel starts its batch and is answered OK; data within the batch lands at its
position and is answered, a posted store of it is not; a FLUSH is answered OK; what a row of R236 refuses is refused with its code. -/
def Obligations.EntryWindow : Prop :=
  ∀ (s : State) (tp : TilePort) (f : Frame),
    let p := entryPipe f.offset.toNat
    let ch := entryChannel f.offset.toNat
    let x := s.dev.pipe p
    let bs := f.payload
    (s.dev.entryHears tp f →
      (f.op = 0x02 → entryCtl f.offset.toNat = true → num bs 0 2 = 0 → num bs 2 2 = 0 → num bs 14 2 = 0 → num bs 8 6 % 64 = 0 → x.batchOn ch = none →
        Runs (.batchDescriptor tp f) s
          ((s.dev.startBatch p ch { channel := ch, seq := 0, words := num bs 4 4, record := BitVec.ofNat 48 (num bs 8 6),
                                    key := BitVec.ofNat 64 (num bs 16 8), src := f.src, param := BitVec.ofNat 64 (num bs 24 8) }).reply
            (160 + tp.val) f 0 0 none)) ∧
      (∀ (b : Batch) (n : Nat), (f.op = 0x02 ∨ f.op = 0x03) → entryCtl f.offset.toNat = false → x.batchOn ch = some b → b.running = true →
        batchPosition (entryByte f.offset.toNat) b.taken = some n → n + f.length.toNat ≤ 32 * b.words →
        n + f.length.toNat ≤ b.taken + 65536 → b.channel = ch →
        let d := (s.dev.modBatch p ch fun b => landWords b n bs).pourChannel p ch
        Runs (.entryData tp f) s (if f.op = 0x03 then d else d.reply (160 + tp.val) f 0 0 none)) ∧
      (f.op = 0x06 → Runs (.entryFlush tp f) s (s.dev.reply (160 + tp.val) f 0 0 none))) ∧
    (∀ st, (s.dev.tileDie (tp.val / 2)).up = true → f.hchkOk = true → f.checkOk = true → f.conf = false → s.dev.tornDown f.slice.toNat = false →
      s.dev.entryFault f = some st → isPosted f.opn = false →
      ∀ e ∈ [Instr.batchDescriptor, Instr.entryData, Instr.entryFlush], Runs (e tp f) s (s.dev.reply (160 + tp.val) f st 0 none))

/-- Fetches and exit writes (R240): a request word in order becomes one LOAD per piece, a word of a reserved form stops the pipeline with
FETCH; a write takes its request word, with the number it was queued under, and sends its first STORE once the data is there; a batch whose END write has completed is recorded
done. -/
def Obligations.FetchesAndWrites : Prop :=
  (∀ (s : State) (pos : Position) (sp : Fin 2) (q : StreamQ) (w : BitVec 256) (ws : List (BitVec 256)),
    let p := (s.dev.pos pos).pipe
    let x := s.dev.pipe p
    x.queueAt pos sp true = some q → q.words = w :: ws → x.state = 2 → x.halted = false →
    let d := s.dev.modStreamQ p pos sp true fun q => { q with words := ws }
    (∀ r, q.mode = 2 → s.dev.fenceTakes q.stream false = true → x.request w 1 = .ok r →
      Runs (.fetchRequest pos sp) s
        ((eachOf (fetchPieces 64 r.offset r.length) d fun d e => d.issueFetch p pos sp r.window e).fenceDrained q.stream 1)) ∧
    (∀ st, q.mode = 2 → s.dev.fenceTakes q.stream false = true → x.request w 1 = .error st →
      Runs (.fetchRequest pos sp) s (d.stopPipe p pcFetch st pos 0)) ∧
    (∀ r, q.mode = 3 → q.write = none → x.stopping = false → s.dev.req.fences = [] → x.request w 2 = .ok r →
      let d := s.dev.modStreamQ p pos sp true fun q =>
        { q with words := ws, orders := q.orders.drop 1, write := some ⟨r.offset, r.length, r.window, r.fin, q.orders.headD 0⟩ }
      Runs (.writeRequest pos sp) s (d.issueWrite p pos sp))) ∧
  (∀ (s : State) (p : Pipe) (ch : Fin 16) (b : Batch) (e : Nat), (s.dev.pipe p).batchOn ch = some b → b.ending = some e → b.running = true →
    s.dev.writesLeft p e = false →
    Runs (.batchEnd p ch) s
      (((s.dev.modBatch p ch fun b => { b with running := false, data := [] }).modPipe p fun x =>
        { x with batchesDone := x.batchesDone + 1 }).writeBatch p ch 2 0))

/-- The gate (R241) with no perturbation: the next mesh cycle is held when a queue or power holds it. A boundary (R211) with no pipeline
loaded and no word in flight only counts. -/
def Obligations.GateAndBoundary : Prop :=
  (∀ (s : State) (p : Pipe), (s.dev.pipe p).active = true → (s.dev.pipe p).stopping = false → s.dev.test.perturbs = [] →
    let x := s.dev.pipe p
    let power := s.dev.powerHold (s.dev.tiles.meshCycle + 1)
    Runs (.gateDecision p) s (s.dev.modPipe p fun y => { y with gateNext := x.queues.any x.queueHolds || power, powerNext := power })) ∧
  (∀ (s : State), s.dev.tiles.pipes = [] → (∀ e ∈ s.dev.tiles.positions, e.2.words = []) →
    Runs .meshCycleBoundary s { s.dev with tiles := { s.dev.tiles with meshCycle := s.dev.tiles.meshCycle + 1 } })

/-- One pipeline at a boundary (R211, R234, R244): a gate that is open lets it run one more mesh cycle, its positions with it, and a closed
one holds it; a pipeline that is stopping halts; a loaded pipeline that does not run is left alone. -/
def Obligations.PipelineTurns : Prop :=
  ∀ (d : Dev) (p : Nat), let x := d.pipe p
    (x.active = true → x.halted = false → x.stopping = false → x.positions = [] →
      d.turnPipe p = d.modPipe p fun y =>
        { y with gateHeld := x.gateNext, gateNext := true, queues := y.queues.map fun q => { q with used := 0 },
                 meshCycles := if x.gateNext then y.meshCycles else y.meshCycles + 1,
                 heldCycles := if x.gateNext then y.heldCycles + 1 else y.heldCycles }) ∧
    (∀ pos, x.active = true → x.halted = false → x.stopping = false → x.positions = [pos] → (d.pos pos).pipe = p → (d.pos pos).state = 2 →
      ((d.turnPipe p).pos pos).state = (if x.gateNext then 3 else 2) ∧
      ((d.turnPipe p).pos pos).cycles = (if x.gateNext then (d.pos pos).cycles else (d.pos pos).cycles + 64) ∧
      ((d.turnPipe p).pos pos).sram = (d.pos pos).sram ∧ ((d.turnPipe p).pos pos).vregs = (d.pos pos).vregs) ∧
    (x.halted = false → x.stopping = true → d.turnPipe p = d.haltPipe p) ∧
    (x.active = false → x.stopping = false → d.turnPipe p = d)

/-- Ends of a pipeline's run (R231, R233, R234, R241, R243, R244): a stall and a drain that overran stop it with STALL; a drain with nothing left leaves
it loaded; a stop is complete when its last STORE has ended; a load is placed; a start whose pages are all translated takes its
resources and runs.
What a stop records (R243): the cause, the status, the position and its cause, once; a pipeline that is stopping already, or does not
run, keeps what it has. -/
def Obligations.PipelinesEnd : Prop :=
  (
  (∀ (s : State) (p : Pipe) (b : Batch), (s.dev.pipe p).gateHeld = true → (s.dev.pipe p).powerNext = false → (s.dev.pipe p).batches = [b] →
    b.running = true → Runs (.pipelineStall p) s (s.dev.stopPipe p pcStall 0x05 255 0)) ∧
  (∀ (s : State) (p : Pipe), (s.dev.pipe p).state = 3 → s.dev.host.handover = false →
    Runs (.drainTimeout p) s (s.dev.stopPipe p pcStall 0x05 255 0)) ∧
  (∀ (s : State) (p : Pipe), s.dev.host.handover = true → Runs (.drainTimeout p) s s.dev ∧ Runs (.drainComplete p) s s.dev) ∧
  (∀ (s : State) (p : Pipe), (s.dev.pipe p).state = 3 → s.dev.host.handover = false → (s.dev.pipe p).stopping = false → (s.dev.pipe p).batches = [] →
    (s.dev.pipe p).queues = [] → s.dev.pipeBusy p = false →
    Runs (.drainComplete p) s
      (eachOf (s.dev.pipe p).positions ((s.dev.releasePipe p).modPipe p fun x => { x with state := 1, gateHeld := true, gateNext := true })
        fun d pos => d.modPos pos fun y => if y.pipe = p.val then { y with state := 1 } else y)) ∧
  (∀ (s : State) (p : Pipe), (s.dev.pipe p).state ≠ 4 → (s.dev.pipe p).halted = true → s.dev.pipeBusy p = false →
    ((s.dev.pipe p).dropping = false →
      Runs (.pipelineStopComplete p) s
        (((s.dev.releasePipe p).refuseStart p 0x40 noDetail).modPipe p fun x => { x with state := 4, stopping := false })) ∧
    ((s.dev.pipe p).dropping = true → Runs (.pipelineStopComplete p) s ((s.dev.releasePipe p).unloadPipe p))) ∧
  (∀ (s : State) (l : LoadedLast), s.dev.tiles.loading = some l → s.dev.tornDown l.slice.toNat = false → s.dev.disabled l.slice.toNat 1 = false →
    s.dev.positionsFree l.bytes = true →
    Runs .lastLoadComplete s ({ s.dev with tiles := { s.dev.tiles with loading := none } }.placeLast l).drillsReloaded) ∧
  (∀ (s : State) (p : Pipe) (id : Nat), (s.dev.pipe p).starting = some id → ((s.dev.pipe p).stopping = true ∨ (s.dev.pipe p).state ≠ 1) →
    Runs (.pipeStartComplete p) s (s.dev.refuseStart p 0x40 noDetail)) ∧
  (∀ (s : State) (p : Pipe) (id : Nat), (s.dev.pipe p).starting = some id → (s.dev.pipe p).stopping = false → (s.dev.pipe p).state = 1 →
    ((s.dev.pipe p).windows.all fun w => (windowPages w).all fun g => (tfind w.pages g).isSome) = true →
    Runs (.pipeStartComplete p) s (s.dev.goPipe p id))
  ) ∧ (
  ∀ (d : Dev) (p cause status pos fc : Nat), d.test.perturbs = [] →
    ((d.pipe p).active = true ∨ ((d.pipe p).state = 1 ∧ cause = pcPosition) → (d.pipe p).stopping = false →
      d.stopPipe p cause status pos fc =
        ((d.modPipe p fun x => { x with stopping := true, cause := cause, status := status, faultPos := pos, faultCause := fc }).fault
          (pipeRec (d.modPipe p fun x => { x with stopping := true, cause := cause, status := status, faultPos := pos, faultCause := fc }) p cause pos))) ∧
    ((d.pipe p).active = false ∧ ((d.pipe p).state ≠ 1 ∨ cause ≠ pcPosition) ∨ (d.pipe p).stopping = true →
      d.stopPipe p cause status pos fc = d)
  )

/-! ### Translation and copies -/

/-- A table walk (R44–R47): an address whose L1 and L2 entries point to tables and whose L3 entry is a valid small leaf is translated to
the leaf's node, frame, key and rights; a valid large leaf in the L2 table translates its 32 pages; at every level an entry that is not valid gives OUT_OF_RANGE, and a form that the
level does not take (a pointer or leaf bit, a size, an alignment, a table outside the table area, non-zero reserved bits, NODE 0xFFFF) gives
UNSUPPORTED; a slice without a table gives OUT_OF_RANGE.
The translation buffers (R46, R49): what an engine's buffer is filled with is found there; an engine's buffer never exceeds 64 entries
by a fill, the shared level never 4,096; after an invalidation of a slice nothing of it is found in any buffer, and the entries of the
other slices stay. -/
def Obligations.TranslationWalksAndBuffers : Prop :=
  (
  ∀ (d : Dev) (slice page : Nat) (e1 e2 e3 : Nat × Nat),
    let l1 := (d.slice slice).l1Table.toNat
    let l2 := field e1.2 0 48
    let l3 := field e2.2 0 48
    (l1 = 0 → d.walk slice page = .error 0x03) ∧
    (l1 ≠ 0 → d.pool.xWords (l1 + 16 * (page / 2 ^ 16)) = .ok e1 →
      (e1.2.testBit 63 = false → d.walk slice page = .error 0x03) ∧
      (e1.2.testBit 63 = true → (e1.1 ≠ 0 ∨ e1.2.testBit 62 = true ∨ e1.2.testBit 58 = false ∨ field e1.2 48 10 ≠ 0 ∨ l2 % 32768 ≠ 0 ∨
          d.pool.inTables l2 32768 = false) → d.walk slice page = .error 0x09) ∧
      (e1.1 = 0 → e1.2.testBit 63 = true → e1.2.testBit 62 = false → e1.2.testBit 58 = true → field e1.2 48 10 = 0 → l2 % 32768 = 0 →
        d.pool.inTables l2 32768 = true → d.pool.xWords (l2 + 16 * (page / 32 % 2048)) = .ok e2 →
        (e2.2.testBit 63 = false → d.walk slice page = .error 0x03) ∧
        (e2.2.testBit 63 = true → e2.2.testBit 58 = false → (e2.2.testBit 62 = false ∨ field e2.2 48 10 ≠ 0 ∨ field e2.2 19 13 ≠ 0 ∨
            field e2.2 32 16 = 0xFFFF ∨ field e2.2 0 19 % 32 ≠ 0) → d.walk slice page = .error 0x09) ∧
        (e2.2.testBit 63 = true → e2.2.testBit 62 = true → e2.2.testBit 58 = false → field e2.2 48 10 = 0 → field e2.2 19 13 = 0 →
          field e2.2 32 16 ≠ 0xFFFF → field e2.2 0 19 % 32 = 0 →
          d.walk slice page = .ok
            { slice := BitVec.ofNat 10 slice, svaPage := page / 32 * 32, big := true, node := BitVec.ofNat 16 (field e2.2 32 16),
              frame := BitVec.ofNat 19 (field e2.2 0 19), key := d.leafKey slice (field e2.2 32 16) (field e2.2 0 19) e2.1,
              rights := BitVec.ofNat 3 (field e2.2 59 3) }) ∧
        (e2.2.testBit 63 = true → e2.2.testBit 58 = true → (e2.1 ≠ 0 ∨ e2.2.testBit 62 = true ∨ field e2.2 48 10 ≠ 0 ∨ l3 % 512 ≠ 0 ∨
            d.pool.inTables l3 512 = false) → d.walk slice page = .error 0x09) ∧
        (e2.1 = 0 → e2.2.testBit 63 = true → e2.2.testBit 62 = false → e2.2.testBit 58 = true → field e2.2 48 10 = 0 → l3 % 512 = 0 →
          d.pool.inTables l3 512 = true → d.pool.xWords (l3 + 16 * (page % 32)) = .ok e3 →
          (e3.2.testBit 63 = false → d.walk slice page = .error 0x03) ∧
          (e3.2.testBit 63 = true → (e3.2.testBit 62 = true ∨ e3.2.testBit 58 = true ∨ field e3.2 48 10 ≠ 0 ∨ field e3.2 19 13 ≠ 0 ∨
              field e3.2 32 16 = 0xFFFF) → d.walk slice page = .error 0x09) ∧
          (e3.2.testBit 63 = true → e3.2.testBit 62 = false → e3.2.testBit 58 = false → field e3.2 48 10 = 0 → field e3.2 19 13 = 0 →
            field e3.2 32 16 ≠ 0xFFFF →
            d.walk slice page = .ok
              { slice := BitVec.ofNat 10 slice, svaPage := page, big := false, node := BitVec.ofNat 16 (field e3.2 32 16),
                frame := BitVec.ofNat 19 (field e3.2 0 19), key := d.leafKey slice (field e3.2 32 16) (field e3.2 0 19) e3.1,
                rights := BitVec.ofNat 3 (field e3.2 59 3) }))))
  ) ∧ (
  ∀ (d : Dev) (e slice page : Nat) (x : XEntry),
    ((d.xlate.engine.all fun y => !(y.1 = e && y.2.covers slice page)) = true → x.covers slice page = true →
      (d.fillEngine e x).lookup e slice page = (some x, d.fillEngine e x)) ∧
    ((d.fillEngine e x).xlate.engine.filter fun y => y.1 = e).length ≤ 64 ∧
    (d.fillShared x).xlate.shared.length ≤ 4096 ∧
    (∀ e p, (d.invalidate slice 0 0).lookup e slice p = (none, d.invalidate slice 0 0)) ∧
    (∀ y, y.slice.toNat ≠ slice → (y ∈ d.xlate.shared ↔ y ∈ (d.invalidate slice 0 0).xlate.shared) ∧
      ∀ k, (k, y) ∈ d.xlate.engine ↔ (k, y) ∈ (d.invalidate slice 0 0).xlate.engine)
  )

/-- Walks, copies and ATS (R46, R51–R53, R330): a walk that found its leaf fills both buffers; a chunk of a copy is read; a copy that has
moved its bytes writes its 16-byte record and ends; a translation joins the cache, an invalidation takes its pages out and is answered, a change of
ATS enable empties the cache.
Work for the pool and the copy engine. CHECK_JOB (R264) starts a context with the descriptor's job; COPY (R330, R52) is queued once every
address it needs is translated, waits for the translations, or is refused with what they found.
Choices of the model that this writes out: a pointer out of the table area (log 69), where an internal stream shows (log 99), how a copy is
cut and checked (log 100), another context in the descriptor (log 102). -/
def Obligations.CopyAndCheckJobs : Prop :=
  (
  (∀ (s : State) (w : Walk) (x : XEntry), s.dev.xlate.walks = [w] → s.dev.walk w.slice.toNat w.svaPage = .ok x →
    s.dev.tiles.pipes = [] → s.dev.xlate.translating = [] →
    Runs (.tableWalkDone w.id) s (({ s.dev with xlate := { s.dev.xlate with walks := [] } }.fillEngine w.engine x).fillShared x)) ∧
  (∀ (s : State) (w : Walk) (st : Nat), s.dev.xlate.walks = [w] → s.dev.walk w.slice.toNat w.svaPage = .error st →
    Runs (.tableWalkDone w.id) s
      (({ s.dev with xlate := { s.dev.xlate with walks := [] } }.walkFault w.slice.toNat w.svaPage).walkFailed w st)) ∧
  (∀ (s : State) (host : List Byte) (j : CopyJob), s.dev.xlate.running = some j → j.status = none → j.moved = j.written → j.moved < j.length →
    s.dev.xlate.pendingInv = [] → s.dev.copyNeeds j = [] →
    let n := min 65536 (j.length - j.moved)
    let d := s.dev.setRunning { j with written := j.moved + n }
    Runs (.copyChunk host) s (if j.srcHost then d.copyOut j.moved (padTo n host) else d.copyIn j n)) ∧
  (∀ (s : State) (j : CopyJob), s.dev.xlate.running = some j → j.status = none → j.moved = j.length → s.dev.copyBusy j = false →
    s.dev.xlate.pendingInv = [] → s.dev.xlate.atsEnable = false → j.noRecord = false → j.record.toNat % 16 = 0 → s.dev.xlate.copies = [] →
    16 ≤ s.dev.host.maxPayload → s.dev.prot.revoking = [] →
    let d := s.dev.emit (.hostWrite j.record (copyRecord j))
    let d := if j.vector = 0xFFFF then d else d.signal j.vector.toNat
    let d := match j.stream with | some n => d.closeStream n | none => d
    let d := if j.cls = .g then d.releaseOwner 4 0 else d
    Runs .copyDone s { d with xlate := { d.xlate with running := none, completed := d.xlate.completed + 1 } }.startCopy) ∧
  (∀ (s : State) (r : AtsReq) (a : AtsAnswer) (t : BitVec 52), s.dev.xlate.atsReqs = [r] → a.transl = some t → s.dev.xlate.translating = [] →
    s.dev.xlate.running = none →
    let rest := s.dev.xlate.atc.filter fun e => e.page ≠ r.page
    Runs (.atsTranslationCompletion r.id a) s
      { s.dev with xlate := { s.dev.xlate with atsReqs := [], atc := rest.drop (rest.length - 1023) ++ [AtcEntry.mk r.page t a.read a.write] } }) ∧
  (∀ (s : State) (itag : BitVec 5) (page : BitVec 52) (n : Nat) (all : Bool), s.dev.xlate.translating = [] → s.dev.xlate.copies = [] →
    s.dev.xlate.running = none →
    Runs (.atsInvalidationRequest itag page n all) s
      ({ s.dev with xlate := { s.dev.xlate with
          atc := s.dev.xlate.atc.filter fun e => !(all || (page.toNat ≤ e.page.toNat && e.page.toNat < page.toNat + n)) } }.emit
        (.atsInvalidated itag))) ∧
  (∀ (s : State) (on : Bool), s.dev.xlate.translating = [] → s.dev.xlate.copies = [] → s.dev.xlate.running = none →
    Runs (.atsEnableChange on) s { s.dev with xlate := { s.dev.xlate with atsEnable := on, atc := [], atsReqs := [] } })
  ) ∧ (
  ∀ (s : State) (r : RingNo) (c : Cmd), let d := s.dev.taken r 1 c
    (let fm : Form := { op := 0x0810, roles := [1], cls := some 0x19, hi := 63, used := [(16, 20), (24, 48)] }
     let i := c.inst.toNat
     let b := c.u 16 1
     let sl := c.u 18 2
     let off := c.u 24 8
     let len := c.u 32 8
     s.dev.hears r c fm → 1 ≤ sl → sl < 1024 → s.dev.tornDown sl = false → field b 6 2 ≠ 3 → field b 2 3 = 0 → c.u 17 1 = i % 16 → c.u 17 1 < 8 →
     off < 2 ^ 48 → 1 ≤ len → len ≤ 3298534883328 → (s.dev.checkCtx i).state ≠ 1 → s.dev.isConf sl = false →
     (∀ e ∈ s.dev.prot.regions, e.2.valid = true → e.2.enc = 1 →
       off + len ≤ e.2.base.toNat * pageSize ∨ (e.2.base.toNat + e.2.length.toNat) * pageSize ≤ off) →
     Runs (.checkJob c) s ((d.modCheck i fun x =>
       { x with state := 1, status := 0, done := 0, mode := field b 6 2, cont := b.testBit 5, poly := field b 0 2, slice := BitVec.ofNat 10 sl,
                offset := off, length := len, key := BitVec.ofNat 64 (c.u 40 8), isMatch := false }).answered s.dev fm c 0 0 [] true)) ∧
    (let fm : Form := { op := 0x0820, roles := [1], cls := some 0x1A, used := [(16, 19), (24, 58)] }
     let j := copyJobOf c
     s.dev.hears r c fm → s.dev.sliceEnded (c.u 16 2) 2 = none → copyFormFault c = none → s.dev.sliceLive (c.u 16 2) = true →
     s.dev.isConf (c.u 16 2) = false →
     (∀ st b, d.meetNeeds j (d.copyNeeds j) = .error (st, b) → Runs (.copy c) s (d.answered s.dev fm c st b [])) ∧
     (∀ j' x, d.meetNeeds j (d.copyNeeds j) = .ok (j', x) →
       (x.copyNeeds j' = [] →
         (∀ b, copyRangeFault c = some b → Runs (.copy c) s (x.answered s.dev fm c 0x43 b [])) ∧
         (copyRangeFault c = none → 256 ≤ x.xlate.copies.length → Runs (.copy c) s (x.answered s.dev fm c 0x42 noDetail [])) ∧
         (copyRangeFault c = none → x.xlate.copies.length < 256 → Runs (.copy c) s ((x.queueCopy j').replies s.dev fm c .started))) ∧
       (x.copyNeeds j' ≠ [] → Runs (.copy c) s
         ({ x with xlate := { x.xlate with translating := x.xlate.translating ++ [(j', s.dev.host.nextWait)] } }.replies s.dev fm c .wait))) ∧
     (d.copyNeeds j = [] → copyRangeFault c = none → s.dev.xlate.copies.length < 256 →
       Runs (.copy c) s ((d.queueCopy j).replies s.dev fm c .started)))
  )

/-! ### Host port -/

/-- Registers of the host port (R300, R301, R305, R332): a doorbell and RPL_HEAD are stored, and nothing else changes; a ring is enabled
with every index at 0 and its status cleared, and disabled with its replies muted; coalesced replies are signalled at their time; an
unmasked vector sends its pending message; a write of four bytes to a doorbell's offset is the doorbell, one to an offset that is not
listed does nothing.
BAR2 windows (R302–R304): an access to an enabled window within 2,048 bytes becomes one operation of the window's stream, with the
window's node, key and slice and the ordering its bits ask for; a write to a disabled one is counted, a read of one is answered
Unsupported Request.
Reads of BAR0 (R300, R303, R38): the identity, HOST_STATE, LOCAL_COUNTER, the fields of a window, whose KEY reads as 0 where its slice is
confidential, and the MSI-X table; the doorbells and what is not listed read 0.
HOST_PORT_RESET (R313): every ring is disabled with RING_STATUS 3, every window disabled, the MSI-X table and the SPDM state cleared;
the pool, the tiles, the groups and the protection state are untouched, and every reply that waits for a ring is muted.
Choices of the model that this writes out: a ring disabled while a command runs (log 74), values out of range (log 105), a ring enabled
again (log 108), what a host-port reset empties (log 109), a BAR0 read is a function (log 229). -/
def Obligations.HostRegistersAndWindows : Prop :=
  (
  (
  (
  (∀ (s : State) (r : RingNo) (v : BitVec 32),
    Runs (.doorbell r v) s (s.dev.modRing r fun g => { g with cmdTail := v }) ∧
    Runs (.rplHead r v) s (s.dev.modRing r fun g => { g with rplHead := v }) ∧
    Runs (.registerWrite (BitVec.ofNat 24 (0x400000 + 4096 * r.val)) (le 4 v.toNat)) s (s.dev.modRing r fun g => { g with cmdTail := v }) ∧
    (∀ data : List Byte, data.length ≤ 8 → Runs (.registerWrite 0x000100 data) s s.dev)) ∧
  (∀ (s : State) (r : RingNo) (w : BitVec 32), (s.dev.ring r).enable = false → w.toNat.testBit 31 = true →
    Runs (.ringEnable r w) s (s.dev.modRing r fun g =>
      { g with vector := BitVec.ofNat 11 (field w.toNat 16 11), sizeLog2 := field w.toNat 0 5, enable := true, cmdHead := 0, cmdTail := 0,
               rplTail := 0, rplHead := 0, unsignalled := 0, status := 0, busy := false })) ∧
  (∀ (s : State) (r : RingNo) (w : BitVec 32), (s.dev.ring r).enable = true → w.toNat.testBit 31 = false →
    let d := s.dev.muteRing fun x => x = r.val
    Runs (.ringEnable r w) s ({ d with host := { d.host with begun := d.host.begun.filter fun b => b.1 ≠ r.val } }.modRing r
      fun g => { g with enable := false, busy := false })) ∧
  (∀ (s : State) (r : RingNo), (s.dev.ring r).unsignalled ≠ 0 → (s.dev.ring r).coalTime ≠ 0 →
    Runs (.replyCoalesceTimeout r) s ((s.dev.modRing r fun g => { g with unsignalled := 0 }).signal (s.dev.ring r).vector.toNat)) ∧
  (∀ (s : State) (v : Fin 2048), let e := tget s.dev.host.msix v.val {}
    let d := { s.dev with host := { s.dev.host with msix := tset s.dev.host.msix v.val { e with masked := false, pending := false } } }
    Runs (.msixUnmask v) s (if e.pending then d.emit (.msix v.val) else d))
  ) ∧ (
  ∀ (s : State) (w : RingNo) (a : BitVec 32), let x := s.dev.window w
    let off := x.base.toNat + a.toNat
    (∀ (st : Nat) (data : List Byte), x.enable = true → s.dev.windowStream w = some st → data ≠ [] → off % 2048 + data.length ≤ 2048 →
      Runs (.bar2MemoryWrite w a data) s
        (s.dev.issue st
          { dst := x.node, offset := BitVec.ofNat 48 off, length := BitVec.ofNat 12 data.length, key := x.key, slice := x.slice,
            op := if x.release then 0x02 else 0x03, ord := if x.release then .release else .relaxed,
            scope := if x.release then .fabric else .tile, payload := data } (.window w none))) ∧
    (∀ (st n : Nat) (ptag : BitVec 14), x.enable = true → s.dev.windowStream w = some st → s.dev.host.reads = [] → 0 < n → off % 2048 + n ≤ 2048 →
      Runs (.bar2MemoryRead w a n ptag) s
        ({ s.dev with host := { s.dev.host with reads := [{ ptag := ptag, w := w, left := 1 }] } }.issue st
          { dst := x.node, offset := BitVec.ofNat 48 off, length := BitVec.ofNat 12 n, key := x.key, slice := x.slice, op := 0x01,
            ord := if x.acquire then .acquire else .relaxed, scope := if x.acquire then .fabric else .tile } (.window w (some (ptag, 0))))) ∧
    (∀ (n : Nat) (ptag : BitVec 14) (data : List Byte), x.enable = false →
      Runs (.bar2MemoryWrite w a data) s (s.dev.modWindow w fun x => { x with errors := satAdd 64 x.errors 1 }) ∧
      Runs (.bar2MemoryRead w a n ptag) s (s.dev.emit (.pcieStatus ptag 1)))
  )
  ) ∧ (
  ∀ (fz : Fuses) (d : Dev) (w : RingNo) (v : Fin 2048), let x := d.window w
    (d.bar0Read fz 0x00 64 = d.image fz 0x01 0) ∧
    (d.bar0Read fz 0x40 8 = le 8 (b2n d.host.fwReady + 2 * b2n d.host.handover)) ∧
    (d.bar0Read fz 0x48 8 = le 8 d.now) ∧
    (d.bar0Read fz (0x020000 + 64 * w.val) 8 = if d.isConf x.slice.toNat then zeros 8 else le 8 x.key.toNat) ∧
    (d.bar0Read fz (0x020000 + 64 * w.val + 8) 8 = le 8 (x.base.toNat + 2 ^ 48 * x.node.toNat)) ∧
    (d.bar0Read fz (0x020000 + 64 * w.val + 0x14) 4 = le 4 x.timeout.toNat) ∧
    (d.bar0Read fz (0x020000 + 64 * w.val + 0x20) 8 = le 8 x.errors) ∧
    (d.bar0Read fz (0x100000 + 16 * v.val) 12 = le 8 (tget d.host.msix v.val {}).addr.toNat ++ le 4 (tget d.host.msix v.val {}).data.toNat) ∧
    (∀ off n : Nat, 0x108100 ≤ off → d.bar0Read fz off n = zeros n)
  )
  ) ∧ (
  ∀ (s : State), s.dev.xlate.translating = [] →
    ∃ d, Runs .hostPortReset s d ∧ (∀ r, r < 64 → d.ring r = { status := 3 }) ∧ d.host.windows = [] ∧ d.host.reads = [] ∧ d.host.msix = [] ∧
      d.host.spdm = {} ∧ d.xlate.atsEnable = false ∧ d.xlate.atc = [] ∧ d.pool = s.dev.pool ∧ d.tiles = s.dev.tiles ∧ d.relay = s.dev.relay ∧
      d.prot = s.dev.prot ∧ d.sec = s.dev.sec ∧
      (∀ w ∈ d.host.waiting, ∀ r, w.via = .ring r → w.mute = true) ∧ d.host.waiting.length = s.dev.host.waiting.length
  )

/-- Class M frames at the control die (R116, R161, R308, R358): a command of 64 unsigned bytes joins the accepted ones, up to 16 of a source;
the reply to a probe of the module's own ends the probe; an event joins the fault queue with FOREIGN set and is signalled, never sent
on.
Choices of the model that this writes out: a foreign record merges with none (log 12), when an event is sent (log 13), the seventeenth
command of a source (log 110). -/
def Obligations.ManagementFrames : Prop :=
  ∀ (s : State) (f : Frame), f.hchkOk = true → f.checkOk = true → f.conf = false → s.dev.tornDown f.slice.toNat = false →
    (f.payload.length = 64 → (num f.payload 2 2).testBit 1 = false → (s.dev.host.fabric.filter fun x => x.src = f.src).length < 16 →
      Runs (.mgmtCommand f) s
        { s.dev with host := { s.dev.host with fabric := s.dev.host.fabric ++ [{ src := f.src, tag := f.tag, packet := f.payload }] } }) ∧
    (∀ dir, s.dev.probedDir f = some dir → (s.dev.detour dir).state = 1 →
      Runs (.mgmtReply f) s ((s.dev.modDetour dir fun x => { x with probeTag := none }).setDetour dir 2 4)) ∧
    (s.dev.probedDir f = none → Runs (.mgmtReply f) s (s.dev.countDiscard 176 discReserved)) ∧
    (f.payload.length = 64 → s.dev.faults.held < 4095 →
      let r := faultOfBytes f.payload
      let own : Bool := (r.cls ≤ 10 || r.cls = 16) && !r.drill
      let d : Dev := { s.dev with faults := { s.dev.faults with
        queue := s.dev.faults.queue ++ [r], lastNonDrill := if own then some s.dev.now else s.dev.faults.lastNonDrill } }
      r.foreign = true ∧
        Runs (.mgmtEvent f) s (if s.dev.faults.eventMask.getLsbD r.cls then d.signal s.dev.faults.vector.toNat else d))

/-! ### Management commands -/

/-- NOP (R307) is answered OK and changes nothing else. A GET (R320) of each family: OFFSET and LENGTH multiples of 8 within the object
answer its bytes, in the reply up to 48 bytes, else in the reference; a span past the object is OUT_OF_RANGE with DETAIL 20. A GET
leaves every object as it was. -/
def Obligations.GetsAnswer : Prop :=
  (∀ (s : State) (r : RingNo) (c : Cmd), let fm : Form := { op := 0x0000, roles := [1, 2, 3], get := true }
    s.dev.hears r c fm → Runs (.nop c) s ((s.dev.heard r fm c).answered s.dev fm c 0 0 [])) ∧
  ∀ e ∈ ([(0x0100, [0x01, 0x3A], .identityGet), (0x0200, [0x02, 0x03, 0x04], .portGet), (0x0300, [0x05, 0x06], .routingGet),
      (0x0400, [0x07, 0x08], .regionGet), (0x0500, [0x09], .sliceGet), (0x0600, [0x0B], .groupGet), (0x0700, [0x10, 0x11, 0x12], .tileGet),
      (0x0800, [0x18, 0x19, 0x1A], .poolGet), (0x0900, [0x20], .powerGet), (0x0A00, [0x28, 0x29], .firmwareGet),
      (0x0B00, [0x30, 0x31], .perturbationGet), (0x0C00, [0x38, 0x39], .faultGet)] : List (Nat × List Nat × (Cmd → Instr))),
    ∀ (s : State) (r : RingNo) (c : Cmd),
      let fm : Form := { op := e.1, roles := if c.cls = 0x01 then [0, 1, 2, 3] else [1, 2, 3], used := [(16, 64)], ref := 2, out := true, get := true }
      let img := s.dev.image s.fuses c.cls.toNat c.inst.toNat
      let off := c.u 16 4
      let len := c.u 20 4
      s.dev.hears r c fm → e.2.1.contains c.cls.toNat = true → instanceOk c.cls.toNat c.inst.toNat = true → off % 8 = 0 → len % 8 = 0 →
      len ≠ 0 →
      (img.length < off + len → Runs (e.2.2 c) s ((s.dev.heard r fm c).answered s.dev fm c 0x03 20 [])) ∧
      (off + len ≤ img.length →
        (len ≤ 48 → Runs (e.2.2 c) s ((s.dev.heard r fm c).answered s.dev fm c 0 0 (cut img off len))) ∧
        (48 < len → c.ref.isSome = true → refLen c = len →
          Runs (e.2.2 c) s (((s.dev.heard r fm c).answersTo s.dev r fm c (cut img off len)).answered s.dev fm c 0 0 [])))

/-- SETs (R320): the fields of the bytes written change as one, what is read-only stays as it was, and the reply is OK. POWER_SET writes
FALLBACK_W (R397), POOL_SET a context's RUNNING (R265), TILE_SET the ENTRY_KEY of a pipeline in STATE 1 (R232), ROUTING_SET a node-table
entry (R151), REGION_SET a region entry (R33), PORT_SET the spill threshold of an internal port (R127, R318), FIRMWARE_SET nothing (R412,
R416), PERTURBATION_SET a disarmed drill (R378), FAULT_SET the keys of a replay (R374), GROUP_SET the key of an idle group (R167). -/
def Obligations.SetsWrite : Prop :=
  ∀ (s : State) (r : RingNo) (c : Cmd), c.ref = none → instanceOk c.cls.toNat c.inst.toNat = true →
    let i := c.inst.toNat
    let d := s.dev.taken r 1 c
    let form (op : Nat) (roles : List Nat) : Form := { op := op, roles := roles, used := [(16, 64)], ref := 2 }
    let spans (off len : Nat) : Prop := c.u 16 4 = off ∧ c.u 20 4 = len ∧ strayFrom c (24 + len) = none
    (s.dev.hears r c (form 0x0901 [1]) → c.cls = 0x20 → spans 16 8 → 1500 ≤ c.u 24 4 → c.u 24 4 ≤ 4000 →
      Runs (.powerSet c) s ((d.changeLimit fun p => { p with fallback := c.u 24 4 }).replies s.dev (form 0x0901 [1]) c (.ok 0 []))) ∧
    (s.dev.hears r c (form 0x0801 [1]) → c.cls = 0x19 → spans 8 8 → (s.dev.checkCtx i).state ≠ 1 →
      Runs (.poolSet c) s ((d.modCheck i fun x => { x with running := BitVec.ofNat 64 (c.u 24 8) }).answered s.dev (form 0x0801 [1]) c 0 0 [])) ∧
    (s.dev.hears r c (form 0x0701 [1]) → c.cls = 0x12 → spans 8 8 → (s.dev.pipe i).state = 1 → 10 ≤ (s.dev.pipe i).stallUs →
      (s.dev.pipe i).stallUs ≤ 100000 → s.dev.isConf (s.dev.pipe i).slice.toNat = false →
      Runs (.tileSet c) s ((d.modPipe i fun x => { x with entryKey := BitVec.ofNat 64 (c.u 24 8) }).answered s.dev (form 0x0701 [1]) c 0 0 [])) ∧
    (s.dev.hears r c (form 0x0301 [1]) → c.cls = 0x06 → spans 0 8 → let v := c.u 24 8
      field v 62 2 = 2 → field v 51 11 = 0 → field v 32 8 = 0xFF → inDomain s.dev.rt (field v 40 11) = true → field v 40 11 ≠ s.dev.rack →
      (tget s.dev.rt.nodes i {}).valid = false → s.dev.nodeBusy i = false →
      let x : NodeEntry := { valid := true, dead := false, rack := BitVec.ofNat 11 (field v 40 11), edgePort := 0xFF, discards := 0 }
      Runs (.routingSet c) s
        ({ d with rt := { d.rt with nodes := tset d.rt.nodes i x } }.answered s.dev (form 0x0301 [1]) c 0 0 [])) ∧
    (s.dev.hears r c (form 0x0401 [1]) → c.cls = 0x07 → spans 0 16 → let v := c.u 32 8
      field v 59 4 = 0 → field v 32 12 = 0 → (s.dev.region i).valid = false → s.dev.isConf (field v 46 10) = false →
      let x : Region := { key := BitVec.ofNat 64 (c.u 24 8), valid := v.testBit 63, a := v.testBit 58, w := v.testBit 57, r := v.testBit 56,
                          slice := BitVec.ofNat 10 (field v 46 10), enc := BitVec.ofNat 2 (field v 44 2), length := BitVec.ofNat 13 (field v 19 13),
                          base := BitVec.ofNat 19 (field v 0 19), refusals := 0 }
      field v 44 2 ≤ 1 → (x.valid = true → s.dev.regionFault i x = none) →
      Runs (.regionSet c) s ((d.modRegion i fun _ => x).answered s.dev (form 0x0401 [1]) c 0 0 [])) ∧
    (s.dev.hears r c (form 0x0201 [1, 2]) → c.cls = 0x02 → 144 ≤ i → spans 56 8 → c.u 28 4 = 0 → 4096 ≤ c.u 24 4 → c.u 24 4 ≤ 262144 →
      512 ≤ (s.dev.port i).markDepth → (s.dev.port i).markDepth ≤ 262144 →
      Runs (.portSet c) s ((d.modPort i fun x => { x with spillThresh := c.u 24 4 }).answered s.dev (form 0x0201 [1, 2]) c 0 0 [])) ∧
    (s.dev.hears r c (form 0x0A01 [1, 2]) → c.cls = 0x28 → spans 0 8 →
      Runs (.firmwareSet c) s (d.answered s.dev (form 0x0A01 [1, 2]) c 0 0 [])) ∧
    (s.dev.hears r c (form 0x0B01 [1]) → c.cls = 0x31 → spans 0 16 → (s.dev.drill i).state = 0 → c.u 24 1 ≤ 4 → c.u 26 2 = 0 →
      60 ≤ c.u 32 4 → c.u 32 4 ≤ 2592000 → 2 * c.u 36 4 ≤ c.u 32 4 →
      Runs (.perturbationSet c) s
        ((d.modDrill i fun x => { x with kind := c.u 24 1, target := BitVec.ofNat 32 (c.u 28 4), interval := BitVec.ofNat 32 (c.u 32 4),
                                         jitter := BitVec.ofNat 32 (c.u 36 4) }).answered s.dev (form 0x0B01 [1]) c 0 0 [])) ∧
    (s.dev.hears r c (form 0x0C01 [1]) → c.cls = 0x38 → spans 208 16 → s.dev.faults.replayState ≠ 1 →
      (s.dev.faults.logEnable = true → s.dev.pool.logPages ≠ 0) →
      Runs (.faultSet c) s
        ({ d with faults := { d.faults with oldKey := BitVec.ofNat 64 (c.u 24 8), newKey := BitVec.ofNat 64 (c.u 32 8) } }.answered s.dev
          (form 0x0C01 [1]) c 0 0 [])) ∧
    (s.dev.hears r c (form 0x0601 [1]) → c.cls = 0x0B → spans 0 8 → (s.dev.group i).state = 1 → s.dev.isConf (s.dev.group i).slice.toNat = false →
      (s.dev.group i).reduce < 4 → (s.dev.group i).transport < 4 →
      let g := { s.dev.group i with key := BitVec.ofNat 64 (c.u 24 8) }
      s.dev.groupFault i g = none → Runs (.groupSet c) s ((d.modGroup i fun _ => g).answered s.dev (form 0x0601 [1]) c 0 0 []))

/-- Link and detour commands. LINK_DOWN (R323, R282) takes a port out of service with the reason given, and does nothing to one that is out.
LINK_UP (R323) starts bring-up of a port that is out of service, and nothing on one that is up or on its way. LINK_RETRAIN (R294) and
BER_TEST (R425), both signed, start the runs of the installation test. DETOUR_RELEASE and DETOUR_RESTORE (R164) route the direction's frames
again. PORT_SLICE (R41, R284) gives an idle edge port its slice.
Choices of the model that this writes out: the port after LINK_DOWN (log 46), a slice not created (log 131), commands in another state (log
133), when a held frame is routed again (log 177). -/
def Obligations.LinkAndDetourCommands : Prop :=
  ∀ (s : State) (r : RingNo) (c : Cmd),
    let p := c.inst.toNat
    let x := s.dev.port p
    let d := s.dev.taken r 1 c
    let dir := c.u 16 1
    (let fm : Form := { op := 0x0211, roles := [1, 2], cls := some 0x02, used := [(16, 17)], hi := 176 }
     s.dev.hears r c fm → c.u 16 1 ≤ 3 →
     (144 ≤ p → Runs (.linkDownCommand c) s (d.answered s.dev fm c 0x43 8 [])) ∧
     (p < 144 → x.lstate ≠ 7 → Runs (.linkDownCommand c) s (d.answered s.dev fm c 0 0 [])) ∧
     (p < 144 → x.lstate = 7 → Runs (.linkDownCommand c) s ((d.sendDown p (c.u 16 1) 0 0).replies s.dev fm c (.ok 0 [])))) ∧
    (let fm : Form := { op := 0x0212, roles := [1, 2], cls := some 0x02, hi := 176 }
     s.dev.hears r c fm → p < 144 → x.kind = 1 ∨ x.kind = 2 → x.hold ∉ [3, 4, 5] → x.lstate ≠ 9 →
     (x.lstate = 7 → Runs (.linkUp c) s (d.answered s.dev fm c 0 0 [])) ∧
     (1 ≤ x.lstate → x.lstate ≤ 6 → Runs (.linkUp c) s (d.answered s.dev fm c 0 0 [] true)) ∧
     (x.lstate = 0 ∨ 8 ≤ x.lstate → Runs (.linkUp c) s ((d.bringUp p).replies s.dev fm c .started))) ∧
    (∀ e : Envelope, let fm : Form := { op := 0x0210, roles := [2], cls := some 0x02, hi := 176 }
     s.dev.hearsSigned r c e fm → p < 144 → x.kind = 1 ∨ x.kind = 2 → x.hold ∉ [3, 5] →
     Runs (.linkRetrain c) s (s.dev.signedReplies r e fm c (fun d => d.startTest p 7 true) .started)) ∧
    (∀ e : Envelope, let fm : Form := { op := 0x0B20, roles := [2], cls := some 0x02, used := [(16, 17)], hi := 176 }
     s.dev.hearsSigned r c e fm → p < 144 → x.kind = 1 ∨ x.kind = 2 → x.hold ∉ [3, 5] → 1 ≤ c.u 16 1 → c.u 16 1 ≤ 7 →
     s.dev.active 9 (obj 0x02 p) = [] → s.dev.active 10 (obj 0x02 p) = [] →
     Runs (.berTest c) s (s.dev.signedReplies r e fm c (fun d => d.startTest p (c.u 16 1) false) .started)) ∧
    (let fm : Form := { op := 0x0310, roles := [1], cls := some 0x05, used := [(16, 17)] }
     s.dev.hears r c fm → dir ≤ 5 → (s.dev.detour dir).state = 2 →
     ((s.dev.detour dir).released = true → Runs (.detourRelease c) s (d.answered s.dev fm c 0 0 [])) ∧
     ((s.dev.detour dir).released = false → Runs (.detourRelease c) s
        (((d.modDetour dir fun y => { y with released := true }).rerouteDir dir fun _ => true).replies s.dev fm c (.ok 0 [])))) ∧
    (let fm : Form := { op := 0x0311, roles := [1], cls := some 0x05, used := [(16, 17)] }
     s.dev.hears r c fm → dir ≤ 5 → (s.dev.bundle dir).any s.dev.inService = true →
     ((s.dev.detour dir).state = 0 → Runs (.detourRestore c) s (d.answered s.dev fm c 0 0 [])) ∧
     ((s.dev.detour dir).state ≠ 0 → Runs (.detourRestore c) s
        ((((d.modDetour dir fun y => { y with released := false, probeTag := none }).setDetour dir 0 0).rerouteDir dir fun _ => true).replies
          s.dev fm c (.ok 0 [])))) ∧
    (let fm : Form := { op := 0x0512, roles := [1], cls := some 0x02, used := [(16, 18)], hi := 176 }
     s.dev.hears r c fm → p < 144 → x.kind = 1 → 1 ≤ c.u 16 2 → c.u 16 2 ≤ 1023 → s.dev.endpointActive p = false →
     (x.slice.toNat = c.u 16 2 → x.assignSent = true → Runs (.portSlice c) s (d.answered s.dev fm c 0 0 [])) ∧
     (x.slice.toNat ≠ c.u 16 2 → Runs (.portSlice c) s
        (((d.modPort p fun y => { y with slice := BitVec.ofNat 10 (c.u 16 2) }).assignNode p).replies s.dev fm c (.ok 0 []))))

/-- Slices and translation. SLICE_CREATE (R326) makes a free slice active. SLICE_TEARDOWN (R366) leaves it sweeping, its regions without
force, its keys and release record gone. FUNCTION_DISABLE (R368) stops admission and its reply waits for the drain, whose end
(FUNCTION_DISABLE_DRAIN_END) ends what is left. XLATE_INVALIDATE (R49) drops translations, XLATE_WRITE stores into the table area, XLATE_READ
reads it (R326). REGION_REVOCATION_DONE (R37) answers a SET once no operation under the old entry is left.
Choices of the model that this writes out: what a revocation waits for (log 128), slices in another state (log 129), the form of
FUNCTION_DISABLE (log 130), faults and hiding of XLATE_READ and XLATE_WRITE (log 132), copies of the slice (log 196). -/
def Obligations.SliceCommands : Prop :=
  ∀ (s : State) (r : RingNo) (c : Cmd),
    let i := c.inst.toNat
    let d := s.dev.taken r 1 c
    let a := c.u 24 8
    (let fm : Form := { op := 0x0510, roles := [1], cls := some 0x09, used := [(16, 17), (24, 32)], hi := 1023 }
     s.dev.hears r c fm → i ≠ 0 → (s.dev.slice i).state = 0 → c.u 16 1 ≤ 1 →
     (c.u 16 1 = 1 → s.dev.sec.debugUnlocked = false ∧ s.dev.fw.fwState ≠ 1) → a = 0 ∨ (a % 65536 = 0 ∧ s.dev.pool.inTables a 65536 = true) →
     Runs (.sliceCreate c) s ((d.modSlice i fun x =>
       { x with state := 1, conf := c.u 16 1 = 1, disabled := 0, l1Table := BitVec.ofNat 48 a, tornDown := false,
                measure := if c.u 16 1 = 1 then Config.sha384 (le 2 i) else 0 }).answered s.dev fm c 0 0 [])) ∧
    (let fm : Form := { op := 0x0511, roles := [1], cls := some 0x09, hi := 1023 }
     s.dev.hears r c fm → i ≠ 0 → (s.dev.slice i).state = 1 →
     ((d.teardown i).sliceReply s.dev.host.nextWait i 8 = none →
        Runs (.sliceTeardown c) s (((d.teardown i).fault (sliceRec i 8)).replies s.dev fm c (.ok 0 []))) ∧
     (∀ x, (d.teardown i).sliceReply s.dev.host.nextWait i 8 = some x → Runs (.sliceTeardown c) s (x.awaits s.dev fm c)) ∧
     (let x := d.teardown i
      (x.slice i).state = 3 ∧ (x.slice i).tornDown = true ∧ x.slotOf i = none ∧ x.releaseOf i = none ∧
       (∀ k, (x.region k).valid = true → (x.region k).slice.toNat ≠ i) ∧ x.pool.sweeping.contains i = true)) ∧
    (let fm : Form := { op := 0x0513, roles := [1], cls := some 0x09, used := [(16, 17)], hi := 1023 }
     s.dev.hears r c fm → i ≠ 0 → (s.dev.slice i).state = 1 → c.u 16 1 ≤ 3 →
     (s.dev.disabled i (c.u 16 1) = true → Runs (.functionDisable c) s (d.answered s.dev fm c 0 0 [])) ∧
     (s.dev.disabled i (c.u 16 1) = false → Runs (.functionDisable c) s
        ((d.modSlice i fun x => { x with disabled := x.disabled ||| BitVec.ofNat 8 (2 ^ c.u 16 1) }).awaits s.dev fm c))) ∧
    (∀ (sl : BitVec 10) (fn : Fin 4) (w : WaitReply), w.effect = true → w.opcode = 0x0513 → w.object = obj 0x09 sl.toNat →
     field w.params.toNat 0 8 = fn.val → w.floor = false → s.dev.host.waiting = [w] → s.dev.host.handover = false → fn.val = 3 →
     (∀ v ∈ s.dev.prot.revoking, v.reply ≠ w.id) →
     ∃ x : Dev, Runs (.functionDisableDrainEnd sl fn) s ((x.fault (sliceRec sl.toNat 7)).sendReply { w with effect := false, status := 0, detail := 0, result := [] }) ∧
       (∀ k, (x.region k).valid = true → (x.region k).slice ≠ sl) ∧ x.pool.sweeping.contains sl.toNat = true) ∧
    (∀ (sl : BitVec 10) (fn : Fin 4), s.dev.host.waiting = [] → Runs (.functionDisableDrainEnd sl fn) s s.dev) ∧
    (let fm : Form := { op := 0x0520, roles := [1], cls := some 0x09, used := [(24, 40)], hi := 1023 }
     s.dev.hears r c fm → a % pageSize = 0 → a < 2 ^ 57 → c.u 32 8 % pageSize = 0 →
     Runs (.xlateInvalidate c) s ((d.invalidate i (a / pageSize) (c.u 32 8 / pageSize)).answered s.dev fm c 0 0 [])) ∧
    (let n := c.u 32 4
     s.dev.pool.inTables a n = true → s.dev.pool.isMappedOut (pageOf a) = false → s.dev.pool.isMappedOut (pageOf (a + n - 1)) = false →
     a % 16 = 0 → n % 16 = 0 → n ≠ 0 → n ≤ 2 ^ 24 → refLen c = n → s.dev.pool.state ≠ 0 →
     (∀ l ∈ linesOf a n, s.dev.dieLost l = false ∧ s.dev.pool.isMappedOut (pageOfLine l) = false ∧ (s.dev.pool.lineMeta l).poison = false) →
     (let fm : Form := { op := 0x0521, roles := [1], cls := some 0x09, used := [(24, 36)], hi := 1023, ref := 1 }
      s.dev.hears r c fm → Runs (.xlateWrite c) s
        (((s.dev.heard r fm c).modPool fun p => p.storeBytes 0 [] a (refBytes c)).answered s.dev fm c 0 0 [])) ∧
     (let fm : Form := { op := 0x0522, roles := [1], cls := some 0x09, used := [(24, 36)], hi := 1023, ref := 1, out := true }
      s.dev.hears r c fm → s.dev.confTables = [] →
      s.dev.isConf i = false →
      Runs (.xlateRead c) s
        (((s.dev.heard r fm c).answersTo s.dev r fm c (memReads s.dev.pool.mem a n)).answered s.dev fm c 0 0 []))) ∧
    (∀ (k : Fin 65536) (id : Nat) (l : List (Nat × Nat)), s.dev.prot.revoking = [⟨k.val, id, l, none, 0⟩] →
     ((∀ o ∈ l, s.dev.hop o.1 o.2 = none) → Runs (.regionRevocationDone k) s
        (({ s.dev with prot := { s.dev.prot with revoking := [] } }).finishWait id 0 0)) ∧
     ((∃ o ∈ l, (s.dev.hop o.1 o.2).isSome = true) → Runs (.regionRevocationDone k) s s.dev))

/-- Relay commands (R327) complete. GROUP_CREATE (R168): an object that R167 and R168 accept fills its free slot and starts with no residuals.
GROUP_DELETE (R185) frees the slot of a group with no launch under way, GROUP_ABORT (R184) aborts the launch under way, RESIDUAL_RESET (R182)
clears the residuals of a group with none; each does nothing where there is nothing to do, and a group with a launch under way is busy for
the two that R327 says. GROUP_LAUNCH (R176): the next launch starts, or is queued behind the one under way; a launch that has started stays; while
one is queued already, and for any other number, it is refused. -/
def Obligations.GroupCommands : Prop :=
  ∀ (s : State) (r : RingNo) (c : Cmd),
    let i := c.inst.toNat
    let g := s.dev.group i
    let d := s.dev.taken r 1 c
    let form (op : Nat) (used : List (Nat × Nat)) (ref : Nat) : Form := { op := op, roles := [1], cls := some 0x0B, used := used, hi := 4095, ref := ref }
    (let fm := form 0x0610 [] 1
     let v := unle (refBytes c)
     let n := field v 144 16
     let x := groupOfNum { state := 1 } v n
     s.dev.hears r c fm → refLen c = 64 + 32 * n → v &&& fieldBits (fieldsOf 0x0B (refLen c)) (fun _ => true) = v → g.state = 0 →
     s.dev.isConf x.slice.toNat = false → s.dev.groupFault i x = none →
     Runs (.groupCreate c) s ((((s.dev.heard r fm c).modGroup i fun _ => x).clearResiduals x).replies s.dev fm c (.ok 0 []))) ∧
    (let fm := form 0x0611 [] 0
     s.dev.hears r c fm →
     (g.state = 0 → Runs (.groupDelete c) s (d.answered s.dev fm c 0 0 [])) ∧
     (g.state = 2 ∨ g.state = 3 → Runs (.groupDelete c) s (d.answered s.dev fm c 0x40 noDetail [])) ∧
     (g.state ∉ [0, 2, 3] → Runs (.groupDelete c) s ((d.dropGroup i).replies s.dev fm c (.ok 0 [])))) ∧
    (let fm := form 0x0612 [(16, 20)] 0
     let q := BitVec.ofNat 16 (c.u 16 2)
     let root := c.u 18 2
     s.dev.hears r c fm →
     (g.state = 0 → Runs (.groupLaunch c) s (d.answered s.dev fm c 0x03 16 [])) ∧
     (s.dev.disabled g.slice.toNat 0 = false →
      (g.state ∈ [1, 4, 5] → q = g.launchSeq + 1 → Runs (.groupLaunch c) s ((d.startLaunch i q root).replies s.dev fm c (.ok 0 []))) ∧
      (g.state ∈ [2, 3] → q = g.launchSeq + 1 → g.queued = none →
        Runs (.groupLaunch c) s ((d.modGroup i fun y => { y with queued := some (q, root) }).answered s.dev fm c 0 0 [])) ∧
      (g.state ∈ [2, 3] → q = g.launchSeq + 1 → g.queued.isSome = true → Runs (.groupLaunch c) s (d.answered s.dev fm c 0x08 16 [])) ∧
      (g.state ≠ 0 → q = g.launchSeq → g.launches ≠ 0 → g.coll ≠ 3 ∨ root = (s.dev.launch i).root →
        Runs (.groupLaunch c) s (d.answered s.dev fm c 0 0 [])) ∧
      (g.state ≠ 0 → q ≠ g.launchSeq + 1 → q ≠ g.launchSeq → Runs (.groupLaunch c) s (d.answered s.dev fm c 0x03 16 []))) ∧
     (g.state ≠ 0 → s.dev.disabled g.slice.toNat 0 = true → Runs (.groupLaunch c) s (d.answered s.dev fm c 0x07 16 []))) ∧
    (let fm := form 0x0613 [] 0
     s.dev.hears r c fm →
     (g.state = 2 ∨ g.state = 3 → Runs (.groupAbort c) s ((d.abortAndGo i 0x05 0x07 true).replies s.dev fm c (.ok 0 []))) ∧
     (g.state ∉ [2, 3] → Runs (.groupAbort c) s (d.answered s.dev fm c 0 0 []))) ∧
    (let fm := form 0x0614 [] 0
     s.dev.hears r c fm →
     (g.state = 2 ∨ g.state = 3 → Runs (.residualReset c) s (d.answered s.dev fm c 0x40 noDetail [])) ∧
     (g.state = 0 → Runs (.residualReset c) s (d.answered s.dev fm c 0 0 [])) ∧
     (g.state ∉ [0, 2, 3] → Runs (.residualReset c) s ((d.clearResiduals g).replies s.dev fm c (.ok 0 []))))

/-- Pipeline commands. LAST_LOAD (R229): a last that passes every check is held for the mesh cycle boundary, and its reply with it.
PIPE_START (R233): what the translation buffer holds is taken, the rest walked, or the start is refused. PIPE_DRAIN, PIPE_STOP and
PIPE_UNLOAD (R234) in the states that allow them. POSITION_READ (R216): the memory asked for, in ciphertext for a confidential slice.
Choices of the model that this writes out: the order of the checks (log 96), which positions a slice may load (log 97), the tweak of
POSITION_READ (log 98), the check-value context (log 99). -/
def Obligations.PipelineCommands : Prop :=
  ∀ (s : State) (r : RingNo) (c : Cmd),
    let i := c.inst.toNat
    let x := s.dev.pipe i
    let d := s.dev.taken r 1 c
    (let fm : Form := { op := 0x0710, roles := [1], cls := some 0x12, used := [(16, 19), (24, 40)] }
     let sl := c.u 16 2
     let h := padTo 64 c.host.bytes
     let bs := padTo (lastTotal h) c.host.bytes
     s.dev.hears r c fm → sl < 1024 → c.u 18 1 = 0 → c.u 32 8 = 0 → s.dev.xlate.atsEnable = false → s.dev.sliceEnded sl 1 = none → s.dev.sliceLive sl = true →
     s.dev.isConf sl = false → c.host.translates = true → lastHeaderOk h = true → s.dev.lastFault bs = none →
     Runs (.lastLoad c) s
       (let y := (d.streamJob (BitVec.ofNat 10 sl) 0 0 (lastBody bs)).2.2
        { y with tiles := { y.tiles with loading := some ⟨BitVec.ofNat 10 sl, bs, s.dev.host.nextWait, Config.sha384 bs⟩ } }.awaits s.dev fm c)) ∧
    (let fm := pipeForm 0x0711
     s.dev.hears r c fm → x.state = 1 → x.stopping = false → s.dev.disabled x.slice.toNat 1 = false →
     (∀ y, d.startLookups i (x.windows.flatMap windowPages).eraseDups = .ok y →
       Runs (.pipeStart c) s ((y.modPipe i fun z => { z with starting := some s.dev.host.nextWait }).replies s.dev fm c .wait)) ∧
     (∀ w, d.startLookups i (x.windows.flatMap windowPages).eraseDups = .error w → Runs (.pipeStart c) s (d.answered s.dev fm c 0x02 w [])) ∧
     (x.windows = [] → Runs (.pipeStart c) s ((d.modPipe i fun z => { z with starting := some s.dev.host.nextWait }).replies s.dev fm c .wait))) ∧
    (let fm := pipeForm 0x0712
     s.dev.hears r c fm →
     (x.state = 2 → x.stopping = false → Runs (.pipeDrain c) s ((d.modPipe i fun y => { y with state := 3 }).answered s.dev fm c 0 0 [] true)) ∧
     (x.state ≠ 2 → Runs (.pipeDrain c) s (d.answered s.dev fm c 0x40 noDetail []))) ∧
    (let fm := pipeForm 0x0713
     s.dev.hears r c fm →
     (x.active = true → Runs (.pipeStop c) s ((d.stopPipe i pcCommand 0x07 255 0).replies s.dev fm c (.ok 0 []))) ∧
     (x.active = false → Runs (.pipeStop c) s (d.answered s.dev fm c 0x40 noDetail []))) ∧
    (let fm := pipeForm 0x0714
     s.dev.hears r c fm → x.state = 1 ∨ x.state = 4 →
     Runs (.pipeUnload c) s ((d.modPipe i fun y => { y with unloading := some s.dev.host.nextWait }).awaits s.dev fm c)) ∧
    (let fm : Form := { op := 0x0720, roles := [1], cls := some 0x10, hi := 199, used := [(16, 17), (24, 36)], ref := 1, out := true }
     let y := s.dev.pos i
     let area := c.u 16 1
     let off := c.u 24 8
     let len := c.u 32 4
     let bs := memReads (if area = 0 then y.sram else if area = 1 then y.vregs else y.istore) off len
     s.dev.hears r c fm → area ≤ 2 → off + len ≤ (if area = 0 then 2 ^ 24 else if area = 1 then 65536 else 262144) → refLen c = len →
     isPassThrough i = false → y.state = 1 ∨ y.state = 4 ∨ y.state = 5 →
     (s.dev.isConf y.slice.toNat = false → Runs (.positionRead c) s
       (((s.dev.heard r fm c).answersTo s.dev r fm c bs).answered s.dev fm c 0 0 [])) ∧
     (∀ k, s.dev.isConf y.slice.toNat = true → s.dev.slotOf y.slice.toNat = some k → Runs (.positionRead c) s
       (((s.dev.heard r fm c).answersTo s.dev r fm c (Config.xtsEncrypt (poolKey k) (i * 2 ^ 64 + off) bs)).answered s.dev fm c 0 0 [])))

/-- Attestation, key release and key slots. ATTEST (R342) writes its quote into a buffer of 8,192 bytes or more, and refuses a smaller one. KEY_RELEASE_OPEN (R345) makes one open of a
confidential slice, replacing the one before it; KEY_RELEASE_OPEN_EXPIRY ends it. KEY_RELEASE_ACCEPT (R346–R348) destroys the open whatever
the outcome, and fills the lowest free slot when every check holds. KEY_INSTALL and KEY_REVOKE (R350) fill and empty a slot.
Choices of the model that this writes out: wrapping is a reversible opaque function (log 7), where the nonce stands (log 154), RELEASE_ID
(log 155), the order of the checks (log 156), KEY_INSTALL (log 157), what KEY_REVOKE leaves (log 158). -/
def Obligations.KeyCommands : Prop :=
  ∀ (s : State) (r : RingNo) (c : Cmd),
    let sl := c.u 16 2
    let d (fm : Form) : Dev := s.dev.heard r fm c
    let out (fm : Form) (q : List Byte × Dev) : Dev := q.2.answersTo s.dev r fm c q.1
    (let fm : Form := { op := 0x0110, roles := [1], cls := some 0x01, used := [(16, 64)], ref := 1, out := true }
     s.dev.hears r c fm →
     (refLen c < 8192 → Runs (.attest c) s ((d fm).answered s.dev fm c 0x49 52 [])) ∧
     (8192 ≤ refLen c → Runs (.attest c) s
       ((out fm ((d fm).signedWithChain (le 48 c.params.toNat ++ le 8 Config.serial.toNat ++ le 8 s.dev.now ++ s.dev.measBytes s.fuses))).answered
         s.dev fm c 0 0 []))) ∧
    (let fm : Form := { op := 0x0111, roles := [1], cls := some 0x09, used := [(16, 18)], hi := 1023, ref := 1, out := true }
     s.dev.hears r c fm → s.dev.confAndActive sl = true → s.dev.sec.debugUnlocked = false → 8192 ≤ refLen c →
     let n := s.dev.prot.nextOpen
     let rid := s.dev.prot.releaseId + 1
     let rest := s.dev.prot.opens.filter fun o => o.slice.toNat ≠ sl
     let o : KeyOpen := { slice := BitVec.ofNat 10 sl, releaseId := rid, number := n }
     let x : Dev := { (d fm) with prot := { s.dev.prot with opens := rest ++ [o], nextOpen := n + 1, releaseId := rid } }
     Runs (.keyReleaseOpen c) s
       ((out fm (x.signedWithChain (le 2 sl ++ zeros 2 ++ le 4 rid.toNat ++ le 8 Config.serial.toNat ++ be 96 (Config.ecdhPublic n).toNat ++
         s.dev.measBytes s.fuses ++ le 48 (s.dev.slice sl).measure.toNat))).answered s.dev fm c 0 0 [])) ∧
    (∀ k : BitVec 10, Runs (.keyReleaseOpenExpiry k) s (s.dev.dropOpen k.toNat) ∧ (s.dev.dropOpen k.toNat).openOf k.toNat = none) ∧
    (let fm : Form := { op := 0x0112, roles := [1], cls := some 0x09, used := [(16, 18)], hi := 1023, ref := 1 }
     let m := refBytes c
     let n := num m 124 4
     s.dev.hears r c fm → s.dev.confAndActive sl = true → s.dev.slotOf sl = none → s.dev.sec.debugUnlocked = false →
     let x := (d fm).dropOpen sl
     (s.dev.openOf sl = none → Runs (.keyReleaseAccept c) s (x.replies s.dev fm c (.denied 0x0A 4))) ∧
     (∀ o, s.dev.openOf sl = some o → num m 0 4 = sl → num m 4 4 = o.releaseId.toNat → num m 8 8 = Config.serial.toNat →
       refLen c = 128 + n + 16 → 48 ≤ n →
       ∃ y, Runs (.keyReleaseAccept c) s y ∧
         (openMessage o m = none → y = x.replies s.dev fm c (.denied 0x0A (128 + n))) ∧
         (∀ p, openMessage o m = some p →
           (∀ b, payloadFault n p = some b → y = x.replies s.dev fm c (.denied 0x0A b)) ∧
           (payloadFault n p = none → s.dev.freeKeySlot = none → y = x.replies s.dev fm c (.denied 0x0A noDetail)) ∧
           (∀ k place, payloadFault n p = none → s.dev.freeKeySlot = some k → s.dev.freePlace o.slice = some place →
             y = (x.fillSlot k place o p).replies s.dev fm c (.ok 0 []))))) ∧
    (let fm : Form := { op := 0x0410, roles := [1], cls := some 0x08, used := [(16, 18)], hi := 63, ref := 1 }
     let b := refBytes c
     let w := BitVec.ofNat 320 (unbe (cut b 16 40))
     let i := c.inst.toNat
     s.dev.hears r c fm → num b 0 2 = sl → s.dev.confAndActive sl = true → (∃ x, s.dev.releaseOf sl = some x ∧ x.releaseId.toNat = num b 4 4) →
     (tget s.dev.prot.keySlots i {}).state ≠ 1 → s.dev.slotOf sl = none → refLen c = 64 →
     Runs (.keyInstall c) s (match s.dev.unwrap w with
       | none => (d fm).answered s.dev fm c 0x0A noDetail []
       | some key =>
         let k : KeySlot := { slice := BitVec.ofNat 10 sl, state := 1, releaseId := BitVec.ofNat 32 (num b 4 4), rootKey := key, wrapped := w }
         ({ (d fm) with prot := { s.dev.prot with keySlots := tset s.dev.prot.keySlots i k } }).answered s.dev fm c 0 0 [])) ∧
    (let fm : Form := { op := 0x0411, roles := [1], cls := some 0x08, hi := 63 }
     s.dev.hears r c fm → Runs (.keyRevoke c) s
       (({ (d fm) with prot := { s.dev.prot with keySlots := tdel s.dev.prot.keySlots c.inst.toNat } }).answered s.dev fm c 0 0 []))

/-- Credentials and maker tokens. CRED_PROVISION (R334, R335): in bootstrap an unsigned one installs the first installer and ends bootstrap.
CRED_REVOKE (R334) sets STATE 2. DEBUG_UNLOCK and FIELD_RETURN (R354) do what a maker token allows, where envelope and token hold, and are
refused with the byte that fails otherwise; a field return burns its fuse.
Choices of the model that this writes out: provisioning commits nothing but the end of bootstrap (log 148), the order of the checks (log
159), a slot not in force (log 160), what a field return leaves (log 161), checks on tokens (log 162). -/
def Obligations.CredentialCommands : Prop :=
  ∀ (s : State) (r : RingNo) (c : Cmd),
    let b := refBytes c
    let i := c.inst.toNat
    (let fm : Form := { op := 0x0120, roles := [2], cls := some 0x3A, hi := 31, ref := 1 }
     s.dev.ringReady r 0x0120 c 1 → c.env = none → Sys2Proof.Machine.Cmd.fits c fm 2 → ((s.dev.taken r 1 c).refPages fm c).1.isSome = true → s.dev.sec.bootstrap = true → num b 0 1 = 2 →
     (∀ k, 1 ≤ k → k < 64 → num b k 1 = 0) → refLen c = 256 → (s.dev.cred i).state ≠ 1 →
     let d := s.dev.heard r fm c
     let x : Cred := { role := 2, state := 1, pub := BitVec.ofNat 768 (unbe (cut b 64 96)) }
     let y : Dev := { d with sec := { d.sec with creds := tset d.sec.creds i x, bootstrap := false }, flash := { d.flash with bootOver := true } }
     let w : WaitReply := { waitOfCmd s.dev 0x0120 false c with role := 2, effect := false, status := 0, detail := 0, result := [] }
     Runs (.credProvision c) s ((y.audit (auditOf w)).writeReply w)) ∧
    (∀ e : Envelope, let fm : Form := { op := 0x0121, roles := [2], cls := some 0x3A, hi := 31 }
     s.dev.hearsSigned r c e fm → Runs (.credRevoke c) s
       (s.dev.signedOutcome r e fm c
         (fun d => { d with sec := { d.sec with creds := tmod d.sec.creds i {} fun x => { x with state := 2 } } } : Dev → Dev) false)) ∧
    (∀ e : Envelope, let fm : Form := { op := 0x0130, roles := [3], cls := some 0x01, ref := 1 }
     s.dev.hearsSigned r c e fm → s.dev.confActive = false → refLen c = 160 →
     let x := s.dev.heardSigned r e fm c
     Runs (.debugUnlock c) s (match s.dev.envelopeFault 0x0130 c e, tokenFault c 1 with
       | some b, _ => (s.dev.taken r 4 c).answeredTo s.dev e fm c 0x45 b []
       | none, some b => x.answeredTo s.dev e fm c 0x45 b []
       | none, none => x.debugUnlock.answeredTo s.dev e fm c 0 0 [])) ∧
    (∀ e : Envelope, let fm : Form := { op := 0x0131, roles := [3], cls := some 0x01, ref := 1 }
     s.dev.hearsSigned r c e fm → s.dev.confActive = false → refLen c = 160 →
     let x := s.dev.heardSigned r e fm c
     let y : Dev := match s.dev.envelopeFault 0x0131 c e, tokenFault c 2 with
       | some b, _ => (s.dev.taken r 4 c).answeredTo s.dev e fm c 0x45 b []
       | none, some b => x.answeredTo s.dev e fm c 0x45 b []
       | none, none => x.fieldReturn.answeredTo s.dev e fm c 0 0 []
     exec (.fieldReturn c) s = .next (State.burnReturn { s with dev := y }))

/-- Perturbations and tests. PERTURBATION_ARM (R421): a SET with CONTROL 1 that R420 and R421 accept makes the object active, with its counts
anew; PERTURBATION_DISARM and PERTURBATION_EXPIRY (R422) end it with causes 2 and 1. PERTURBATION_PERIOD (R420) turns kinds 3 and 4 on and
off. PATTERN_BER_UPDATE (R423) and BER_TEST_RUN_END (R425) write LAST_BER; the last run maps out the lanes that failed, a retrain clears
the masks of those that passed. ENDPOINT_ACTIVITY_EXPIRY (R41). -/
def Obligations.TestCommands : Prop :=
  ∀ (s : State),
    (∀ (r : RingNo) (c : Cmd) (e : Envelope),
      let fm : Form := { op := 0x0B01, roles := [2], used := [(16, 64)], ref := 2 }
      let k := c.inst.toNat
      let x := { s.dev.perturb k with kind := c.u 24 1, target := BitVec.ofNat 32 (c.u 28 4) }
      s.dev.hearsSigned r c e fm → c.cls = 0x30 → k ≤ 255 → c.ref = none → c.u 16 4 = 0 → c.u 20 4 = 8 → strayFrom c 32 = none →
      (c.u 26 1 = 1 → (s.dev.perturb k).state ≠ 1 → s.dev.armFault x = none →
        Runs (.perturbationArm c) s (s.dev.signedReplies r e fm c (fun d =>
          (d.modPerturb k fun _ => { x with state := 1, applied := 0, started := s.dev.now, ended := 0, on := false }).startPerturb k x) (.ok 0 []))) ∧
      (c.u 26 1 = 2 → x = s.dev.perturb k → x.kind ≤ 12 →
        Runs (.perturbationDisarm c) s (s.dev.signedReplies r e fm c (fun d => d.endPerturb k 2) (.ok 0 [])))) ∧
    (∀ i : Fin 256, let x := s.dev.perturb i
      let p := x.target.toNat % 2 ^ 24
      let ended := s.dev.modPerturb i fun y => { y with state := 2, cause := 1, ended := s.dev.now, on := false }
      (x.state ≠ 1 → Runs (.perturbationExpiry i) s s.dev) ∧
      (x.state = 1 → x.kind ∉ [4, 9, 10] → Runs (.perturbationExpiry i) s ended) ∧
      (x.state = 1 → x.kind = 4 → Runs (.perturbationExpiry i) s (ended.modPort p fun y => { y with starved := 0 })) ∧
      (x.state = 1 → x.kind = 9 ∨ x.kind = 10 → (s.dev.port p).lstate = 10 → (s.dev.port p).testRuns = [] →
        Runs (.perturbationExpiry i) s ((ended.modPort p fun y => { y with hold := 0, lstate := 0 }).bringUp p)) ∧
      (x.state = 1 → x.kind = 3 → Runs (.perturbationPeriod i) s (s.dev.modPerturb i fun y => { y with on := !y.on })) ∧
      (x.state = 1 → x.kind = 4 → Runs (.perturbationPeriod i) s
        ((s.dev.modPerturb i fun y => { y with on := !y.on }).modPort p fun y => { y with starved := if x.on then 0 else x.vcMask })) ∧
      (x.state ≠ 1 ∨ x.kind ∉ [3, 4] → Runs (.perturbationPeriod i) s s.dev)) ∧
    (∀ (p : ExtPort) (errs : List Nat) (bits : Nat),
      (s.dev.active 10 (obj 0x02 p) = [] → Runs (.patternBerUpdate p errs bits) s s.dev) ∧
      (∀ k l, s.dev.active 10 (obj 0x02 p) = k :: l → (s.dev.port p).lstate = 10 → Runs (.patternBerUpdate p errs bits) s
        (s.dev.putBer p (runLanes ((s.dev.perturb k).paramA.toNat + 1)) fun n => ratioFp32 (errs.getD n 0) bits)) ∧
      (s.dev.host.handover = true ∨ (s.dev.port p).testRuns = [] → ∀ locked, Runs (.berTestRunEnd p errs bits locked) s s.dev) ∧
      (∀ run next rest, s.dev.host.handover = false → (s.dev.port p).testRuns = run :: next :: rest → (∀ l ∈ runLanes run, errs.getD l 0 * 1000000 ≤ bits) →
        Runs (.berTestRunEnd p errs bits true) s
          (((s.dev.putBer p (runLanes run) fun l => ratioFp32 (errs.getD l 0) bits).modPort p fun y => { y with testRuns := next :: rest }).emit
            (.pattern p next))) ∧
      (∀ run, s.dev.host.handover = false → (s.dev.port p).testRuns = [run] →
        let y := s.dev.port p
        let lanes := runLanes run
        let mask (l : List Nat) : BitVec 9 := BitVec.ofNat 9 ((l.map fun i => 2 ^ i).foldl (· + ·) 0)
        let failed := y.testFailed ||| mask (lanes.filter fun l => bits < errs.getD l 0 * 1000000)
        let passed : BitVec 9 := if y.retrain then ~~~ (failed ||| y.testOpen) else 0
        ∃ d, Runs (.berTestRunEnd p errs bits true) s d ∧ (d.port p).testRuns = [] ∧ (d.port p).retrain = false ∧
          (d.port p).rxMapped = (y.rxMapped ||| failed) &&& ~~~ passed ∧ (d.port p).txMapped = y.txMapped &&& ~~~ passed)) ∧
    (∀ p : ExtPort, Runs (.endpointActivityExpiry p) s (s.dev.modPort p fun y => { y with recentFrame := false }))

/-- Drills. DRILL_ARM and DRILL_DISARM (R378). DRILL_DUE (R380, R427): an armed drill is injected, or skipped where a condition stands in its
way, and recorded either way. LINK_DROP_RESTORE (R379) brings the port back that a drill took down. -/
def Obligations.DrillsInject : Prop :=
  ∀ (s : State),
    (∀ (r : RingNo) (c : Cmd), let i := c.inst.toNat
      let x := s.dev.drill i
      let d := s.dev.taken r 1 c
      (let fm : Form := { op := 0x0B30, roles := [1], cls := some 0x31, hi := 63 }
       s.dev.hears r c fm → x.kind ≠ 0 → x.suits = true → 60 ≤ x.interval.toNat →
       (x.kind = 3 → s.dev.isConf (s.dev.pos (x.target.toNat % 2 ^ 24)).slice.toNat = false) →
       Runs (.drillArm c) s ((d.modDrill i fun y => if y.state = 0 then { y with state := 1 } else y).answered s.dev fm c 0 0 [])) ∧
      (let fm : Form := { op := 0x0B31, roles := [1], cls := some 0x31, hi := 63 }
       s.dev.hears r c fm → Runs (.drillDisarm c) s ((d.modDrill i fun y => { y with state := 0 }).answered s.dev fm c 0 0 []))) ∧
    (∀ i : Fin 64, let x := s.dev.drill i
      (x.state ≠ 1 → Runs (.drillDue i) s s.dev) ∧
      (x.state = 1 → s.dev.skipsDrill = true → Runs (.drillDue i) s
        ((s.dev.modDrill i fun y => { y with skipped := satAdd 32 y.skipped 1 }).fault (drillRec i x.kind 0))) ∧
      (x.state = 1 → s.dev.skipsDrill = false →
        ∃ y : Dev, Runs (.drillDue i) s (y.inject1 i x) ∧ y.drill i = { x with injected := satAdd 32 x.injected 1, last := s.dev.now } ∧
          y.test.lastDrill = some s.dev.now ∧ (x.target, s.dev.now + 1000000000) ∈ y.faults.drillMarks ∧ s.dev.faults.nextSeq < y.faults.nextSeq)) ∧
    (∀ p : ExtPort,
      ((s.dev.port p).dropDrill = false → Runs (.linkDropRestore p) s s.dev) ∧
      ((s.dev.port p).dropDrill = true →
        let back (x : Drill) : Drill := if x.kind = 1 && x.state = 2 && x.target = obj 0x02 p then { x with state := 1 } else x
        let d := ({ s.dev with test := { s.dev.test with drills := tmap s.dev.test.drills fun _ x => back x } }).modPort p fun y =>
          { y with dropDrill := false }
        Runs (.linkDropRestore p) s (if (s.dev.port p).lstate = 0 then d.bringUp p else d)))

/-- Power and temperature. CAP_SET (R389) and HEARTBEAT (R393); samples (R390, R391, R392, R395) move the average, force and release level 4,
and shut the module down; steps (R390) move the level by one.
Reference clock (R383): its loss is recorded and held over; at the end of holdover every external port is out of service and held; its return
is recorded and lets held ports come up. -/
def Obligations.PowerThermalAndReference : Prop :=
  (
  ∀ (s : State), let p := s.dev.power
    (∀ (r : RingNo) (c : Cmd), let d := s.dev.taken r 1 c
      (let fm : Form := { op := 0x0910, roles := [1], cls := some 0x20, used := [(16, 21)] }
       s.dev.hears r c fm → c.u 20 1 ≤ 1 → c.u 16 4 = noCap ∨ (1500 ≤ c.u 16 4 ∧ c.u 16 4 ≤ 4000) →
       Runs (.capSet c) s ((d.changeLimit fun q =>
         if c.u 20 1 = 0 then { q with rmCap := BitVec.ofNat 32 (c.u 16 4) } else { q with opCap := BitVec.ofNat 32 (c.u 16 4) }).replies
           s.dev fm c (.ok 0 []))) ∧
      (let fm : Form := { op := 0x0911, roles := [1], cls := some 0x20 }
       let x := d.modPower fun q => { q with hbState := 1 }
       s.dev.hears r c fm →
       (p.hbState ≠ 2 → Runs (.heartbeat c) s (x.answered s.dev fm c 0 0 [])) ∧
       (p.hbState = 2 → Runs (.heartbeat c) s ((x.fault { powerRec x 0x07 with ended := true }).replies s.dev fm c (.ok 0 []))))) ∧
    (∀ watt mv aux : Nat,
      let q := { p with samples := (watt :: p.samples).take 50, peak := max p.peak watt, inputMv := mv, auxMv := aux,
                        goodSamples := if 10 * watt ≤ 9 * p.limit then p.goodSamples + 1 else 0 }
      (5000 < watt → p.mainOn = true → p.forcedPeak = false → ∃ d, Runs (.powerSample watt mv aux) s d ∧
        d.power = { q with forcedPeak := true, peakEvents := satAdd 32 p.peakEvents 1, level := 4 }) ∧
      (watt ≤ 5000 → 1000 ≤ q.goodSamples → Runs (.powerSample watt mv aux) s { s.dev with power := { q with forcedPeak := false } }) ∧
      (watt ≤ 5000 → q.goodSamples < 1000 → Runs (.powerSample watt mv aux) s { s.dev with power := q })) ∧
    (p.mainOn = true → p.limit < p.average → p.limit < p.samples.headD 0 →
      ∃ d, Runs .levelUpStep s d ∧ d.power = { p with level := min 4 (p.level + 1) }) ∧
    (p.average ≤ p.limit → Runs .levelUpStep s s.dev) ∧
    (1000 ≤ p.goodSamples → p.forced = false → p.tempHigh = false → p.dramHigh = false → 0 < p.level →
      ∃ d, Runs .levelDownStep s d ∧ d.power = { p with level := p.level - 1, goodSamples := 0 }) ∧
    (p.goodSamples < 1000 → Runs .levelDownStep s s.dev) ∧
    (p.mainOn = true → p.forcedPin = false → ∃ d, Runs .capDownAssert s d ∧
      d.power = { p with forcedPin := true, pinEvents := satAdd 32 p.pinEvents 1, level := 4 }) ∧
    (p.mainOn = true → p.forcedDroop = false → ∃ d, Runs .inputDroop s d ∧
      d.power = { p with forcedDroop := true, droopEvents := satAdd 32 p.droopEvents 1, level := 4 }) ∧
    (p.forcedPin = true → let d := s.dev.modPower fun q => { q with forcedPin := false }
      Runs .capDownRelease s (d.fault { powerRec d 0x02 with ended := true })) ∧
    (p.forcedDroop = true → let d := s.dev.modPower fun q => { q with forcedDroop := false }
      Runs .droopRecovery s (d.fault { powerRec d 0x03 with ended := true })) ∧
    (∀ (tj : List Int) (cool : Bool), tj.length = 15 → p.mainOn = true →
      ((hottest tj).1 < 10500 → p.tempHigh = false → cool = false → Runs (.junctionSample tj cool) s (s.dev.modPower fun q => { q with tj := tj })) ∧
      (11000 ≤ (hottest tj).1 → (hottest tj).1 < 11500 → p.tempHigh = false → p.forcedTj = false → ∃ d, Runs (.junctionSample tj cool) s d ∧
        d.power = { p with tj := tj, tempHigh := true, forcedTj := true, thermalEvents := satAdd 32 p.thermalEvents 1, level := 4 }) ∧
      (11500 ≤ (hottest tj).1 → ∃ d, Runs (.junctionSample tj cool) s d ∧ d.power.mainOn = false ∧ d.power.shutdown = true ∧
        d.power.thermalTrip = true ∧ d.power.tempHigh = true ∧ d.power.forcedTj = true)) ∧
    (p.mainOn = true → 10500 ≤ (hottest p.tj).1 ∨ p.dramHigh = true →
      ∃ d, Runs .temperatureStep s d ∧ d.power = { p with level := min 4 (p.level + 1) }) ∧
    ((hottest p.tj).1 < 10500 → p.dramHigh = false → Runs .temperatureStep s s.dev) ∧
    (∀ tc : List Int, let top := (hottest (tc.take 48)).1
      let q := { p with pkgMax := top, refresh2x := 8500 ≤ top, dramHigh := 9500 ≤ top }
      (p.mainOn = true → top < 9500 → p.dramHigh = false → Runs (.dramTemperatureSample tc) s { s.dev with power := q }) ∧
      (p.mainOn = true → 9500 ≤ top → top < 10500 → p.dramHigh = false →
        Runs (.dramTemperatureSample tc) s (({ s.dev with power := q }).fault (powerRec { s.dev with power := q } 0x05)))) ∧
    (∀ (flow : Nat) (inlet outlet : Int) (calm : Bool),
      let q (n : Nat) := { p with flow := flow, inlet := inlet, outlet := outlet, thermal := thermalLimit flow inlet, coolBad := n }
      (1500 ≤ flow → inlet ≤ 5000 → p.forcedCool = false → Runs (.coolantSample flow inlet outlet calm) s { s.dev with power := q 0 }) ∧
      (flow < 1500 ∨ 5000 < inlet → p.mainOn = false → calm = false → p.coolBad ≤ 1 →
        Runs (.coolantSample flow inlet outlet calm) s { s.dev with power := q 0 }) ∧
      (flow < 1500 ∨ 5000 < inlet → p.mainOn = true → p.coolBad = 0 → Runs (.coolantSample flow inlet outlet calm) s { s.dev with power := q 1 }) ∧
      (flow < 1500 ∨ 5000 < inlet → p.coolBad = 1 → p.mainOn = true → p.forcedCool = false →
        ∃ d, Runs (.coolantSample flow inlet outlet calm) s d ∧
          d.power = { q 2 with forcedCool := true, thermalEvents := satAdd 32 p.thermalEvents 1, level := 4 })) ∧
    (p.hbState = 1 → let d := s.dev.modPower fun q => { q with hbState := 2 }
      Runs .heartbeatTimeout s (d.fault (powerRec d 0x07))) ∧
    (p.hbState ≠ 1 → Runs .heartbeatTimeout s s.dev) ∧
    (p.mainOn = true → ∃ d, Runs .undervoltage s d ∧ d.power.mainOn = false ∧ d.power.shutdown = true ∧ d.power.releaseStep = 0 ∧
      d.tiles = s.dev.tiles.unpowered ∧ d.relay = {} ∧ d.homes = [] ∧ d.pool = s.dev.pool.unpowered ∧ d.flash = s.dev.flash ∧ d.prot.keySlots = s.dev.prot.keySlots)
  ) ∧ (
  ∀ (s : State),
    (s.dev.power.refLost = false → let d := s.dev.modPower fun p => { p with refLost := true }
      Runs .referenceLost s (d.fault (powerRec d 0x09))) ∧
    (s.dev.power.refLost = true → Runs .referenceLost s s.dev) ∧
    (s.dev.power.refLost = true → s.dev.power.refHeld = false → ∃ d, Runs .referenceHoldoverExpiry s d ∧
      d.power = { s.dev.power with refHeld := true } ∧ ∀ p, p < 144 → ((d.port p).lstate = 0 ∨ (8 ≤ (d.port p).lstate ∧ (d.port p).lstate ≠ 10)) ∧
        ((1 ≤ (s.dev.port p).lstate ∧ (s.dev.port p).lstate ≤ 7) ∨ (s.dev.port p).lstate = 10 → (d.port p).refOff = true)) ∧
    (s.dev.power.refLost = false → Runs .referenceHoldoverExpiry s s.dev ∧ Runs .referenceReturn s s.dev) ∧
    (s.dev.power.refLost = true → s.dev.power.refHeld = false →
      let d := s.dev.modPower fun p => { p with refLost := false, refHeld := false }
      Runs .referenceReturn s (d.fault { powerRec d 0x09 with ended := true })) ∧
    (s.dev.power.refLost = true → s.dev.power.refHeld = true →
      let d := s.dev.modPower fun p => { p with refLost := false, refHeld := false }
      let e := d.fault { powerRec d 0x09 with ended := true }
      Runs .referenceReturn s ((tkeys e.ports fun p x => p < 144 && x.refOff && x.lstate = 0 && (e.kamro (dieOf p)).up).foldl Dev.bringUp e))
  )

/-- Firmware staging and activation. FW_STAGE (R404): a first part whose header the module accepts is kept, a later part is written past it, and
the last one is checked against the body's digest. FW_ACTIVATE (R405) verifies the staged image, answers, and starts the handover.
FW_REVERT and TRIAL_TIMEOUT (R410) start the handover back. STAGING_ERASE_DONE empties staging.
Choices of the model that this writes out: headers out of range (log 144), when the replies come (log 145). -/
def Obligations.FirmwareStaging : Prop :=
  ∀ (s : State),
    (∀ (r : RingNo) (c : Cmd), let n := refLen c
      let bs := refBytes c
      let off := c.u 16 8
      (let fm : Form := { op := 0x0A10, roles := [1], cls := some 0x28, used := [(16, 24)], ref := 1 }
       let d := s.dev.heard r fm c
       s.dev.hears r c fm → s.dev.fw.erasing = false → s.dev.fw.stageState ∉ [3, 4] →
       (off ≠ 0 → s.dev.fw.stageState ≠ 1 → Runs (.fwStage c) s (d.answered s.dev fm c 0x40 16 [])) ∧
       (off = 0 → n < 512 → Runs (.fwStage c) s (d.answered s.dev fm c 0x49 52 [])) ∧
       (off = 0 → 512 < n → let i : Image := { header := bs.take 512, body := [] }
        let j : Image := { header := bs.take 512, body := bs.drop 512 }
        n < 512 + i.bodyLen →
        let x := { d with fw := { d.fw with staging := some j, written := [(512, n)], stagedBytes := n - 512, stageState := 1 } }
        Runs (.fwStage c) s (if headerOk s.fuses i then x.answered s.dev fm c 0 0 []
          else (d.fault (fwRec d 0x01 i.version)).replies s.dev fm c (.denied 0x46 0))) ∧
       (∀ i : Image, off ≠ 0 → s.dev.fw.stageState = 1 → s.dev.fw.staging = some i → 512 ≤ off → off + n ≤ 512 + i.bodyLen →
        (∀ e ∈ s.dev.fw.written, e.2 ≤ off ∨ off + n ≤ e.1) →
        let w := s.dev.fw.written ++ [(off, off + n)]
        let total := (w.map fun e => e.2 - e.1).foldl (· + ·) 0
        let j : Image := { header := i.header, body := overwrite (padTo (max i.body.length (off + n - 512)) i.body) (off - 512) bs }
        let put (st : Nat) : Dev := { d with fw := { d.fw with staging := some j, written := w, stagedBytes := total, stageState := st } }
        (total < i.bodyLen → Runs (.fwStage c) s ((put 1).answered s.dev fm c 0 0 [])) ∧
        (i.bodyLen ≤ total → Runs (.fwStage c) s (if j.bodyOk then (put 2).answered s.dev fm c 0 0 []
          else (((put 5).startErase).fault (fwRec d 0x01 j.version)).replies s.dev fm c (.denied 0x46 0))))) ∧
      (let fm : Form := { op := 0x0A11, roles := [1], cls := some 0x28 }
       let d := s.dev.taken r 1 c
       s.dev.hears r c fm →
       (s.dev.slotHeld = true → s.dev.fw.handoverTo = 0 → Runs (.fwActivate c) s (d.answered s.dev fm c 0x0A noDetail [])) ∧
       (∀ i, s.dev.slotHeld = false → s.dev.fw.stageState = 2 → s.dev.fw.fwState ≠ 1 → s.dev.fw.handoverTo = 0 → s.dev.fw.staging = some i →
        (∀ j, s.dev.runningImage = some j → j.readBy i = true ∧ i.readBy j = true) →
        Runs (.fwActivate c) s (if imageOk s.fuses i
          then (({ d with fw := { d.fw with handoverTo := 1 } }).answered s.dev fm c 0 0 [] true).startHandover 1 0
          else d.answered s.dev fm c 0x46 noDetail []))) ∧
      (let fm : Form := { op := 0x0A12, roles := [1], cls := some 0x28 }
       s.dev.hears r c fm → s.dev.slotHeld = false → s.dev.fw.fwState = 1 →
       Runs (.fwRevert c) s (((s.dev.taken r 1 c).startHandover 2 3).replies s.dev fm c (.ok 0 [])))) ∧
    (s.dev.fw.fwState = 1 → s.dev.host.handover = false → Runs .trialTimeout s (s.dev.startHandover 2 1)) ∧
    (s.dev.fw.fwState ≠ 1 → Runs .trialTimeout s s.dev) ∧
    (∀ t cause, (s.dev.startHandover t cause).host.handover = true ∧ (s.dev.startHandover t cause).host.fwReady = false ∧
      (s.dev.startHandover t cause).fw.handoverTo = t ∧ (s.dev.startHandover t cause).fw.handoverStart = s.dev.now ∧
      ∀ k, ((s.dev.startHandover t cause).perturb k).state ≠ 1) ∧
    (s.dev.fw.erasing = true → ∃ d, Runs .stagingEraseDone s d ∧
      d.fw = { s.dev.fw with erasing := false, stageState := 0, staging := none, stagedBytes := 0, written := [] }) ∧
    (s.dev.fw.erasing = false → Runs .stagingEraseDone s s.dev)

/-- Handover, confirmation and configuration. HANDOVER_COMPLETE (R408–R410): the staged image runs on trial, or the boot bank's runs again.
FW_CONFIRM (R409, R403) makes the image the one that boots and raises SVN_FLOOR. BANK_COPY_DONE (R411) puts it into the other bank.
CONFIG_COMMIT (R414) starts a block whose reply waits; CONFIG_WRITE_DONE (R414) ends it, or writes it to the following slot.
MAPPED_OUT_COMMIT (R294) commits a changed list, at most once in 10 s.
Choices of the model that this writes out: the slot written first (log 79), which handovers count (log 146), measurement 4 (log 147), how
the conditions of R409 are found (log 215). -/
def Obligations.FirmwareAndConfiguration : Prop :=
  ∀ (s : State), let f := s.dev.fw
    (s.dev.host.handover = false → ∀ ok, Runs (.handoverComplete ok) s s.dev) ∧
    (∀ i ok, s.dev.host.handover = true → f.handoverTo = 1 → f.staging = some i → i.bodyOk = false →
      Runs (.handoverComplete ok) s (controlDieResetD s.fuses s.dev)) ∧
    (∀ i ok, s.dev.host.handover = true → f.handoverTo = 1 → f.staging = some i → i.bodyOk = true → ∃ d, Runs (.handoverComplete ok) s d ∧
      d.host.handover = false ∧ d.host.fwReady = true ∧ d.fw.fwState = 1 ∧ d.fw.stageState = 3 ∧ d.fw.fromStaging = true ∧
      d.fw.trialStart = s.dev.now ∧ d.fw.version = BitVec.ofNat 32 i.version ∧ d.fw.lastHandover = s.dev.now - f.handoverStart ∧
      d.sec.meas2 = i.digest ∧ d.flash.handovers = satAdd 32 s.dev.flash.handovers 1) ∧
    (∀ ok, s.dev.host.handover = true → f.handoverTo = 2 → ∃ d, Runs (.handoverComplete ok) s d ∧
      d.host.handover = false ∧ d.fw.fwState = 0 ∧ d.fw.lastFallback = f.handoverCause ∧ d.fw.erasing = true ∧
      d.flash.fallbacks = satAdd 32 s.dev.flash.fallbacks 1) ∧
    (∀ i, f.staging = some i → s.dev.mayConfirm = true →
      ∃ d : Dev, exec .fwConfirm s = .next { s with fuses := { s.fuses with svnFloor := max s.fuses.svnFloor i.svn }, dev := d } ∧
        d.fw.fwState = 0 ∧ d.fw.stageState = 4 ∧
        d.flash.inForce = { seq := s.dev.flash.inForce.seq + 1, bootBank := s.dev.flash.inForce.bootBank, stagedOk := true, digest := i.digest,
                            valid := true }) ∧
    (f.fwState ≠ 1 ∨ s.dev.mayConfirm = false → Runs .fwConfirm s s.dev) ∧
    (∀ i, f.staging = some i → f.stageState = 4 → f.fromStaging = true → f.erasing = false → s.dev.host.handover = false →
      let b := 1 - s.dev.flash.inForce.bootBank
      ∃ d, Runs .bankCopyDone s d ∧ tfind d.flash.banks b = some i ∧ d.flash.inForce.bootBank = b ∧ d.fw.running = b ∧ d.fw.fromStaging = false ∧
        d.fw.erasing = true) ∧
    (∀ (r : RingNo) (c : Cmd), let fm : Form := { op := 0x0A20, roles := [1, 2], cls := some 0x29, hi := 1 }
      let d := s.dev.taken r 1 c
      s.dev.hears r c fm →
      (f.commit = none → Runs (.configCommit c) s
        (({ d with fw := { d.fw with commit := some (newBlock d 1), commitTries := 0, commitWaits := [s.dev.host.nextWait] } }).awaits s.dev fm c)) ∧
      (f.commit ≠ none → Runs (.configCommit c) s ((d.requestCommit 1 [s.dev.host.nextWait]).awaits s.dev fm c))) ∧
    (f.commit = none → ∀ ok, Runs (.configWriteDone ok) s s.dev) ∧
    (∀ b, f.commit = some b → s.dev.host.handover = false → f.commitWaits = [] → f.commitNext = none → b.bytes.length ≤ 65536 →
      ∃ d, Runs (.configWriteDone true) s d ∧
      d.fw.commit = none ∧ b ∈ d.flash.config ∧ d.sec.makerFloor = b.values.maker ∧
      (∀ p l, ((d.port p).lane l).stored = ((tget (b.values.tapsInto s.dev.ports) p {}).lane l).stored) ∧
      d.sec.meas4 = (if b.role = 0 then s.dev.sec.meas4
                     else Config.sha384 (le 48 s.dev.sec.meas4.toNat ++ le 48 (Config.sha384 b.bytes).toNat))) ∧
    (∀ b, f.commit = some b → s.dev.host.handover = false → f.commitTries < 2 →
      ∃ d, Runs (.configWriteDone false) s d ∧ d.fw = { f with commit := some { b with slot := (b.slot + 1) % 256 }, commitTries := f.commitTries + 1 } ∧
        b.torn ∈ d.flash.config) ∧
    (f.mappedDirty = true → (∀ t, f.lastMapCommit = some t → t + 10000000000 ≤ s.dev.now) → Runs .mappedOutCommit s
      (({ s.dev with fw := { f with mappedDirty := false, lastMapCommit := some s.dev.now } }).requestCommit 0 [])) ∧
    (f.mappedDirty = false → Runs .mappedOutCommit s s.dev)

/-- Power-up and loss. POWER_ON_RESET (R385, R384): auxiliary power is on, nothing else; of what was, the flash
remains and what log 165 names. POWER_LOSS (R338,
R415): the flash stands; a block being written may be torn. STRAP_SAMPLE (R440, R385): the straps, once. MAIN_POWER_GOOD (R385, R395).
DIE_RESET_RELEASE (R385): Kamro dies, pool dies, tile dies, in that order.
Resets of dies. KAMRO_DIE_RESET (R141, R298): every port of the die is out of service with its counters at 0 and its depths from the
configuration; a die that is down stays so. CONTROL_DIE_RESET (R381): drills are disarmed, the mailbox starts over, no handover is left.
Choices of the model that this writes out: the silence after a reset (log 123), the end of a shutdown (log 142), what a die reset leaves
(log 143), the audit log over resets (log 149), what remains without power (log 165). -/
def Obligations.StartUpAndDieResets : Prop :=
  (
  ∀ (s : State), let p := s.dev.power
    (∃ d, Runs .powerOnReset s d ∧ d.now = 0 ∧ d.power.auxOn = true ∧ d.power.mainOn = false ∧ d.power.releaseStep = 0 ∧ d.ident.sampled = false ∧
      d.flash = { s.dev.flash with seqMark := max s.dev.flash.seqMark s.dev.sec.nextSeq } ∧ d.prot.powerUps = s.dev.prot.powerUps + 1 ∧ d.prot.keySlots = [] ∧ d.prot.slices = [] ∧ d.prot.regions = [] ∧
      d.ports = [] ∧ d.homes = [] ∧ d.pool.mem = [] ∧ d.tiles = s.dev.tiles.unpowered ∧ d.relay = {} ∧ d.req = s.dev.req.afterReset 0 ∧ d.xlate = {} ∧ d.host = {} ∧ d.faults = {} ∧ d.test = {}) ∧
    (∃ d, Runs (.powerLoss false) s d ∧ d.power.auxOn = false ∧
      d.flash = { s.dev.flash with seqMark := max s.dev.flash.seqMark s.dev.sec.nextSeq } ∧ d.host = {} ∧ d.sec.unwritten = []) ∧
    (∀ b, s.dev.fw.commit = some b → ∃ d, Runs (.powerLoss true) s d ∧ d.power.auxOn = false ∧ b.torn ∈ d.flash.config ∧
      d.flash.banks = s.dev.flash.banks ∧ d.flash.audit = s.dev.flash.audit) ∧
    (∀ pins : StrapPins, s.dev.ident.sampled = true ∨ p.auxOn = false → Runs (.strapSample pins) s s.dev) ∧
    (∀ pins : StrapPins, s.dev.ident.sampled = false → p.auxOn = true → ∃ d, Runs (.strapSample pins) s d ∧ d.ident.sampled = true ∧
      d.ident.straps = pins ∧ d.sec.meas4 = 0 ∧ d.host.handover = false ∧ d.fw.fwState ≠ 1 ∧
      (pins.bootSrc = true → d.host.recovery = true ∧ d.host.fwReady = false ∧ d.sec.meas2 = 0)) ∧
    (p.auxOn = true → s.dev.ident.sampled = true → p.mainOn = false → p.shutdown = false → p.thermalTrip = false ∨ (hottest p.tj).1 ≤ 6000 →
      Runs .mainPowerGood s
        { s.dev with power := { p with mainOn := true, pllLocked := true, thermalTrip := false, coolBad := 0 },
                     host := { s.dev.host with linkNarrow := s.dev.host.recovery } }) ∧
    (p.shutdown = true → Runs .mainPowerGood s s.dev) ∧
    (p.pllLocked = true → let d (n : Nat) : Dev := { s.dev with power := { p with releaseStep := n } }
      (p.releaseStep = 0 → Runs .dieResetRelease s (((d 1).modKamro 0 fun k => { k with up := true }).modKamro 1 fun k => { k with up := true })) ∧
      (p.releaseStep = 1 → ∃ e, Runs .dieResetRelease s e ∧ (∀ h, h < 4 → e.home h = { s.dev.home h with up := true }) ∧ e.sw = s.dev.sw) ∧
      (p.releaseStep = 2 → ∃ e, Runs .dieResetRelease s e ∧ (∀ t, t < 8 → (e.tileDie t).up = true) ∧ e.homes = s.dev.homes ∧
        e.power.releaseStep = 3) ∧
      (3 ≤ p.releaseStep → Runs .dieResetRelease s s.dev)) ∧
    (p.pllLocked = false → Runs .dieResetRelease s s.dev)
  ) ∧ (
  ∀ (s : State),
    (∀ k : Kamro, (s.dev.kamro k).up = false → Runs (.kamroDieReset k) s s.dev) ∧
    (∀ k : Kamro, (s.dev.kamro k).up = true → ∃ d, Runs (.kamroDieReset k) s d ∧ d.homes = s.dev.homes ∧ d.tiles = s.dev.tiles ∧ d.resvs = [] ∧
      ∀ p, p < 144 → dieOf p = k.val → (d.port p).lstate ≠ 7 ∧ (d.port p).narrowings = 0 ∧ (d.port p).fullTrainings = 0 ∧
        (d.port p).corrected = 0 ∧ (d.port p).uncorrectable = 0 ∧ (d.port p).pacerAccept = 0 ∧ (d.port p).pacerRefuse = 0 ∧
        ((tfind s.dev.ports p).isSome = true → ((d.port p).markDepth, (d.port p).spillThresh) = s.dev.cfgDepths p)) ∧
    (s.dev.ident.sampled = false → Runs .controlDieReset s s.dev) ∧
    (s.dev.ident.sampled = true → ∃ d, Runs .controlDieReset s d ∧ d.host.handover = false ∧ d.host.spdm = {} ∧ d.test.lastDrill = none ∧
      (∀ i, (d.drill i).state = 0) ∧ d.sec.meas4 = 0 ∧ d.fw.handoverTo = 0 ∧ d.fw.fwState ≠ 1)
  )

/-- The fault queue, the replay and the logs. FAULT_READ (R357) hands out the oldest records, which leave the queue; EVENT_ROUTE (R358);
AUDIT_READ (R338) hands out records that stay. MIRROR_TIMEOUT (R376). AUDIT_SEAL (R337) appends a record of KIND 1 with a signature over
the last CHAIN, and AUDIT_FLASH_WRITE (R338) moves the unwritten records into flash. A replay (R377) starts with a SET of REPLAY_CTL 1 or 2
and REPLAY_END ends it. RESERVED_OPCODE (R8): refused UNSUPPORTED at its target, discarded in the relay range.
Choices of the model that this writes out: FAULT_READ of more than there is (log 25), how a replay is paced (log 37), what a replay skips
(log 153), what a seal signs (log 163), the byte order of the signature (log 164), when a sector is erased (log 219), a mirror that answers
again (log 221), how an unassigned opcode comes in (log 222). -/
def Obligations.FaultsAndLogs : Prop :=
  ∀ (s : State), let f := s.dev.faults
    (∀ (r : RingNo) (c : Cmd), let d (fm : Form) : Dev := s.dev.heard r fm c
      (let fm : Form := { op := 0x0C10, roles := [1], cls := some 0x38, used := [(16, 18)], ref := 1, out := true }
       let n := c.u 16 2
       s.dev.hears r c fm → 1 ≤ n → n ≤ 4096 → refLen c = 64 * n →
       let recs := f.queue.take n
       let x : Dev := { (d fm) with faults := { f with queue := f.queue.drop n, overflow := f.overflow && !recs.any FaultRec.isOverflow } }
       Runs (.faultRead c) s ((x.answersTo s.dev r fm c (recs.flatMap FaultRec.bytes)).answered s.dev fm c 0 0 [])) ∧
      (let fm : Form := { op := 0x0C11, roles := [1], cls := some 0x38, used := [(16, 28)] }
       s.dev.hears r c fm → c.u 16 8 < 2 ^ 19 → c.u 24 2 ≤ 2047 →
       let x : Dev := { (d fm) with faults := { f with eventMask := BitVec.ofNat 64 (c.u 16 8), vector := BitVec.ofNat 16 (c.u 24 2),
                                                                      eventNode := BitVec.ofNat 16 (c.u 26 2) } }
       Runs (.eventRoute c) s (x.answered s.dev fm c 0 0 [])) ∧
      (let fm : Form := { op := 0x0C20, roles := [1, 2], cls := some 0x39, used := [(16, 24)], ref := 1, out := true }
       let held := s.dev.flash.audit ++ s.dev.sec.unwritten
       s.dev.hears r c fm → (∀ x l, held = x :: l → x.seq ≤ c.u 16 8) → (held = [] → s.dev.sec.nextSeq ≤ c.u 16 8) →
       let bs := ((held.filter fun x => c.u 16 8 ≤ x.seq).take (refLen c / 192)).flatMap auditBytes
       Runs (.auditRead c) s (((d fm).answersTo s.dev r fm c bs).answered s.dev fm c 0 0 [])) ∧
      (∀ mirror : Bool,
       let fm : Form := { op := 0x0C01, roles := [1], used := [(16, 64)], ref := 2 }
       let start (x : Dev) (n : Nat) : Dev :=
         { x with faults := { x.faults with replayState := 1, replayStatus := 0, replayed := 0, skipped := 0, replayStream := some n } }
       let y : Dev := { (d fm) with faults := { f with deadNode := BitVec.ofNat 16 (c.u 28 2), target := BitVec.ofNat 16 (c.u 30 2) } }
       s.dev.hears r c fm → c.cls = 0x38 → c.inst = 0 → c.ref = none → c.u 16 4 = 176 → c.u 20 4 = 8 → strayFrom c 32 = none →
       c.u 24 1 = (if mirror then 2 else 1) → c.u 27 1 = 0 → s.dev.isConf f.newSlice.toNat = false → f.replayState ≠ 1 → f.replayStream = none →
       (f.logEnable = true → s.dev.pool.logPages ≠ 0) → (s.dev.replayRing mirror).2.2.1 ≤ f.fromSeq.toNat →
       f.toSeq.toNat < (s.dev.replayRing mirror).2.2.2 → s.dev.node ≠ 0xFFFF →
       let i : Instr := if mirror then .replayMirror c else .replayOwnRing c
       Runs i s (match y.openStream 12 .o f.newSlice.toNat 20 1 0 with
         | some (n, x) => ((start x n).runReplay mirror n).replies s.dev fm c (.ok 0 [])
         | none => (d fm).answered s.dev fm c 0x42 176 []))) ∧
    ((∀ o ∈ s.dev.req.ops, o.why ≠ .replay) → f.replayStream = none →
      (f.replayState = 1 → Runs .replayEnd s
        (({ s.dev with faults := { f with replayState := 2, replayStatus := 0 } }).fault (mkRec 17 0 0 (obj 0x38 0)))) ∧
      (f.replayState ≠ 1 → Runs .replayEnd s s.dev)) ∧
    ((∃ o ∈ s.dev.req.ops, o.why = .replay) → Runs .replayEnd s s.dev) ∧
    (f.mirrorOk = true → (∀ o ∈ s.dev.req.ops, o.phase ≠ .waiting) → Runs .mirrorTimeout s
      (({ s.dev with faults := { f with mirrorOk := false, mirrorLost := decide (f.mirroredSeq < f.headSeq) } }).fault (mkRec 17 0x05 0 (obj 0x38 0)))) ∧
    (f.mirrorOk = true → ∃ d, Runs .mirrorTimeout s d ∧ d.faults.mirrorOk = false ∧ (∀ o ∈ d.req.ops, o.phase = .waiting → ∀ n, o.why ≠ .mirror n) ∧
      ∀ o ∈ s.dev.req.ops, (o.phase ≠ .waiting ∨ ∀ n, o.why ≠ .mirror n) → o ∈ d.req.ops) ∧
    (f.mirrorOk = false → Runs .mirrorTimeout s s.dev) ∧
    (s.dev.sec.unsealed < 256 → (s.dev.sec.unsealed = 0 ∨ s.dev.now < s.dev.sec.unsealedAt + 60000000000) → Runs .auditSeal s s.dev) ∧
    (256 ≤ s.dev.sec.unsealed ∨ (s.dev.sec.unsealed ≠ 0 ∧ s.dev.sec.unsealedAt + 60000000000 ≤ s.dev.now) → ∃ d rec, Runs .auditSeal s d ∧ d.sec.unwritten = s.dev.sec.unwritten ++ [rec] ∧ rec.kind = 1 ∧
      rec.seq = s.dev.sec.nextSeq ∧ rec.time = s.dev.now ∧ d.sec.head = rec.chain ∧ d.sec.lastSeal = rec.seq ∧ d.sec.unsealed = 0 ∧
      rec.chain = Config.sha384 (le 48 s.dev.sec.head.toNat ++ auditHead rec) ∧ rec.opcode = 0 ∧ rec.cred = makerCred ∧
      rec.a = BitVec.ofNat 384 (unbe (le 48 (s.dev.aliasSig s.dev.sec.head).1.1.toNat)) ∧
      rec.b = BitVec.ofNat 384 (unbe (le 48 (s.dev.aliasSig s.dev.sec.head).1.2.toNat))) ∧
    (let all := s.dev.flash.audit ++ s.dev.sec.unwritten
     let d := ((List.range' (s.dev.flash.overwritten + s.dev.flash.audit.length) s.dev.sec.unwritten.length).flatMap auditSectors).foldl
       (fun d k => d.eraseSectors k 1) s.dev
     Runs .auditFlashWrite s
      { d with flash := { d.flash with audit := all.drop (all.length - 65536), overwritten := d.flash.overwritten + (all.length - 65536) },
               sec := { d.sec with unwritten := [] } }) ∧
    (∀ (r : RingNo) (c : Cmd) (p : Port) (g : Frame) (op : BitVec 16), let fm : Form := { op := op.toNat, roles := [1, 2, 3] }
      s.dev.ringReady r op.toNat c 1 → c.env = none → s.dev.host.recovery = false →
      (assignedCmds.contains op.toNat = false → Runs (.reservedOpcode p g (some (op, c))) s ((s.dev.taken r 1 c).answered s.dev fm c 0x09 0 [])) ∧
      (op.toNat = 0x0101 ∨ op.toNat = 0x0501 →
        Runs (.reservedOpcode p g (some (op, c))) s ((s.dev.taken r 1 c).answered s.dev fm c 0x44 noDetail []))) ∧
    (∀ (p : Port) (g : Frame),
      (p.val < 144 ∨ assignedOps.contains g.opn = true → Runs (.reservedOpcode p g) s s.dev) ∧
      (144 ≤ p.val → assignedOps.contains g.opn = false → g.hchkOk = true → g.checkOk = true → g.conf = false → s.dev.tornDown g.slice.toNat = false →
        (isRelay g.opn = true → Runs (.reservedOpcode p g) s (s.dev.countDiscard p discReserved)) ∧
        (isRelay g.opn = false → s.dev.functionOff g = false → Runs (.reservedOpcode p g) s (s.dev.reply p g 0x09 0 none)) ∧
        (isRelay g.opn = false → s.dev.functionOff g = true → Runs (.reservedOpcode p g) s (s.dev.reply p g 0x07 0 none))))

/-- The mailbox (R299, R341). GET_VERSION, GET_CAPABILITIES and NEGOTIATE_ALGORITHMS in that order; then GET_DIGESTS, GET_CERTIFICATE, CHALLENGE
and GET_MEASUREMENTS, the last two with a signature of the alias key. A request of another version, out of order, or sent while the firmware
is down has none of its effect. DOE Discovery names the two protocols. The message layouts are the model's reading of the standard the spec
names (log 68). -/
def Obligations.MailboxAnswers : Prop :=
  ∀ (s : State) (q : SpdmReq), let d := s.dev
    let m := d.host.spdm
    let send (x : SpdmSt) (bytes : List Byte) : Dev := (d.modSpdm fun _ => x).emit (.doe 1 bytes)
    (d.spdmUp = false → ∀ i ∈ ([.getVersion q, .getCapabilities q, .negotiateAlgorithms q, .getDigests q, .getCertificate q, .challenge q,
        .getMeasurements q] : List Instr), Runs i s d) ∧
    (d.spdmUp = true → q.version ≠ 0x13 → ∀ i ∈ ([.getCapabilities q, .negotiateAlgorithms q, .getDigests q, .getCertificate q, .challenge q,
        .getMeasurements q] : List Instr), Runs i s (d.spdmError 0x41 0)) ∧
    (d.spdmUp = true → q.version = 0x13 → m.stage < 3 → ∀ i ∈ ([.getDigests q, .getCertificate q, .challenge q, .getMeasurements q] : List Instr),
      Runs i s (d.spdmError 0x04 0)) ∧
    (d.spdmUp = true → q.version = 0x10 → let r := spdmHead 0x10 0x04 0 0 ++ zeros 1 ++ le 1 1 ++ le 2 0x1300
      Runs (.getVersion q) s (send { stage := 1, vca := spdmBytes 0x84 q ++ r } r)) ∧
    (d.spdmUp = true → q.version = 0x13 → m.stage = 1 →
      let r := spdmHead 0x13 0x61 0 0 ++ zeros 1 ++ le 1 16 ++ zeros 2 ++ le 4 0x16 ++ le 4 Config.spdmSizes.1.toNat ++ le 4 Config.spdmSizes.2.toNat
      Runs (.getCapabilities q) s (send { m with stage := 2, vca := m.vca ++ spdmBytes 0xE1 q ++ r } r)) ∧
    (d.spdmUp = true → q.version = 0x13 → m.stage = 2 → num q.body 4 4 / 0x80 % 2 = 1 → num q.body 8 4 / 2 % 2 = 1 →
      let r := spdmHead 0x13 0x63 0 0 ++ le 2 36 ++ le 1 1 ++ zeros 1 ++ le 4 4 ++ le 4 0x80 ++ le 4 2 ++ zeros 12 ++ zeros 4
      Runs (.negotiateAlgorithms q) s (send { m with stage := 3, vca := m.vca ++ spdmBytes 0xE3 q ++ r } r)) ∧
    (d.spdmUp = true → q.version = 0x13 → 3 ≤ m.stage → let chain := Config.spdmChain Config.bootRomDigest d.sec.meas2
      (let r := spdmHead 0x13 0x01 1 1 ++ le 48 (Config.sha384 chain).toNat
       Runs (.getDigests q) s (send { m with auth := m.auth ++ spdmBytes 0x81 q ++ r, meas := [] } r)) ∧
      (let off := num q.body 0 2
       let part := cut chain off (num q.body 2 2)
       let r := spdmHead 0x13 0x02 0 0 ++ le 2 part.length ++ le 2 (chain.length - off - part.length) ++ part
       q.param1.toNat % 16 = 0 → Runs (.getCertificate q) s
         (if off < chain.length then send { m with auth := m.auth ++ spdmBytes 0x82 q ++ r, meas := [] } r else d.spdmError 0x01 0)) ∧
      (q.param1 = 0 → q.param2.toNat ∈ [0, 1, 0xFF] → ∃ (x : Dev) (nonce : List Byte) (v : BitVec 384 × BitVec 384),
        nonce.length = 32 ∧ Runs (.challenge q) s (x.emit (.doe 1 (spdmHead 0x13 0x03 0 1 ++ le 48 (Config.sha384 chain).toNat ++ nonce ++
          measSummary s.fuses d q.param2.toNat ++ zeros 2 ++ padTo 8 (cut q.body 32 8) ++ sigBytes v))) ∧
        x.sec.signs = d.sec.signs + 1 ∧ x.host.spdm = { m with auth := [], meas := [] }) ∧
      (q.param1.toNat % 2 = 0 → q.param2 = 0 → ∃ (x : Dev) (nonce : List Byte), nonce.length = 32 ∧
        Runs (.getMeasurements q) s (x.emit (.doe 1 (spdmHead 0x13 0x60 5 0 ++ zeros 4 ++ nonce ++ zeros 2 ++ padTo 8 (cut q.body 0 8)))) ∧
        x.sec = d.sec) ∧
      (q.param1.toNat % 2 = 1 → num q.body 32 1 % 16 = 0 → 1 ≤ q.param2.toNat → q.param2.toNat ≤ 5 →
        ∃ (x : Dev) (nonce : List Byte) (v : BitVec 384 × BitVec 384), let block := measBlock s.fuses d q.param2.toNat
        nonce.length = 32 ∧ Runs (.getMeasurements q) s (x.emit (.doe 1 (spdmHead 0x13 0x60 0 0 ++ le 1 1 ++ le 3 block.length ++ block ++ nonce ++
          zeros 2 ++ padTo 8 (cut q.body 33 8) ++ sigBytes v))) ∧ x.sec.signs = d.sec.signs + 1)) ∧
    Runs (.doeDiscovery 0) s (d.emit (.doe 0 (le 2 1 ++ le 1 0 ++ le 1 1))) ∧
    Runs (.doeDiscovery 1) s (d.emit (.doe 0 (le 2 1 ++ le 1 1 ++ le 1 0)))

/-! ### The machine as a whole -/

/-- A step takes the command at the front of the queue and runs it on the rest. -/
def Obligations.StepRunsFrontCommand : Prop :=
  ∀ (s : State) (c : Instr) (rest : List Instr), s.pending = c :: rest → step s = exec c { s with pending := rest }

/-- On an empty queue the block idles and a nanosecond passes (the model's choice, log 2): the counter and the throttle times advance, and
what an endpoint's silence or a tag's age held back is sent once it may be (R65, R87). After reset (R385, R381, R428; values where the spec gives none: log 5) auxiliary power is on and nothing else, no key slot, slice or
region is there, and every byte memory is in its canonical form. Every command answers a next state and leaves the queue alone. -/
def Obligations.IdleAndReset : Prop :=
  (∀ s : State, s.pending = [] → s.dev.power.auxOn = true → ∃ d : Dev, step s = .next { s with dev := d.pumpAll } ∧
    ((∀ o ∈ s.dev.req.ops, o.phase ≠ .waiting) → step s = .next { s with dev := d }) ∧ d.now = s.dev.now + 1 ∧
    { d with now := s.dev.now, power := s.dev.power } = s.dev ∧
    { d.power with throttledNs := s.dev.power.throttledNs, level4Ns := s.dev.power.level4Ns } = s.dev.power) ∧
  (∀ s : State, s.pending = [] → s.dev.power.auxOn = false → step s = .next s) ∧
  (let d := State.reset.dev
   State.reset.pending = [] ∧ State.reset.fuses.svnFloor = 0 ∧ d.now = 0 ∧ d.power.auxOn = true ∧ d.power.mainOn = false ∧ d.power.releaseStep = 0 ∧
   d.power.hbState = 0 ∧ d.ident.sampled = false ∧ d.prot.keySlots = [] ∧ d.prot.releases = [] ∧ (∀ i, (d.slice i).state = 0) ∧
   (∀ i, (d.region i).valid = false) ∧ (∀ p, p < 144 → (d.port p).lstate = 0) ∧ (∀ g, (d.group g).state = 0) ∧ (∀ r, (d.ring r).enable = false) ∧
   d.faults.queue = [] ∧ d.memoriesWf = true) ∧
  (∀ (c : Instr) (s : State), ∃ s', exec c s = .next s' ∧ s'.pending = s.pending)

/-- SVN_FLOOR (R403): an image below it is refused; a confirmation raises it to the image's SVN; and no step of any run lowers it, or undoes a
field return: the fuses change at FW_CONFIRM and FIELD_RETURN alone. -/
def Obligations.FloorNeverFalls : Prop :=
  (∀ (fz : Fuses) (i : Image), i.svn < fz.svnFloor → headerOk fz i = false ∧ imageOk fz i = false) ∧
  (∀ (s : State) (r : RingNo) (c : Cmd), let fm : Form := { op := 0x0A10, roles := [1], cls := some 0x28, used := [(16, 24)], ref := 1 }
    let i : Image := { header := (refBytes c).take 512, body := [] }
    s.dev.hears r c fm → s.dev.fw.erasing = false → s.dev.fw.stageState ∉ [3, 4] → c.u 16 8 = 0 → 512 ≤ refLen c → i.svn < s.fuses.svnFloor →
    let d := s.dev.heard r fm c
    Runs (.fwStage c) s ((d.fault (fwRec d 0x01 i.version)).replies s.dev fm c (.denied 0x46 0))) ∧
  (∀ (s : State) (i : Image), s.dev.fw.staging = some i → s.dev.mayConfirm = true →
    ∃ s', exec .fwConfirm s = .next s' ∧ s'.fuses.svnFloor = max s.fuses.svnFloor i.svn) ∧
  (∀ s s' : State, step s = .next s' → s'.fuses.burntFrom s.fuses ∧
    (s'.fuses ≠ s.fuses → (∃ rest, s.pending = .fwConfirm :: rest) ∨ ∃ c rest, s.pending = .fieldReturn c :: rest))

/-- A frame and its bytes (R101, R103): reading the bytes of a frame gives every field of it back, whatever their values, for a payload of the
length its header says; so does reading its flits, which hold those bytes and then zeros up to a multiple of 32. -/
def Obligations.FrameBytesRoundTrip : Prop :=
  ∀ f : Frame, f.payload.length = f.area → (f.area = 0 → f.fcheck = 0) →
    frameOfBytes f.bytes = f ∧ frameOfBytes f.flitBytes = f ∧ f.bytes.length = f.len ∧ f.flitBytes.length = 32 * f.flits ∧
    f.flitBytes = f.bytes ++ zeros (32 * f.flits - f.len)

/-- Byte memories: bytes written are read back, in their order (R4), every other byte stays, and a masked write (R59) touches exactly the bytes
its mask enables. -/
def Obligations.MemoryReadsBack : Prop :=
  (∀ (m : Memory) (a : Nat) (bs : List Byte), m.wf = true → memReads (memWrites m a bs) a bs.length = bs) ∧
  (∀ (m : Memory) (a b : Nat) (bs : List Byte), b < a ∨ a + bs.length ≤ b → memRead (memWrites m a bs) b = memRead m b) ∧
  (∀ (m : Memory) (a mask i : Nat) (bs : List Byte), m.wf = true → i < bs.length →
    memRead (memWritesMasked m a mask bs) (a + i) = if mask.testBit i then bs.getD i 0 else memRead m (a + i)) ∧
  (∀ (m : Memory) (a b mask : Nat) (bs : List Byte), b < a ∨ a + bs.length ≤ b → memRead (memWritesMasked m a mask bs) b = memRead m b) ∧
  (∀ (m : Memory) (a n b : Nat), memRead (memZero m a n) b = if a ≤ b ∧ b < a + n then 0 else memRead m b)

/-- The byte memories stay canonical (R4; the form is the model's own, log 6): whatever command a step runs, if the pool's memory and every
position's SRAM, registers and instruction store list their bytes in rising order without a zero byte before it, they do after it; so equal
contents stay equal data. State.reset meets the premise. -/
def Obligations.MemoriesStayCanonical : Prop :=
  State.reset.dev.memoriesWf = true ∧
  (∀ s s' : State, s.dev.memoriesWf = true → step s = .next s' → s'.dev.memoriesWf = true)

/-- While a perturbation object is in STATE 1 (R427), a due drill is skipped, counted in SKIPPED and recorded; DRILL_ARM arms all the same. -/
def Obligations.PerturbationsHoldDrills : Prop :=
  ∀ (s : State), (∃ e ∈ s.dev.test.perturbs, e.2.state = 1) →
    (∀ i : Fin 64, (s.dev.drill i).state = 1 → Runs (.drillDue i) s
      ((s.dev.modDrill i fun x => { x with skipped := satAdd 32 x.skipped 1 }).fault (drillRec i (s.dev.drill i).kind 0))) ∧
    (∀ (r : RingNo) (c : Cmd), let fm : Form := { op := 0x0B30, roles := [1], cls := some 0x31, hi := 63 }
      let x := s.dev.drill c.inst.toNat
      s.dev.hears r c fm → x.state = 0 → x.kind ≠ 0 → x.suits = true → 60 ≤ x.interval.toNat →
      (x.kind = 3 → s.dev.isConf (s.dev.pos (x.target.toNat % 2 ^ 24)).slice.toNat = false) →
      Runs (.drillArm c) s (((s.dev.taken r 1 c).modDrill c.inst.toNat fun y => { y with state := 1 }).answered s.dev fm c 0 0 []))

/-- A command in order but for its packet (R306–R308, R7): whatever its own rule would do, it is refused with the code of the form's check and
nothing of it happens, where that code comes no later in the order of R11 than the rule's own. -/
def Obligations.FormRefusalChangesNothing : Prop :=
  ∀ (d : Dev) (r : RingNo) (c : Cmd) (fm : Form) (code det : Nat) (body : Cmd → Nat → Nat → Dev → Answer × Dev),
    d.ringReady r fm.op c 1 → c.env = none → fm.roles.contains 1 = true → (fm.cls.isSome = true → fm.cls = some c.cls.toNat) →
    let q := if ((d.taken r 1 c).refPages fm c).1.isSome && (c.ref.map (·.translates)).getD true then c else unreached c
    formFault fm q = some (code, det) →
    (match (body q d.host.nextWait 1 (d.heard r fm c)).1 with | .refuse b _ => codeRank code ≤ codeRank b | .denied b _ => codeRank code ≤ codeRank b | _ => True) →
    d.runCmd fm c body = (d.heard r fm c).answered d fm c code det []
end

