-- ==== Sys2Proof/Laws/Commands.lean ====
section
/-!
SUPPORT. What `Dev.runCmd` answers: one lemma for each answer of a command's own rule, for an unsigned command at the head of a ring
(R305, R308, R309), and one for an envelope (R307).
-/
open Sys2Proof Sys2Proof.Machine

namespace Sys2Proof.Laws

variable {d x : Dev} {r : RingNo} {c : Cmd} {fm : Form} {e : Envelope}

/-- A reply whose record alone is waited for, of its number, is sent. -/
theorem finishWait_last (w : WaitReply) (st det : Nat) (res : List Byte) (hw : ∀ v ∈ x.host.waiting, v.id ≠ w.id)
    (hh : x.host.handover = false) (hf : w.floor = false) :
    ({ x with host := { x.host with waiting := x.host.waiting ++ [w] } }).finishWait w.id st det res =
      (let v : WaitReply := { w with effect := false, status := st, detail := BitVec.ofNat 32 det, result := res }
       (if w.get then x else x.audit (auditOf v)).writeReply v) := by
  have hm : (x.host.waiting.map fun v => if v.id = w.id then
      { v with effect := false, status := st, detail := BitVec.ofNat 32 det, result := res } else v) = x.host.waiting := by
    conv_rhs => rw [← List.map_id x.host.waiting]
    apply List.map_congr_left
    intro v hv
    simp [hw v hv]
  have hfind : x.host.waiting.find? (fun v => decide (v.id = w.id)) = none := by
    rw [List.find?_eq_none]
    intro v hv
    simpa using hw v hv
  have hfilt : x.host.waiting.filter (fun v => decide (v.id ≠ w.id)) = x.host.waiting := by
    rw [List.filter_eq_self]
    intro v hv
    simpa using hw v hv
  unfold Dev.finishWait Dev.settleWait Dev.waitOf Dev.modWait
  simp only [List.map_append, hm, List.map_cons, List.map_nil, if_true, List.find?_append, hfind, Option.none_or,
    List.find?_cons_of_pos, decide_true]
  rw [if_neg (by simp [hf, hh])]
  unfold Dev.sendReply
  simp only [List.filter_append, hfilt]
  rw [List.filter_cons_of_neg (by simp), List.filter_nil, List.append_nil]

/-! ### Translations (R50–R52) -/

/-- A device with another cache of translations, more sent, and another record of the rings served in a trial. -/
def Cached (x d : Dev) : Prop := ∃ t l f, x = { d with xlate := t, wire := l, fw := f }

theorem Cached.refl (d : Dev) : Cached d d := ⟨d.xlate, d.wire, d.fw, rfl⟩

theorem Cached.trans {x y z : Dev} (h : Cached x y) (g : Cached y z) : Cached x z := by
  obtain ⟨t, l, f, rfl⟩ := h
  obtain ⟨t', l', f', rfl⟩ := g
  exact ⟨t, l, f, rfl⟩

/-- The translation of one page fills the cache, and asks the host, at most. -/
theorem hostPage_cached (d : Dev) (p : Nat) (w : Bool) (ats : List AtsAnswer) : Cached (d.hostPage p w ats).2 d := by
  unfold Dev.hostPage
  split
  · exact Cached.refl d
  · split
    · exact ⟨_, _, _, rfl⟩
    · split <;> exact ⟨_, _, _, rfl⟩

/-- The translations of a range fill the cache, and ask the host, at most. -/
theorem hostPages_cached (d : Dev) (a n : Nat) (w : Bool) (ats : List AtsAnswer) : Cached (d.hostPages a n w ats).2 d := by
  unfold Dev.hostPages
  split
  · exact Cached.refl d
  · suffices h : ∀ (ps : List Nat) (acc : Option (List AtcEntry) × Dev), Cached acc.2 d →
        Cached (ps.foldl (fun (acc : Option (List AtcEntry) × Dev) p =>
          match acc with
          | (none, d) => (none, d)
          | (some l, d) =>
            match d.hostPage p w ats with
            | (some e, d) => (some (l ++ [e]), d)
            | (none, d) => (none, d)) acc).2 d from h _ _ (Cached.refl d)
    intro ps
    induction ps with
    | nil => exact fun acc h => h
    | cons p ps ih =>
      intro acc h
      rw [List.foldl_cons]
      apply ih
      rcases acc with ⟨_ | l, x⟩
      · exact h
      · have hp := (hostPage_cached x p w ats).trans h
        rcases hx : x.hostPage p w ats with ⟨_ | e, y⟩ <;> rw [hx] at hp <;> simpa only [hx] using hp

/-- The translations of a reference fill the cache, and ask the host, at most. -/
theorem refPages_cached (d : Dev) (fm : Form) (c : Cmd) : Cached (d.refPages fm c).2 d := by
  unfold Dev.refPages
  split
  · exact Cached.refl d
  · exact hostPages_cached d _ _ _ _

/-- What sends at every step sends in the end. -/
theorem eachOf_wire {α : Type} (f : Dev → α → Dev) (hf : ∀ x a, ∃ w, f x a = { x with wire := w }) (l : List α) (d : Dev) :
    ∃ w, eachOf l d f = { d with wire := w } := by
  unfold eachOf
  induction l generalizing d with
  | nil => exact ⟨d.wire, rfl⟩
  | cons a l ih =>
    obtain ⟨w, h⟩ := hf d a
    obtain ⟨w', h'⟩ := ih (f d a)
    exact ⟨w', by rw [List.foldl_cons, h', h]⟩

/-- What does not look at the host port's records at any step does not in the end. -/
theorem eachOf_host {α : Type} (f : Dev → α → Dev) (h : HostSt) (hf : ∀ x a, f { x with host := h } a = { f x a with host := h }) (l : List α)
    (d : Dev) : eachOf l { d with host := h } f = { eachOf l d f with host := h } := by
  unfold eachOf
  induction l generalizing d with
  | nil => rfl
  | cons a l ih => rw [List.foldl_cons, hf, ih]; rfl

/-- A write to host memory sends, and nothing else. -/
theorem hostPut_wire (d : Dev) (l : List AtcEntry) (a : Nat) (bs : List Byte) : ∃ w, d.hostPut l a bs = { d with wire := w } :=
  eachOf_wire _ (fun x _ => eachOf_wire _ (fun _ _ => ⟨_, rfl⟩) _ x) _ d

/-- A write to host memory looks at nothing of the host port but the Max Payload Size. -/
theorem hostPut_host (d : Dev) (l : List AtcEntry) (a : Nat) (bs : List Byte) (h : HostSt) (hm : h.maxPayload = d.host.maxPayload) :
    ({ d with host := h } : Dev).hostPut l a bs = { d.hostPut l a bs with host := h } := by
  unfold Dev.hostPut
  simp only [hm]
  apply eachOf_host
  intro x p
  apply eachOf_host
  intro y i
  rfl

/-- While ATS is off, nothing is translated. -/
theorem hostPages_off (h : d.xlate.atsEnable = false) (a n : Nat) (w : Bool) (ats : List AtsAnswer) : d.hostPages a n w ats = (some [], d) := by
  simp [Dev.hostPages, h]

/-- A ring entry taken: the ring, the number of the next reply, the cache and what was sent change. -/
theorem taken_cached (d : Dev) (r : RingNo) (n : Nat) (c : Cmd) :
    Cached (d.taken r n c) (({ d with host := { d.host with nextWait := d.host.nextWait + 1 } }.starts r).modRing r fun g =>
      { g with cmdHead := g.cmdHead + BitVec.ofNat 32 n, busy := true }) := by
  obtain ⟨t, l, f, h⟩ := hostPages_cached { d with host := { d.host with nextWait := d.host.nextWait + 1 } } (d.entryAddr r) (64 * n) false c.ats
  unfold Dev.taken Dev.readEntries Dev.entryTaken Dev.serve
  rw [h]
  split <;> exact ⟨t, l, _, rfl⟩

/-- An unsigned command heard: as its entry taken, but for the cache and what was sent. -/
theorem heard_cached (d : Dev) (r : RingNo) (fm : Form) (c : Cmd) :
    Cached (d.heard r fm c) (({ d with host := { d.host with nextWait := d.host.nextWait + 1 } }.starts r).modRing r fun g =>
      { g with cmdHead := g.cmdHead + BitVec.ofNat 32 1, busy := true }) :=
  (refPages_cached _ fm c).trans (taken_cached d r 1 c)

/-! ### Commands -/

/-- The device that takes an unsigned command from a ring. -/
theorem take_ring (h : d.hears r c fm) :
    d.takeCmd fm.op fm.get c = .yes (waitOfCmd d fm.op fm.get c) none (d.taken r 1 c) := by
  obtain ⟨⟨h1, h2, h3, ⟨h4, hT⟩, h5, h6, h7, h8, h9, h10, h11, h12, h13, hA⟩, h14, h15⟩ := h
  have h8' : ¬ ((d.ring r).cmdTail - (d.ring r).cmdHead).toNat < 1 := by omega
  unfold Dev.taken
  unfold Dev.readEntries Dev.entryAddr at hA ⊢
  unfold Dev.takeCmd
  simp only [h4, h1, sourceOf, hT, Bool.not_true, Bool.or_self, Bool.false_eq_true, if_false, h14, h5, h6, h7, h2, h9, h8', Option.isSome_none, Bool.false_and, Bool.not_true, Bool.false_eq_true, if_false,
    decide_false, Bool.or_self, ne_eq, not_true_eq_false]
  split
  · next heq => rw [heq] at hA; cases hA
  · next heq => rw [heq]

/-- What `Dev.heard` leaves of the device. -/
theorem heard_frame (d : Dev) (r : RingNo) (fm : Form) (c : Cmd) :
    (d.heard r fm c).host.waiting = d.host.waiting ∧ (d.heard r fm c).host.handover = d.host.handover ∧
    (d.heard r fm c).host.recovery = d.host.recovery ∧ (d.heard r fm c).power = d.power := by
  obtain ⟨t, l, f, h⟩ := heard_cached d r fm c
  rw [h]
  exact ⟨rfl, rfl, rfl, rfl⟩

/-- A command judged: `x` is the device at which its own rule is. -/
theorem judgeCmd_eq {y : Dev} {w : WaitReply} (body : Cmd → Nat → Nat → Dev → Answer × Dev) (hr : fm.roles.contains w.role = true)
    (hrec : y.host.recovery = false) (hp : 3 ≤ y.power.releaseStep) (hc : fm.cls.isSome = true → fm.cls = some c.cls.toNat)
    (hf : formFault fm c = none) (hl : (y.refPages fm c).1.isSome = true) :
    y.judgeCmd fm c w body =
      (let (a, x) := body c w.id w.role (y.refPages fm c).2
       match a with
       | .refuse code det => (y.refPages fm c).2.answerCmd w c (.refuse code det)
       | a => x.answerCmd w c a ((y.refPages fm c).1.getD [])) := by
  have hd : y.needsDie fm.op = false := by
    have : ¬ y.power.releaseStep < 3 := by omega
    simp [Dev.needsDie, this]
  have hc' : (fm.cls.isSome && decide (fm.cls ≠ some c.cls.toNat)) = false := by
    cases hs : fm.cls.isSome
    · simp
    · simp [hc hs]
  have ht : reached c = true := by
    unfold reached
    cases hq : c.ref with
    | none => rfl
    | some q =>
      cases hq' : q.translates with
      | true => simp [hq']
      | false =>
        exfalso
        unfold formFault at hf
        simp only [hq, hq'] at hf
        revert hf
        repeat' split
        all_goals intro hf; first | exact absurd hf (Option.some_ne_none _) | simp_all
  unfold Dev.judgeCmd
  simp only [hr, hrec, hd, hc', hf, hl, ht, Bool.not_true, Bool.false_and, Bool.and_false, Bool.false_eq_true, if_false, Bool.and_self, if_true]
  rcases body c w.id w.role (y.refPages fm c).2 with ⟨a, x⟩
  cases a <;> rfl

/-- An unsigned command in order is judged by its own rule. -/
theorem runCmd_judged (h : d.hears r c fm) (body : Cmd → Nat → Nat → Dev → Answer × Dev) :
    d.runCmd fm c body =
      (let (a, x) := body c d.host.nextWait 1 (d.heard r fm c)
       match a with
       | .refuse code det => (d.heard r fm c).answerCmd (waitOfCmd d fm.op fm.get c) c (.refuse code det)
       | a => x.answerCmd (waitOfCmd d fm.op fm.get c) c a (((d.taken r 1 c).refPages fm c).1.getD [])) := by
  have ht := take_ring h
  obtain ⟨⟨h1, h2, h3, ⟨h4, hT⟩, h5, h6, h7, h8, h9, h10, h11, h12, h13, hA⟩, h14, ⟨h15, h16, h17⟩, h18⟩ := h
  have hrole : (d.taken r 1 c).roleOf fm.op c (waitOfCmd d fm.op fm.get c) = .ok (waitOfCmd d fm.op fm.get c, d.taken r 1 c) := by
    unfold Dev.roleOf
    simp [h14, h1, waitOfCmd]
  obtain ⟨t, l, f, ht'⟩ := taken_cached d r 1 c
  unfold Dev.runCmd
  simp only [h10, Bool.and_false, Bool.false_eq_true, if_false, ht, hrole]
  exact judgeCmd_eq body h16 (by rw [ht']; exact h12) (by rw [ht']; exact h13) h17 h15 h18

/-- A command that is executed. -/
theorem runCmd_ok (h : d.hears r c fm) {body : Cmd → Nat → Nat → Dev → Answer × Dev} {det : Nat} {res : List Byte}
    (hb : body c d.host.nextWait 1 (d.heard r fm c) = (.ok det res, x)) (hw : ∀ w ∈ x.host.waiting, w.id ≠ d.host.nextWait)
    (hh : x.host.handover = false) : d.runCmd fm c body = x.answered d fm c 0 det res := by
  rw [runCmd_judged h, hb]
  simp only
  unfold Dev.answerCmd Dev.giveAnswer
  have hf : (waitOfCmd d fm.op fm.get c).floor = false := rfl
  simp only [hf, Bool.false_eq_true, if_false]
  rw [finishWait_last _ _ _ _ hw hh hf]
  rfl

/-- A command that is refused by its own rule: nothing but its taking and its reply remains. -/
theorem runCmd_refuse (h : d.hears r c fm) {body : Cmd → Nat → Nat → Dev → Answer × Dev} {code det : Nat}
    (hb : (body c d.host.nextWait 1 (d.heard r fm c)).1 = .refuse code det) :
    d.runCmd fm c body = (d.heard r fm c).answered d fm c code det [] := by
  rw [runCmd_judged h]
  rcases hb' : body c d.host.nextWait 1 (d.heard r fm c) with ⟨a, y⟩
  rw [hb'] at hb
  simp only at hb
  subst hb
  simp only
  unfold Dev.answerCmd Dev.giveAnswer
  have hf : (waitOfCmd d fm.op fm.get c).floor = false := rfl
  obtain ⟨⟨h1, h2, h3, ⟨h4, hT⟩, h5, h6, h7, h8, h9, h10, h11, h12, h13, hA⟩, h14, h15⟩ := h
  obtain ⟨w1, w2, -, -⟩ := heard_frame d r fm c
  simp only [hf, Bool.false_eq_true, if_false]
  rw [finishWait_last (x := d.heard r fm c) (waitOfCmd d fm.op fm.get c) _ _ _ (by rw [w1]; exact h11) (by
    rw [w2]
    unfold Dev.takesCommands at h4
    simp only [Bool.and_eq_true, Bool.not_eq_true'] at h4
    exact h4.2) hf]
  rfl

/-- A command that is executed, its bytes going to its reference. -/
theorem runCmd_toRef (h : d.hears r c fm) {body : Cmd → Nat → Nat → Dev → Answer × Dev} {det : Nat} {bs : List Byte}
    (hb : body c d.host.nextWait 1 (d.heard r fm c) = (.toRef det bs, x)) (hw : ∀ w ∈ x.host.waiting, w.id ≠ d.host.nextWait)
    (hh : x.host.handover = false) :
    d.runCmd fm c body = (x.answersTo d r fm c bs).answered d fm c 0 det [] := by
  rw [runCmd_judged h, hb]
  simp only
  unfold Dev.answerCmd Dev.giveAnswer
  have hf : (waitOfCmd d fm.op fm.get c).floor = false := rfl
  simp only [hf, Bool.false_eq_true, if_false]
  have hp := hostPut_wire x (((d.taken r 1 c).refPages fm c).1.getD []) (c.u 56 8) bs
  obtain ⟨l, hp⟩ := hp
  have := finishWait_last (x := x.answersTo d r fm c bs) (waitOfCmd d fm.op fm.get c) 0 det []
    (by unfold Dev.answersTo; rw [hp]; exact hw) (by unfold Dev.answersTo; rw [hp]; exact hh) hf
  have hq : (x.answersTo d r fm c bs).host = x.host := by unfold Dev.answersTo; rw [hp]
  rw [hostPut_host _ _ _ _ _ (by rfl)]
  rw [hq] at this
  exact this

/-- A command that is accepted and runs on (R312). -/
theorem runCmd_started (h : d.hears r c fm) {body : Cmd → Nat → Nat → Dev → Answer × Dev}
    (hb : body c d.host.nextWait 1 (d.heard r fm c) = (.started, x)) (hw : ∀ w ∈ x.host.waiting, w.id ≠ d.host.nextWait)
    (hh : x.host.handover = false) : d.runCmd fm c body = x.answered d fm c 0 0 [] true := by
  rw [runCmd_judged h, hb]
  simp only
  unfold Dev.answerCmd Dev.giveAnswer
  have hf : (waitOfCmd d fm.op fm.get c).floor = false := rfl
  simp only [hf, Bool.false_eq_true, if_false]
  have hid : (waitOfCmd d fm.op fm.get c).id = d.host.nextWait := rfl
  have hm : ({ x with host := { x.host with waiting := x.host.waiting ++ [waitOfCmd d fm.op fm.get c] } } : Dev).modWait
      (waitOfCmd d fm.op fm.get c).id (fun w => { w with started := true }) =
      { x with host := { x.host with waiting := x.host.waiting ++ [{ waitOfCmd d fm.op fm.get c with started := true }] } } := by
    unfold Dev.modWait
    simp only [List.map_append, List.map_cons, List.map_nil, if_true]
    congr 3
    conv_rhs => rw [← List.map_id x.host.waiting]
    apply List.map_congr_left
    intro v hv
    simp [hid, hw v hv]
  rw [hm]
  have := finishWait_last (x := x) { waitOfCmd d fm.op fm.get c with started := true } 0 0 [] hw hh rfl
  exact this

/-- A command whose reply waits for its effect. -/
theorem runCmd_wait (h : d.hears r c fm) {body : Cmd → Nat → Nat → Dev → Answer × Dev}
    (hb : body c d.host.nextWait 1 (d.heard r fm c) = (.wait, x)) (hw : ∀ w ∈ x.host.waiting, w.id ≠ d.host.nextWait) :
    d.runCmd fm c body = x.awaits d fm c := by
  rw [runCmd_judged h, hb]
  simp only
  unfold Dev.answerCmd Dev.giveAnswer
  have hf : (waitOfCmd d fm.op fm.get c).floor = false := rfl
  have he : (waitOfCmd d fm.op fm.get c).effect = true := rfl
  have hid : (waitOfCmd d fm.op fm.get c).id = d.host.nextWait := rfl
  have hfind : x.host.waiting.find? (fun v => decide (v.id = d.host.nextWait)) = none := by
    rw [List.find?_eq_none]
    intro v hv
    simpa using hw v hv
  simp only [hf, Bool.false_eq_true, if_false]
  unfold Dev.settleWait Dev.waitOf Dev.awaits
  simp [hid, hfind, he]

/-- A command whose effect comes about at once, its reply as the command processor sends it. -/
theorem runCmd_replies (h : d.hears r c fm) {body : Cmd → Nat → Nat → Dev → Answer × Dev} {a : Answer}
    (hb : body c d.host.nextWait 1 (d.heard r fm c) = (a, x)) (ha : a = .started ∨ ∃ det res, a = .ok det res) :
    d.runCmd fm c body = x.replies d fm c a := by
  rw [runCmd_judged h, hb]
  rcases ha with rfl | ⟨det, res, rfl⟩ <;> rfl

/-- The record of a command whose envelope held. -/
def signedWait (d : Dev) (fm : Form) (c : Cmd) (e : Envelope) : WaitReply :=
  { waitOfCmd d fm.op fm.get c with role := e.role.toNat, cred := e.cred, counter := e.counter, floor := false }

/-- What the judging of a signed command leaves of the device. -/
theorem trusted_frame (d : Dev) (r : RingNo) (e : Envelope) (c : Cmd) :
    (d.trusted r e c).host.recovery = d.host.recovery ∧ (d.trusted r e c).power = d.power := by
  obtain ⟨t, l, f, h⟩ := taken_cached d r 4 c
  unfold Dev.trusted Dev.acceptCounter
  rw [h]
  split <;> exact ⟨rfl, rfl⟩

/-- A signed command in order: refused where the envelope does not hold, else judged by its own rule. -/
theorem runCmd_signed (h : d.hearsSigned r c e fm) (body : Cmd → Nat → Nat → Dev → Answer × Dev) :
    d.runCmd fm c body =
      (match d.envelopeFault fm.op c e with
       | some b => (d.taken r 4 c).answeredTo d e fm c 0x45 b []
       | none =>
         let (a, x) := body c d.host.nextWait e.role.toNat (d.heardSigned r e fm c)
         match a with
         | .refuse code det => (d.heardSigned r e fm c).answerCmd (signedWait d fm c e) c (.refuse code det)
         | a => x.answerCmd (signedWait d fm c e) c a (((d.trusted r e c).refPages fm c).1.getD [])) := by
  obtain ⟨⟨h1, h2, h3, ⟨h4, hT⟩, h5, h6, h7, h8, h9, h10, h11, h12, h13, hA⟩, h14, h15, ⟨h16, h17, h18⟩, hB, h19⟩ := h
  have hho : d.host.handover = false := by
    unfold Dev.takesCommands at h4
    simp only [Bool.and_eq_true, Bool.not_eq_true'] at h4
    exact h4.2
  have h8' : ¬ ((d.ring r).cmdTail - (d.ring r).cmdHead).toNat < 4 := by omega
  have ht : d.takeCmd fm.op fm.get c = .yes (waitOfCmd d fm.op fm.get c) none (d.taken r 4 c) := by
    unfold Dev.taken
    unfold Dev.readEntries Dev.entryAddr at hA ⊢
    unfold Dev.takeCmd
    simp only [h4, h1, sourceOf, hT, Bool.not_true, Bool.or_self, Bool.false_eq_true, if_false, h14, h5, h6, h7, h2, h9, h15, Option.isSome_some, Bool.true_and, Bool.not_true, Bool.false_eq_true, if_false,
      decide_false, Bool.or_self, ne_eq, not_true_eq_false, Bool.not_false, if_true, h8']
    split
    · next heq => rw [heq] at hA; cases hA
    · next heq => rw [heq]
  obtain ⟨t, l, f, htc⟩ := taken_cached d r 4 c
  have hfa : (d.taken r 4 c).envelopeFault fm.op c e = d.envelopeFault fm.op c e := by rw [htc]; rfl
  unfold Dev.runCmd
  simp only [h10, Bool.and_false, Bool.false_eq_true, if_false, ht]
  unfold Dev.roleOf
  simp only [h14, hfa]
  cases hE : d.envelopeFault fm.op c e with
  | some b =>
    simp only
    unfold Dev.answerCmd Dev.giveAnswer
    have hc : (waitOfCmd d fm.op fm.get c).claims c =
        { waitOfCmd d fm.op fm.get c with role := e.role.toNat, cred := e.cred, counter := e.counter } := by
      simp only [WaitReply.claims, h14]
    have hf : ((waitOfCmd d fm.op fm.get c).claims c).floor = false := by rw [hc]; rfl
    simp only [hf, Bool.false_eq_true, if_false]
    rw [finishWait_last (x := d.taken r 4 c) ((waitOfCmd d fm.op fm.get c).claims c) _ _ _ (by rw [htc, hc]; exact h11) (by rw [htc]; exact hho) hf, hc]
    rfl
  | none =>
    simp only
    have hup : ((d.taken r 4 c).acceptCounter e).1 = false := by
      have hs : (d.taken r 4 c).sec = d.sec := by rw [htc]; rfl
      unfold Dev.acceptCounter Dev.cred
      rw [hs]
      by_cases hm : e.cred = makerCred
      · simp only [hm, if_true] at h19 ⊢
        have : ¬ d.sec.makerFloor < e.counter.toNat := by omega
        exact decide_eq_false this
      · simp only [hm, if_false] at h19 ⊢
        have : ¬ (d.cred e.cred.toNat).floor < e.counter.toNat := by omega
        exact decide_eq_false this
    have hacc : (d.taken r 4 c).acceptCounter e = (false, d.trusted r e c) := by
      unfold Dev.trusted
      rw [← hup]
    rw [hacc]
    obtain ⟨hrec, hpow⟩ := trusted_frame d r e c
    exact judgeCmd_eq (w := signedWait d fm c e) body h17 (by rw [hrec]; exact h12) (by rw [hpow]; exact h13) h18 h16 hB

/-- A signed command that is executed. -/
theorem runCmd_signed_ok (h : d.hearsSigned r c e fm) {body : Cmd → Nat → Nat → Dev → Answer × Dev} {f : Dev → Dev}
    (hb : body c d.host.nextWait e.role.toNat (d.heardSigned r e fm c) = (.ok 0 [], f (d.heardSigned r e fm c)))
    (hw : ∀ w ∈ (f (d.heardSigned r e fm c)).host.waiting, w.id ≠ d.host.nextWait) (hh : (f (d.heardSigned r e fm c)).host.handover = false) :
    d.runCmd fm c body = d.signedOutcome r e fm c f false := by
  rw [runCmd_signed h, hb]
  unfold Dev.signedOutcome
  cases d.envelopeFault fm.op c e with
  | some b => rfl
  | none =>
    simp only
    unfold Dev.answerCmd Dev.giveAnswer
    have hf : (signedWait d fm c e).floor = false := rfl
    have hid : (signedWait d fm c e).id = d.host.nextWait := rfl
    simp only [hf, Bool.false_eq_true, if_false]
    rw [finishWait_last (x := f (d.heardSigned r e fm c)) (signedWait d fm c e) _ _ _ hw hh hf]
    rfl

/-- A signed command that is accepted and runs on. -/
theorem runCmd_signed_started (h : d.hearsSigned r c e fm) {body : Cmd → Nat → Nat → Dev → Answer × Dev} {f : Dev → Dev}
    (hb : body c d.host.nextWait e.role.toNat (d.heardSigned r e fm c) = (.started, f (d.heardSigned r e fm c)))
    (hw : ∀ w ∈ (f (d.heardSigned r e fm c)).host.waiting, w.id ≠ d.host.nextWait) (hh : (f (d.heardSigned r e fm c)).host.handover = false) :
    d.runCmd fm c body = d.signedOutcome r e fm c f true := by
  rw [runCmd_signed h, hb]
  unfold Dev.signedOutcome
  cases d.envelopeFault fm.op c e with
  | some b => rfl
  | none =>
    simp only
    unfold Dev.answerCmd Dev.giveAnswer
    have hf : (signedWait d fm c e).floor = false := rfl
    have hid : (signedWait d fm c e).id = d.host.nextWait := rfl
    simp only [hf, Bool.false_eq_true, if_false]
    generalize hx : f (d.heardSigned r e fm c) = x at hw hh ⊢
    have hm : ({ x with host := { x.host with waiting := x.host.waiting ++ [signedWait d fm c e] } } : Dev).modWait
        (signedWait d fm c e).id (fun w => { w with started := true }) =
        { x with host := { x.host with waiting := x.host.waiting ++ [{ signedWait d fm c e with started := true }] } } := by
      unfold Dev.modWait
      simp only [List.map_append, List.map_cons, List.map_nil, if_true]
      congr 3
      conv_rhs => rw [← List.map_id x.host.waiting]
      apply List.map_congr_left
      intro v hv
      simp [hid, hw v hv]
    rw [hm]
    have := finishWait_last (x := x) { signedWait d fm c e with started := true } 0 0 [] hw hh rfl
    exact this

/-- A signed command whose effect comes about at once, its reply as the command processor sends it. -/
theorem runCmd_signed_replies (h : d.hearsSigned r c e fm) {body : Cmd → Nat → Nat → Dev → Answer × Dev} {f : Dev → Dev} {a : Answer}
    (hb : body c d.host.nextWait e.role.toNat (d.heardSigned r e fm c) = (a, f (d.heardSigned r e fm c)))
    (ha : a = .started ∨ ∃ det res, a = .ok det res) : d.runCmd fm c body = d.signedReplies r e fm c f a := by
  rw [runCmd_signed h, hb]
  unfold Dev.signedReplies
  cases d.envelopeFault fm.op c e with
  | some b => rfl
  | none => rcases ha with rfl | ⟨det, res, rfl⟩ <;> rfl

end Sys2Proof.Laws
end

