-- ==== Sys2Proof/Laws/Frames.lean ====
section
/-!
SUPPORT. The length of a frame's bytes (R101).
-/
open Sys2Proof Sys2Proof.Machine

namespace Sys2Proof.Laws

/-- A frame whose payload fills its area has as many bytes as its length says. -/
theorem frame_bytes_length {f : Frame} (h : f.payload.length = f.area) : f.bytes.length = f.len := by
  simp only [Frame.bytes, Frame.len, headerBytes, le, List.length_append, List.length_map, upTo, List.length_range]
  split
  · simp
  · simp [h]; omega

/-- A frame's flits hold its bytes. -/
theorem frame_len_le (f : Frame) : f.len ≤ 32 * f.flits := by
  simp only [Frame.len, Frame.flits, ceilDiv]; split <;> omega

end Sys2Proof.Laws
end

