-- ==== Sys2Proof/Laws/Memory.lean ====
section
/-!
SUPPORT. The byte memories (log 6): every operation keeps the canonical form, a byte reads back what was written to it, and every
other byte reads as before.
-/
open Sys2Proof Sys2Proof.Machine

namespace Sys2Proof.Laws

/-- A number written in `n` bytes and read back is the number modulo 256 to the `n`. -/
theorem unle_le (n v : Nat) : unle (le n v) = v % 256 ^ n := by
  induction n generalizing v with
  | zero => simp [le, upTo, unle, Nat.mod_one]
  | succ n ih =>
    have e : le (n + 1) v = BitVec.ofNat 8 v :: le n (v >>> 8) := by
      simp only [le, upTo, List.range_succ_eq_map, List.map_cons, List.map_map]
      refine congrArg₂ _ (by simp) (List.map_congr_left fun i _ => ?_)
      simp only [Function.comp, Nat.succ_eq_add_one, ← Nat.shiftRight_add]
      congr 2; ring
    have hm := @Nat.mod_mul 256 (256 ^ n) v
    rw [e, unle, ih, Nat.shiftRight_eq_div_pow, show 256 ^ (n + 1) = 256 * 256 ^ n by ring, hm]
    simp

/-- The canonical form as a property of the whole list. -/
theorem wf_iff (m : Memory) :
    Memory.wf m = true ↔ m.Pairwise (fun a b => a.1 < b.1) ∧ ∀ c ∈ m, c.2 ≠ 0 := by
  fun_induction Memory.wf m with
  | case1 => simp
  | case2 a b => simp
  | case3 a b c e r ih =>
    simp only [Bool.and_eq_true, ih, bne_iff_ne, decide_eq_true_eq, List.pairwise_cons, List.mem_cons, forall_eq_or_imp]
    constructor
    · rintro ⟨⟨h1, h2⟩, ⟨h3, h4⟩, h5, h6⟩
      exact ⟨⟨⟨h2, fun x hx => h2.trans (h3 x hx)⟩, h3, h4⟩, h1, h5, h6⟩
    · rintro ⟨⟨⟨h2, -⟩, h3, h4⟩, h1, h5, h6⟩
      exact ⟨⟨h1, h2⟩, ⟨h3, h4⟩, h5, h6⟩

/-- A write lists nothing but its own cell and what stood there. -/
theorem mem_memWrite {m : Memory} {a : Nat} {v : Byte} {c : Host.Cell} (h : c ∈ memWrite m a v) :
    c ∈ m ∨ (c = (a, v) ∧ v ≠ 0) := by
  fun_induction memWrite m a v <;> simp_all
  · tauto
  · tauto
  · tauto

theorem memWrite_wf {m : Memory} (h : Memory.wf m = true) (a : Nat) (v : Byte) : Memory.wf (memWrite m a v) = true := by
  rw [wf_iff] at h ⊢
  obtain ⟨hs, hz⟩ := h
  refine ⟨?_, fun c hc => ?_⟩
  · induction m with
    | nil => unfold memWrite; split <;> simp
    | cons e r ih =>
      obtain ⟨k, b⟩ := e
      rw [List.pairwise_cons] at hs
      unfold memWrite
      split
      · next hlt =>
        split
        · exact List.pairwise_cons.2 hs
        · refine List.pairwise_cons.2 ⟨fun c hc => ?_, List.pairwise_cons.2 hs⟩
          rcases List.mem_cons.1 hc with rfl | hc
          · exact hlt
          · exact hlt.trans (hs.1 c hc)
      · next hlt =>
        split
        · next he =>
          subst he
          split
          · exact hs.2
          · exact List.pairwise_cons.2 hs
        · next he =>
          refine List.pairwise_cons.2 ⟨fun c hc => ?_, ih hs.2 fun c hc => hz c (List.mem_cons_of_mem _ hc)⟩
          rcases mem_memWrite hc with hc | ⟨rfl, -⟩
          · exact hs.1 c hc
          · show k < a
            omega
  · rcases mem_memWrite hc with hc | ⟨rfl, hv⟩
    · exact hz c hc
    · exact hv

theorem memWrites_wf (bs : List Byte) {m : Memory} (h : Memory.wf m = true) (a : Nat) : Memory.wf (memWrites m a bs) = true := by
  induction bs generalizing m a with
  | nil => exact h
  | cons b r ih => exact ih (memWrite_wf h a b) _

theorem memWritesMasked_wf (bs : List Byte) {m : Memory} (h : Memory.wf m = true) (a mask : Nat) :
    Memory.wf (memWritesMasked m a mask bs) = true := by
  induction bs generalizing m a mask with
  | nil => exact h
  | cons b r ih =>
    refine ih ?_ _ _
    split
    · exact memWrite_wf h a b
    · exact h

/-- Any selection of a memory's cells keeps the form. -/
theorem memFilter_wf {m : Memory} (h : Memory.wf m = true) (p : Host.Cell → Bool) : Memory.wf (m.filter p) = true := by
  rw [wf_iff] at h ⊢
  exact ⟨h.1.filter _, fun c hc => h.2 c (List.mem_of_mem_filter hc)⟩

theorem memZero_wf {m : Memory} (h : Memory.wf m = true) (a n : Nat) : Memory.wf (memZero m a n) = true := memFilter_wf h _

/-- An address below every listed one is unlisted. -/
theorem memRead_below {m : Memory} {a : Nat} (h : ∀ c ∈ m, a < c.1) : memRead m a = 0 := by
  fun_induction memRead m a with
  | case1 => rfl
  | case2 b r => exact absurd (h _ (List.mem_cons_self ..)) (by simp)
  | case3 k b r hk ih => exact ih fun c hc => h c (List.mem_cons_of_mem _ hc)

theorem memRead_memWrite {m : Memory} (h : Memory.wf m = true) (a : Nat) (v : Byte) (k : Nat) :
    memRead (memWrite m a v) k = if k = a then v else memRead m k := by
  rw [wf_iff] at h
  obtain ⟨hs, -⟩ := h
  induction m with
  | nil =>
    unfold memWrite
    by_cases hv : v = 0
    · subst hv; rw [if_pos rfl]; split <;> rfl
    · rw [if_neg hv]
      by_cases hk : k = a
      · simp [memRead, hk]
      · simp [memRead, hk, Ne.symm hk]
  | cons e r ih =>
    obtain ⟨j, b⟩ := e
    rw [List.pairwise_cons] at hs
    unfold memWrite
    by_cases hlt : a < j
    · rw [if_pos hlt]
      by_cases hv : v = 0
      · rw [if_pos hv]
        split
        · next hk =>
          subst hk; subst hv
          refine memRead_below fun c hc => ?_
          rcases List.mem_cons.1 hc with rfl | hc
          · exact hlt
          · exact hlt.trans (hs.1 c hc)
        · rfl
      · rw [if_neg hv]
        by_cases hk : k = a
        · simp [memRead, hk]
        · simp [memRead, hk, Ne.symm hk]
    · rw [if_neg hlt]
      by_cases he : a = j
      · subst he
        rw [if_pos rfl]
        by_cases hv : v = 0
        · rw [if_pos hv]
          by_cases hk : k = a
          · subst hk; rw [if_pos rfl, hv]; exact memRead_below hs.1
          · simp [memRead, hk, Ne.symm hk]
        · rw [if_neg hv]
          by_cases hk : k = a
          · simp [memRead, hk]
          · simp [memRead, hk, Ne.symm hk]
      · rw [if_neg he]
        by_cases hj : j = k
        · subst hj; simp [memRead, Ne.symm he]
        · simp only [memRead, if_neg hj]; exact ih hs.2

theorem memRead_filter {m : Memory} (p : Nat → Bool) (k : Nat) :
    memRead (m.filter fun c => p c.1) k = if p k then memRead m k else 0 := by
  induction m with
  | nil => simp [memRead]
  | cons e r ih =>
    obtain ⟨j, b⟩ := e
    by_cases hp : p j = true
    · simp only [List.filter_cons, hp, if_true, memRead]
      by_cases hj : j = k
      · subst hj; simp [hp]
      · simp [hj, ih]
    · simp only [List.filter_cons, hp, memRead]
      by_cases hj : j = k
      · subst hj; simp [hp, ih]
      · simp [hj, ih]

/-- Reads of one range agree where its bytes do. -/
theorem memReads_congr {m m' : Memory} {a n : Nat} (h : ∀ k, a ≤ k → k < a + n → memRead m k = memRead m' k) :
    memReads m a n = memReads m' a n := by
  unfold memReads upTo
  refine List.map_congr_left fun i hi => h _ (by omega) ?_
  have := List.mem_range.1 hi
  omega

/-- Equal bytes at every address are equal memories. -/
theorem memory_ext {m m' : Memory} (h : Memory.wf m = true) (h' : Memory.wf m' = true) (he : ∀ k, memRead m k = memRead m' k) :
    m = m' := by
  rw [wf_iff] at h h'
  obtain ⟨hs, hz⟩ := h
  obtain ⟨hs', hz'⟩ := h'
  induction m generalizing m' with
  | nil =>
    cases m' with
    | nil => rfl
    | cons e r =>
      have := he e.1
      exact absurd (by simpa [memRead] using this.symm) (hz' e (List.mem_cons_self ..))
  | cons c r ih =>
    cases m' with
    | nil => exact absurd (by simpa [memRead] using he c.1) (hz c (List.mem_cons_self ..))
    | cons c' r' =>
      obtain ⟨a, b⟩ := c
      obtain ⟨a', b'⟩ := c'
      rw [List.pairwise_cons] at hs hs'
      have hb : b ≠ 0 := hz (a, b) (List.mem_cons_self ..)
      have hb' : b' ≠ 0 := hz' (a', b') (List.mem_cons_self ..)
      have haa : a = a' := by
        rcases Nat.lt_trichotomy a a' with hlt | rfl | hlt
        · have h1 := he a
          have h2 : memRead ((a', b') :: r') a = 0 := memRead_below fun x hx => by
            rcases List.mem_cons.1 hx with rfl | hx
            · exact hlt
            · exact hlt.trans (hs'.1 x hx)
          simp only [memRead, if_true] at h1 h2
          exact absurd (h1.trans h2) hb
        · rfl
        · have h1 := he a'
          have h2 : memRead ((a, b) :: r) a' = 0 := memRead_below fun x hx => by
            rcases List.mem_cons.1 hx with rfl | hx
            · exact hlt
            · exact hlt.trans (hs.1 x hx)
          simp only [memRead, if_true] at h1 h2
          exact absurd (h1.symm.trans h2) hb'
      subst haa
      have hbb : b = b' := by simpa [memRead] using he a
      subst hbb
      congr 1
      refine ih (fun k => ?_) hs.2 (fun c hc => hz c (List.mem_cons_of_mem _ hc)) hs'.2 (fun c hc => hz' c (List.mem_cons_of_mem _ hc))
      by_cases hk : a = k
      · subst hk; rw [memRead_below hs.1, memRead_below hs'.1]
      · simpa [memRead, hk] using he k

/-- Nothing is listed after reset. -/
theorem reset_memories : State.reset.dev.pool.mem = [] ∧ State.reset.dev.tiles.positions.all (fun e =>
    Memory.wf e.2.sram && Memory.wf e.2.vregs && Memory.wf e.2.istore) = true := by
  refine ⟨rfl, rfl⟩

end Sys2Proof.Laws
end

