-- ==== Sys2Proof/Laws/State.lean ====
section
/-!
SUPPORT. What each update of the device leaves and what it changes: one lemma a field, so that no proof unfolds a record update; the laws of
sparse tables; the accessors after the updates.
-/
namespace Sys2Proof.Machine

open Sys2Proof

/-! ### Sparse tables -/

@[simp] theorem tget_nil {α : Type} (k : Nat) (z : α) : tget ([] : Tbl α) k z = z := rfl

@[simp] theorem tget_tset {α : Type} (t : Tbl α) (k j : Nat) (v z : α) :
    tget (tset t k v) j z = if j = k then v else tget t j z := by
  induction t with
  | nil =>
    by_cases h : j = k
    · simp [tset, tget, h]
    · simp [tset, tget, h, Ne.symm h]
  | cons e r ih =>
    obtain ⟨i, w⟩ := e
    rcases Nat.lt_trichotomy k i with h1 | h1 | h1
    · by_cases h : j = k
      · simp [tset, tget, h1, h]
      · simp [tset, tget, h1, h, Ne.symm h]
    · subst h1
      by_cases h : j = k
      · simp [tset, tget, h]
      · simp [tset, tget, h, Ne.symm h]
    · have h2 : ¬ k < i := by omega
      have h3 : i ≠ k := by omega
      by_cases h : i = j
      · subst h; simp [tset, tget, h2, h3]
      · simp [tset, tget, h2, h3, h, ih]

@[simp] theorem tget_tmod {α : Type} (t : Tbl α) (k j : Nat) (z : α) (f : α → α) :
    tget (tmod t k z f) j z = if j = k then f (tget t k z) else tget t j z := by simp [tmod]

@[simp] theorem tget_tmap {α : Type} (t : Tbl α) (k : Nat) (z : α) (f : Nat → α → α) (h : f k z = z) :
    tget (tmap t f) k z = f k (tget t k z) := by
  induction t with
  | nil => simp [tmap, tget, h]
  | cons e r ih =>
    obtain ⟨i, w⟩ := e
    simp only [tmap, List.map_cons, tget] at ih ⊢
    by_cases h1 : i = k
    · subst h1; simp
    · simp [h1, ih]

theorem tget_tdel {α : Type} (t : Tbl α) (k j : Nat) (z : α) : tget (tdel t k) j z = if j = k then z else tget t j z := by
  induction t with
  | nil => simp [tdel]
  | cons e r ih =>
    obtain ⟨i, w⟩ := e
    simp only [tdel] at ih ⊢
    by_cases h1 : i = k
    · subst h1
      simp only [ne_eq, not_true, decide_false, Bool.false_eq_true, not_false_eq_true, List.filter_cons_of_neg, ih, tget]
      by_cases h2 : j = i
      · simp [h2]
      · simp [h2, Ne.symm h2]
    · simp only [ne_eq, h1, not_false_eq_true, decide_true, List.filter_cons_of_pos, tget, ih]
      by_cases h2 : i = j
      · subst h2; simp [h1]
      · simp [h2]

theorem tset_tset {α : Type} (t : Tbl α) (k : Nat) (v w : α) : tset (tset t k v) k w = tset t k w := by
  induction t with
  | nil => simp [tset]
  | cons e r ih =>
    obtain ⟨i, u⟩ := e
    by_cases h1 : k < i
    · simp [tset, h1]
    · by_cases h2 : i = k
      · simp [tset, h2]
      · simp [tset, h1, h2, ih]

/-! ### Fields after an update -/

@[simp] theorem Dev.emit_wire (d : Dev) (e : Emission) : (d.emit e).wire = e :: d.wire := rfl
@[simp] theorem Dev.emit_now (d : Dev) (e : Emission) : (d.emit e).now = d.now := rfl
@[simp] theorem Dev.emit_free (d : Dev) (e : Emission) : (d.emit e).free = d.free := rfl
@[simp] theorem Dev.emit_ident (d : Dev) (e : Emission) : (d.emit e).ident = d.ident := rfl
@[simp] theorem Dev.emit_power (d : Dev) (e : Emission) : (d.emit e).power = d.power := rfl
@[simp] theorem Dev.emit_ports (d : Dev) (e : Emission) : (d.emit e).ports = d.ports := rfl
@[simp] theorem Dev.emit_sw (d : Dev) (e : Emission) : (d.emit e).sw = d.sw := rfl
@[simp] theorem Dev.emit_resvs (d : Dev) (e : Emission) : (d.emit e).resvs = d.resvs := rfl
@[simp] theorem Dev.emit_rt (d : Dev) (e : Emission) : (d.emit e).rt = d.rt := rfl
@[simp] theorem Dev.emit_prot (d : Dev) (e : Emission) : (d.emit e).prot = d.prot := rfl
@[simp] theorem Dev.emit_homes (d : Dev) (e : Emission) : (d.emit e).homes = d.homes := rfl
@[simp] theorem Dev.emit_pool (d : Dev) (e : Emission) : (d.emit e).pool = d.pool := rfl
@[simp] theorem Dev.emit_req (d : Dev) (e : Emission) : (d.emit e).req = d.req := rfl
@[simp] theorem Dev.emit_relay (d : Dev) (e : Emission) : (d.emit e).relay = d.relay := rfl
@[simp] theorem Dev.emit_tiles (d : Dev) (e : Emission) : (d.emit e).tiles = d.tiles := rfl
@[simp] theorem Dev.emit_xlate (d : Dev) (e : Emission) : (d.emit e).xlate = d.xlate := rfl
@[simp] theorem Dev.emit_host (d : Dev) (e : Emission) : (d.emit e).host = d.host := rfl
@[simp] theorem Dev.emit_sec (d : Dev) (e : Emission) : (d.emit e).sec = d.sec := rfl
@[simp] theorem Dev.emit_faults (d : Dev) (e : Emission) : (d.emit e).faults = d.faults := rfl
@[simp] theorem Dev.emit_test (d : Dev) (e : Emission) : (d.emit e).test = d.test := rfl
@[simp] theorem Dev.emit_fw (d : Dev) (e : Emission) : (d.emit e).fw = d.fw := rfl
@[simp] theorem Dev.emit_flash (d : Dev) (e : Emission) : (d.emit e).flash = d.flash := rfl

@[simp] theorem Dev.modPort_wire (d : Dev) (p : Nat) (f : PortSt → PortSt) : (d.modPort p f).wire = d.wire := rfl
@[simp] theorem Dev.modPort_now (d : Dev) (p : Nat) (f : PortSt → PortSt) : (d.modPort p f).now = d.now := rfl
@[simp] theorem Dev.modPort_free (d : Dev) (p : Nat) (f : PortSt → PortSt) : (d.modPort p f).free = d.free := rfl
@[simp] theorem Dev.modPort_ident (d : Dev) (p : Nat) (f : PortSt → PortSt) : (d.modPort p f).ident = d.ident := rfl
@[simp] theorem Dev.modPort_power (d : Dev) (p : Nat) (f : PortSt → PortSt) : (d.modPort p f).power = d.power := rfl
@[simp] theorem Dev.modPort_ports (d : Dev) (p : Nat) (f : PortSt → PortSt) : (d.modPort p f).ports = tmod d.ports p {} f := rfl
@[simp] theorem Dev.modPort_sw (d : Dev) (p : Nat) (f : PortSt → PortSt) : (d.modPort p f).sw = d.sw := rfl
@[simp] theorem Dev.modPort_resvs (d : Dev) (p : Nat) (f : PortSt → PortSt) : (d.modPort p f).resvs = d.resvs := rfl
@[simp] theorem Dev.modPort_rt (d : Dev) (p : Nat) (f : PortSt → PortSt) : (d.modPort p f).rt = d.rt := rfl
@[simp] theorem Dev.modPort_prot (d : Dev) (p : Nat) (f : PortSt → PortSt) : (d.modPort p f).prot = d.prot := rfl
@[simp] theorem Dev.modPort_homes (d : Dev) (p : Nat) (f : PortSt → PortSt) : (d.modPort p f).homes = d.homes := rfl
@[simp] theorem Dev.modPort_pool (d : Dev) (p : Nat) (f : PortSt → PortSt) : (d.modPort p f).pool = d.pool := rfl
@[simp] theorem Dev.modPort_req (d : Dev) (p : Nat) (f : PortSt → PortSt) : (d.modPort p f).req = d.req := rfl
@[simp] theorem Dev.modPort_relay (d : Dev) (p : Nat) (f : PortSt → PortSt) : (d.modPort p f).relay = d.relay := rfl
@[simp] theorem Dev.modPort_tiles (d : Dev) (p : Nat) (f : PortSt → PortSt) : (d.modPort p f).tiles = d.tiles := rfl
@[simp] theorem Dev.modPort_xlate (d : Dev) (p : Nat) (f : PortSt → PortSt) : (d.modPort p f).xlate = d.xlate := rfl
@[simp] theorem Dev.modPort_host (d : Dev) (p : Nat) (f : PortSt → PortSt) : (d.modPort p f).host = d.host := rfl
@[simp] theorem Dev.modPort_sec (d : Dev) (p : Nat) (f : PortSt → PortSt) : (d.modPort p f).sec = d.sec := rfl
@[simp] theorem Dev.modPort_faults (d : Dev) (p : Nat) (f : PortSt → PortSt) : (d.modPort p f).faults = d.faults := rfl
@[simp] theorem Dev.modPort_test (d : Dev) (p : Nat) (f : PortSt → PortSt) : (d.modPort p f).test = d.test := rfl
@[simp] theorem Dev.modPort_fw (d : Dev) (p : Nat) (f : PortSt → PortSt) : (d.modPort p f).fw = d.fw := rfl
@[simp] theorem Dev.modPort_flash (d : Dev) (p : Nat) (f : PortSt → PortSt) : (d.modPort p f).flash = d.flash := rfl

@[simp] theorem Dev.modKamro_wire (d : Dev) (k : Nat) (f : KamroSt → KamroSt) : (d.modKamro k f).wire = d.wire := rfl
@[simp] theorem Dev.modKamro_now (d : Dev) (k : Nat) (f : KamroSt → KamroSt) : (d.modKamro k f).now = d.now := rfl
@[simp] theorem Dev.modKamro_free (d : Dev) (k : Nat) (f : KamroSt → KamroSt) : (d.modKamro k f).free = d.free := rfl
@[simp] theorem Dev.modKamro_ident (d : Dev) (k : Nat) (f : KamroSt → KamroSt) : (d.modKamro k f).ident = d.ident := rfl
@[simp] theorem Dev.modKamro_power (d : Dev) (k : Nat) (f : KamroSt → KamroSt) : (d.modKamro k f).power = d.power := rfl
@[simp] theorem Dev.modKamro_ports (d : Dev) (k : Nat) (f : KamroSt → KamroSt) : (d.modKamro k f).ports = d.ports := rfl
@[simp] theorem Dev.modKamro_resvs (d : Dev) (k : Nat) (f : KamroSt → KamroSt) : (d.modKamro k f).resvs = d.resvs := rfl
@[simp] theorem Dev.modKamro_rt (d : Dev) (k : Nat) (f : KamroSt → KamroSt) : (d.modKamro k f).rt = d.rt := rfl
@[simp] theorem Dev.modKamro_prot (d : Dev) (k : Nat) (f : KamroSt → KamroSt) : (d.modKamro k f).prot = d.prot := rfl
@[simp] theorem Dev.modKamro_homes (d : Dev) (k : Nat) (f : KamroSt → KamroSt) : (d.modKamro k f).homes = d.homes := rfl
@[simp] theorem Dev.modKamro_pool (d : Dev) (k : Nat) (f : KamroSt → KamroSt) : (d.modKamro k f).pool = d.pool := rfl
@[simp] theorem Dev.modKamro_req (d : Dev) (k : Nat) (f : KamroSt → KamroSt) : (d.modKamro k f).req = d.req := rfl
@[simp] theorem Dev.modKamro_relay (d : Dev) (k : Nat) (f : KamroSt → KamroSt) : (d.modKamro k f).relay = d.relay := rfl
@[simp] theorem Dev.modKamro_tiles (d : Dev) (k : Nat) (f : KamroSt → KamroSt) : (d.modKamro k f).tiles = d.tiles := rfl
@[simp] theorem Dev.modKamro_xlate (d : Dev) (k : Nat) (f : KamroSt → KamroSt) : (d.modKamro k f).xlate = d.xlate := rfl
@[simp] theorem Dev.modKamro_host (d : Dev) (k : Nat) (f : KamroSt → KamroSt) : (d.modKamro k f).host = d.host := rfl
@[simp] theorem Dev.modKamro_sec (d : Dev) (k : Nat) (f : KamroSt → KamroSt) : (d.modKamro k f).sec = d.sec := rfl
@[simp] theorem Dev.modKamro_faults (d : Dev) (k : Nat) (f : KamroSt → KamroSt) : (d.modKamro k f).faults = d.faults := rfl
@[simp] theorem Dev.modKamro_test (d : Dev) (k : Nat) (f : KamroSt → KamroSt) : (d.modKamro k f).test = d.test := rfl
@[simp] theorem Dev.modKamro_fw (d : Dev) (k : Nat) (f : KamroSt → KamroSt) : (d.modKamro k f).fw = d.fw := rfl
@[simp] theorem Dev.modKamro_flash (d : Dev) (k : Nat) (f : KamroSt → KamroSt) : (d.modKamro k f).flash = d.flash := rfl

@[simp] theorem Dev.modQueue_wire (d : Dev) (p q : Nat) (f : OutQueue → OutQueue) : (d.modQueue p q f).wire = d.wire := rfl
@[simp] theorem Dev.modQueue_now (d : Dev) (p q : Nat) (f : OutQueue → OutQueue) : (d.modQueue p q f).now = d.now := rfl
@[simp] theorem Dev.modQueue_free (d : Dev) (p q : Nat) (f : OutQueue → OutQueue) : (d.modQueue p q f).free = d.free := rfl
@[simp] theorem Dev.modQueue_ident (d : Dev) (p q : Nat) (f : OutQueue → OutQueue) : (d.modQueue p q f).ident = d.ident := rfl
@[simp] theorem Dev.modQueue_power (d : Dev) (p q : Nat) (f : OutQueue → OutQueue) : (d.modQueue p q f).power = d.power := rfl
@[simp] theorem Dev.modQueue_ports (d : Dev) (p q : Nat) (f : OutQueue → OutQueue) : (d.modQueue p q f).ports = d.ports := rfl
@[simp] theorem Dev.modQueue_resvs (d : Dev) (p q : Nat) (f : OutQueue → OutQueue) : (d.modQueue p q f).resvs = d.resvs := rfl
@[simp] theorem Dev.modQueue_rt (d : Dev) (p q : Nat) (f : OutQueue → OutQueue) : (d.modQueue p q f).rt = d.rt := rfl
@[simp] theorem Dev.modQueue_prot (d : Dev) (p q : Nat) (f : OutQueue → OutQueue) : (d.modQueue p q f).prot = d.prot := rfl
@[simp] theorem Dev.modQueue_homes (d : Dev) (p q : Nat) (f : OutQueue → OutQueue) : (d.modQueue p q f).homes = d.homes := rfl
@[simp] theorem Dev.modQueue_pool (d : Dev) (p q : Nat) (f : OutQueue → OutQueue) : (d.modQueue p q f).pool = d.pool := rfl
@[simp] theorem Dev.modQueue_req (d : Dev) (p q : Nat) (f : OutQueue → OutQueue) : (d.modQueue p q f).req = d.req := rfl
@[simp] theorem Dev.modQueue_relay (d : Dev) (p q : Nat) (f : OutQueue → OutQueue) : (d.modQueue p q f).relay = d.relay := rfl
@[simp] theorem Dev.modQueue_tiles (d : Dev) (p q : Nat) (f : OutQueue → OutQueue) : (d.modQueue p q f).tiles = d.tiles := rfl
@[simp] theorem Dev.modQueue_xlate (d : Dev) (p q : Nat) (f : OutQueue → OutQueue) : (d.modQueue p q f).xlate = d.xlate := rfl
@[simp] theorem Dev.modQueue_host (d : Dev) (p q : Nat) (f : OutQueue → OutQueue) : (d.modQueue p q f).host = d.host := rfl
@[simp] theorem Dev.modQueue_sec (d : Dev) (p q : Nat) (f : OutQueue → OutQueue) : (d.modQueue p q f).sec = d.sec := rfl
@[simp] theorem Dev.modQueue_faults (d : Dev) (p q : Nat) (f : OutQueue → OutQueue) : (d.modQueue p q f).faults = d.faults := rfl
@[simp] theorem Dev.modQueue_test (d : Dev) (p q : Nat) (f : OutQueue → OutQueue) : (d.modQueue p q f).test = d.test := rfl
@[simp] theorem Dev.modQueue_fw (d : Dev) (p q : Nat) (f : OutQueue → OutQueue) : (d.modQueue p q f).fw = d.fw := rfl
@[simp] theorem Dev.modQueue_flash (d : Dev) (p q : Nat) (f : OutQueue → OutQueue) : (d.modQueue p q f).flash = d.flash := rfl

@[simp] theorem Dev.modHome_wire (d : Dev) (h : Nat) (f : Home → Home) : (d.modHome h f).wire = d.wire := rfl
@[simp] theorem Dev.modHome_now (d : Dev) (h : Nat) (f : Home → Home) : (d.modHome h f).now = d.now := rfl
@[simp] theorem Dev.modHome_free (d : Dev) (h : Nat) (f : Home → Home) : (d.modHome h f).free = d.free := rfl
@[simp] theorem Dev.modHome_ident (d : Dev) (h : Nat) (f : Home → Home) : (d.modHome h f).ident = d.ident := rfl
@[simp] theorem Dev.modHome_power (d : Dev) (h : Nat) (f : Home → Home) : (d.modHome h f).power = d.power := rfl
@[simp] theorem Dev.modHome_ports (d : Dev) (h : Nat) (f : Home → Home) : (d.modHome h f).ports = d.ports := rfl
@[simp] theorem Dev.modHome_sw (d : Dev) (h : Nat) (f : Home → Home) : (d.modHome h f).sw = d.sw := rfl
@[simp] theorem Dev.modHome_resvs (d : Dev) (h : Nat) (f : Home → Home) : (d.modHome h f).resvs = d.resvs := rfl
@[simp] theorem Dev.modHome_rt (d : Dev) (h : Nat) (f : Home → Home) : (d.modHome h f).rt = d.rt := rfl
@[simp] theorem Dev.modHome_prot (d : Dev) (h : Nat) (f : Home → Home) : (d.modHome h f).prot = d.prot := rfl
@[simp] theorem Dev.modHome_homes (d : Dev) (h : Nat) (f : Home → Home) : (d.modHome h f).homes = tmod d.homes h {} f := rfl
@[simp] theorem Dev.modHome_pool (d : Dev) (h : Nat) (f : Home → Home) : (d.modHome h f).pool = d.pool := rfl
@[simp] theorem Dev.modHome_req (d : Dev) (h : Nat) (f : Home → Home) : (d.modHome h f).req = d.req := rfl
@[simp] theorem Dev.modHome_relay (d : Dev) (h : Nat) (f : Home → Home) : (d.modHome h f).relay = d.relay := rfl
@[simp] theorem Dev.modHome_tiles (d : Dev) (h : Nat) (f : Home → Home) : (d.modHome h f).tiles = d.tiles := rfl
@[simp] theorem Dev.modHome_xlate (d : Dev) (h : Nat) (f : Home → Home) : (d.modHome h f).xlate = d.xlate := rfl
@[simp] theorem Dev.modHome_host (d : Dev) (h : Nat) (f : Home → Home) : (d.modHome h f).host = d.host := rfl
@[simp] theorem Dev.modHome_sec (d : Dev) (h : Nat) (f : Home → Home) : (d.modHome h f).sec = d.sec := rfl
@[simp] theorem Dev.modHome_faults (d : Dev) (h : Nat) (f : Home → Home) : (d.modHome h f).faults = d.faults := rfl
@[simp] theorem Dev.modHome_test (d : Dev) (h : Nat) (f : Home → Home) : (d.modHome h f).test = d.test := rfl
@[simp] theorem Dev.modHome_fw (d : Dev) (h : Nat) (f : Home → Home) : (d.modHome h f).fw = d.fw := rfl
@[simp] theorem Dev.modHome_flash (d : Dev) (h : Nat) (f : Home → Home) : (d.modHome h f).flash = d.flash := rfl

@[simp] theorem Dev.modPool_wire (d : Dev) (f : PoolSt → PoolSt) : (d.modPool f).wire = d.wire := rfl
@[simp] theorem Dev.modPool_now (d : Dev) (f : PoolSt → PoolSt) : (d.modPool f).now = d.now := rfl
@[simp] theorem Dev.modPool_free (d : Dev) (f : PoolSt → PoolSt) : (d.modPool f).free = d.free := rfl
@[simp] theorem Dev.modPool_ident (d : Dev) (f : PoolSt → PoolSt) : (d.modPool f).ident = d.ident := rfl
@[simp] theorem Dev.modPool_power (d : Dev) (f : PoolSt → PoolSt) : (d.modPool f).power = d.power := rfl
@[simp] theorem Dev.modPool_ports (d : Dev) (f : PoolSt → PoolSt) : (d.modPool f).ports = d.ports := rfl
@[simp] theorem Dev.modPool_sw (d : Dev) (f : PoolSt → PoolSt) : (d.modPool f).sw = d.sw := rfl
@[simp] theorem Dev.modPool_resvs (d : Dev) (f : PoolSt → PoolSt) : (d.modPool f).resvs = d.resvs := rfl
@[simp] theorem Dev.modPool_rt (d : Dev) (f : PoolSt → PoolSt) : (d.modPool f).rt = d.rt := rfl
@[simp] theorem Dev.modPool_prot (d : Dev) (f : PoolSt → PoolSt) : (d.modPool f).prot = d.prot := rfl
@[simp] theorem Dev.modPool_homes (d : Dev) (f : PoolSt → PoolSt) : (d.modPool f).homes = d.homes := rfl
@[simp] theorem Dev.modPool_pool (d : Dev) (f : PoolSt → PoolSt) : (d.modPool f).pool = f d.pool := rfl
@[simp] theorem Dev.modPool_req (d : Dev) (f : PoolSt → PoolSt) : (d.modPool f).req = d.req := rfl
@[simp] theorem Dev.modPool_relay (d : Dev) (f : PoolSt → PoolSt) : (d.modPool f).relay = d.relay := rfl
@[simp] theorem Dev.modPool_tiles (d : Dev) (f : PoolSt → PoolSt) : (d.modPool f).tiles = d.tiles := rfl
@[simp] theorem Dev.modPool_xlate (d : Dev) (f : PoolSt → PoolSt) : (d.modPool f).xlate = d.xlate := rfl
@[simp] theorem Dev.modPool_host (d : Dev) (f : PoolSt → PoolSt) : (d.modPool f).host = d.host := rfl
@[simp] theorem Dev.modPool_sec (d : Dev) (f : PoolSt → PoolSt) : (d.modPool f).sec = d.sec := rfl
@[simp] theorem Dev.modPool_faults (d : Dev) (f : PoolSt → PoolSt) : (d.modPool f).faults = d.faults := rfl
@[simp] theorem Dev.modPool_test (d : Dev) (f : PoolSt → PoolSt) : (d.modPool f).test = d.test := rfl
@[simp] theorem Dev.modPool_fw (d : Dev) (f : PoolSt → PoolSt) : (d.modPool f).fw = d.fw := rfl
@[simp] theorem Dev.modPool_flash (d : Dev) (f : PoolSt → PoolSt) : (d.modPool f).flash = d.flash := rfl

@[simp] theorem Dev.modRegion_wire (d : Dev) (r : Nat) (f : Region → Region) : (d.modRegion r f).wire = d.wire := rfl
@[simp] theorem Dev.modRegion_now (d : Dev) (r : Nat) (f : Region → Region) : (d.modRegion r f).now = d.now := rfl
@[simp] theorem Dev.modRegion_free (d : Dev) (r : Nat) (f : Region → Region) : (d.modRegion r f).free = d.free := rfl
@[simp] theorem Dev.modRegion_ident (d : Dev) (r : Nat) (f : Region → Region) : (d.modRegion r f).ident = d.ident := rfl
@[simp] theorem Dev.modRegion_power (d : Dev) (r : Nat) (f : Region → Region) : (d.modRegion r f).power = d.power := rfl
@[simp] theorem Dev.modRegion_ports (d : Dev) (r : Nat) (f : Region → Region) : (d.modRegion r f).ports = d.ports := rfl
@[simp] theorem Dev.modRegion_sw (d : Dev) (r : Nat) (f : Region → Region) : (d.modRegion r f).sw = d.sw := rfl
@[simp] theorem Dev.modRegion_resvs (d : Dev) (r : Nat) (f : Region → Region) : (d.modRegion r f).resvs = d.resvs := rfl
@[simp] theorem Dev.modRegion_rt (d : Dev) (r : Nat) (f : Region → Region) : (d.modRegion r f).rt = d.rt := rfl
@[simp] theorem Dev.modRegion_homes (d : Dev) (r : Nat) (f : Region → Region) : (d.modRegion r f).homes = d.homes := rfl
@[simp] theorem Dev.modRegion_pool (d : Dev) (r : Nat) (f : Region → Region) : (d.modRegion r f).pool = d.pool := rfl
@[simp] theorem Dev.modRegion_req (d : Dev) (r : Nat) (f : Region → Region) : (d.modRegion r f).req = d.req := rfl
@[simp] theorem Dev.modRegion_relay (d : Dev) (r : Nat) (f : Region → Region) : (d.modRegion r f).relay = d.relay := rfl
@[simp] theorem Dev.modRegion_tiles (d : Dev) (r : Nat) (f : Region → Region) : (d.modRegion r f).tiles = d.tiles := rfl
@[simp] theorem Dev.modRegion_xlate (d : Dev) (r : Nat) (f : Region → Region) : (d.modRegion r f).xlate = d.xlate := rfl
@[simp] theorem Dev.modRegion_host (d : Dev) (r : Nat) (f : Region → Region) : (d.modRegion r f).host = d.host := rfl
@[simp] theorem Dev.modRegion_sec (d : Dev) (r : Nat) (f : Region → Region) : (d.modRegion r f).sec = d.sec := rfl
@[simp] theorem Dev.modRegion_faults (d : Dev) (r : Nat) (f : Region → Region) : (d.modRegion r f).faults = d.faults := rfl
@[simp] theorem Dev.modRegion_test (d : Dev) (r : Nat) (f : Region → Region) : (d.modRegion r f).test = d.test := rfl
@[simp] theorem Dev.modRegion_fw (d : Dev) (r : Nat) (f : Region → Region) : (d.modRegion r f).fw = d.fw := rfl
@[simp] theorem Dev.modRegion_flash (d : Dev) (r : Nat) (f : Region → Region) : (d.modRegion r f).flash = d.flash := rfl

@[simp] theorem Dev.modSlice_wire (d : Dev) (i : Nat) (f : SliceSt → SliceSt) : (d.modSlice i f).wire = d.wire := rfl
@[simp] theorem Dev.modSlice_now (d : Dev) (i : Nat) (f : SliceSt → SliceSt) : (d.modSlice i f).now = d.now := rfl
@[simp] theorem Dev.modSlice_free (d : Dev) (i : Nat) (f : SliceSt → SliceSt) : (d.modSlice i f).free = d.free := rfl
@[simp] theorem Dev.modSlice_ident (d : Dev) (i : Nat) (f : SliceSt → SliceSt) : (d.modSlice i f).ident = d.ident := rfl
@[simp] theorem Dev.modSlice_power (d : Dev) (i : Nat) (f : SliceSt → SliceSt) : (d.modSlice i f).power = d.power := rfl
@[simp] theorem Dev.modSlice_ports (d : Dev) (i : Nat) (f : SliceSt → SliceSt) : (d.modSlice i f).ports = d.ports := rfl
@[simp] theorem Dev.modSlice_sw (d : Dev) (i : Nat) (f : SliceSt → SliceSt) : (d.modSlice i f).sw = d.sw := rfl
@[simp] theorem Dev.modSlice_resvs (d : Dev) (i : Nat) (f : SliceSt → SliceSt) : (d.modSlice i f).resvs = d.resvs := rfl
@[simp] theorem Dev.modSlice_rt (d : Dev) (i : Nat) (f : SliceSt → SliceSt) : (d.modSlice i f).rt = d.rt := rfl
@[simp] theorem Dev.modSlice_homes (d : Dev) (i : Nat) (f : SliceSt → SliceSt) : (d.modSlice i f).homes = d.homes := rfl
@[simp] theorem Dev.modSlice_pool (d : Dev) (i : Nat) (f : SliceSt → SliceSt) : (d.modSlice i f).pool = d.pool := rfl
@[simp] theorem Dev.modSlice_req (d : Dev) (i : Nat) (f : SliceSt → SliceSt) : (d.modSlice i f).req = d.req := rfl
@[simp] theorem Dev.modSlice_relay (d : Dev) (i : Nat) (f : SliceSt → SliceSt) : (d.modSlice i f).relay = d.relay := rfl
@[simp] theorem Dev.modSlice_tiles (d : Dev) (i : Nat) (f : SliceSt → SliceSt) : (d.modSlice i f).tiles = d.tiles := rfl
@[simp] theorem Dev.modSlice_xlate (d : Dev) (i : Nat) (f : SliceSt → SliceSt) : (d.modSlice i f).xlate = d.xlate := rfl
@[simp] theorem Dev.modSlice_host (d : Dev) (i : Nat) (f : SliceSt → SliceSt) : (d.modSlice i f).host = d.host := rfl
@[simp] theorem Dev.modSlice_sec (d : Dev) (i : Nat) (f : SliceSt → SliceSt) : (d.modSlice i f).sec = d.sec := rfl
@[simp] theorem Dev.modSlice_faults (d : Dev) (i : Nat) (f : SliceSt → SliceSt) : (d.modSlice i f).faults = d.faults := rfl
@[simp] theorem Dev.modSlice_test (d : Dev) (i : Nat) (f : SliceSt → SliceSt) : (d.modSlice i f).test = d.test := rfl
@[simp] theorem Dev.modSlice_fw (d : Dev) (i : Nat) (f : SliceSt → SliceSt) : (d.modSlice i f).fw = d.fw := rfl
@[simp] theorem Dev.modSlice_flash (d : Dev) (i : Nat) (f : SliceSt → SliceSt) : (d.modSlice i f).flash = d.flash := rfl

@[simp] theorem Dev.modResv_wire (d : Dev) (r : Nat) (f : Resv → Resv) : (d.modResv r f).wire = d.wire := rfl
@[simp] theorem Dev.modResv_now (d : Dev) (r : Nat) (f : Resv → Resv) : (d.modResv r f).now = d.now := rfl
@[simp] theorem Dev.modResv_free (d : Dev) (r : Nat) (f : Resv → Resv) : (d.modResv r f).free = d.free := rfl
@[simp] theorem Dev.modResv_ident (d : Dev) (r : Nat) (f : Resv → Resv) : (d.modResv r f).ident = d.ident := rfl
@[simp] theorem Dev.modResv_power (d : Dev) (r : Nat) (f : Resv → Resv) : (d.modResv r f).power = d.power := rfl
@[simp] theorem Dev.modResv_ports (d : Dev) (r : Nat) (f : Resv → Resv) : (d.modResv r f).ports = d.ports := rfl
@[simp] theorem Dev.modResv_sw (d : Dev) (r : Nat) (f : Resv → Resv) : (d.modResv r f).sw = d.sw := rfl
@[simp] theorem Dev.modResv_resvs (d : Dev) (r : Nat) (f : Resv → Resv) : (d.modResv r f).resvs = tmod d.resvs r {} f := rfl
@[simp] theorem Dev.modResv_rt (d : Dev) (r : Nat) (f : Resv → Resv) : (d.modResv r f).rt = d.rt := rfl
@[simp] theorem Dev.modResv_prot (d : Dev) (r : Nat) (f : Resv → Resv) : (d.modResv r f).prot = d.prot := rfl
@[simp] theorem Dev.modResv_homes (d : Dev) (r : Nat) (f : Resv → Resv) : (d.modResv r f).homes = d.homes := rfl
@[simp] theorem Dev.modResv_pool (d : Dev) (r : Nat) (f : Resv → Resv) : (d.modResv r f).pool = d.pool := rfl
@[simp] theorem Dev.modResv_req (d : Dev) (r : Nat) (f : Resv → Resv) : (d.modResv r f).req = d.req := rfl
@[simp] theorem Dev.modResv_relay (d : Dev) (r : Nat) (f : Resv → Resv) : (d.modResv r f).relay = d.relay := rfl
@[simp] theorem Dev.modResv_tiles (d : Dev) (r : Nat) (f : Resv → Resv) : (d.modResv r f).tiles = d.tiles := rfl
@[simp] theorem Dev.modResv_xlate (d : Dev) (r : Nat) (f : Resv → Resv) : (d.modResv r f).xlate = d.xlate := rfl
@[simp] theorem Dev.modResv_host (d : Dev) (r : Nat) (f : Resv → Resv) : (d.modResv r f).host = d.host := rfl
@[simp] theorem Dev.modResv_sec (d : Dev) (r : Nat) (f : Resv → Resv) : (d.modResv r f).sec = d.sec := rfl
@[simp] theorem Dev.modResv_faults (d : Dev) (r : Nat) (f : Resv → Resv) : (d.modResv r f).faults = d.faults := rfl
@[simp] theorem Dev.modResv_test (d : Dev) (r : Nat) (f : Resv → Resv) : (d.modResv r f).test = d.test := rfl
@[simp] theorem Dev.modResv_fw (d : Dev) (r : Nat) (f : Resv → Resv) : (d.modResv r f).fw = d.fw := rfl
@[simp] theorem Dev.modResv_flash (d : Dev) (r : Nat) (f : Resv → Resv) : (d.modResv r f).flash = d.flash := rfl

@[simp] theorem Dev.modGroup_wire (d : Dev) (g : Nat) (f : Group → Group) : (d.modGroup g f).wire = d.wire := rfl
@[simp] theorem Dev.modGroup_now (d : Dev) (g : Nat) (f : Group → Group) : (d.modGroup g f).now = d.now := rfl
@[simp] theorem Dev.modGroup_free (d : Dev) (g : Nat) (f : Group → Group) : (d.modGroup g f).free = d.free := rfl
@[simp] theorem Dev.modGroup_ident (d : Dev) (g : Nat) (f : Group → Group) : (d.modGroup g f).ident = d.ident := rfl
@[simp] theorem Dev.modGroup_power (d : Dev) (g : Nat) (f : Group → Group) : (d.modGroup g f).power = d.power := rfl
@[simp] theorem Dev.modGroup_ports (d : Dev) (g : Nat) (f : Group → Group) : (d.modGroup g f).ports = d.ports := rfl
@[simp] theorem Dev.modGroup_sw (d : Dev) (g : Nat) (f : Group → Group) : (d.modGroup g f).sw = d.sw := rfl
@[simp] theorem Dev.modGroup_resvs (d : Dev) (g : Nat) (f : Group → Group) : (d.modGroup g f).resvs = d.resvs := rfl
@[simp] theorem Dev.modGroup_rt (d : Dev) (g : Nat) (f : Group → Group) : (d.modGroup g f).rt = d.rt := rfl
@[simp] theorem Dev.modGroup_prot (d : Dev) (g : Nat) (f : Group → Group) : (d.modGroup g f).prot = d.prot := rfl
@[simp] theorem Dev.modGroup_homes (d : Dev) (g : Nat) (f : Group → Group) : (d.modGroup g f).homes = d.homes := rfl
@[simp] theorem Dev.modGroup_pool (d : Dev) (g : Nat) (f : Group → Group) : (d.modGroup g f).pool = d.pool := rfl
@[simp] theorem Dev.modGroup_req (d : Dev) (g : Nat) (f : Group → Group) : (d.modGroup g f).req = d.req := rfl
@[simp] theorem Dev.modGroup_tiles (d : Dev) (g : Nat) (f : Group → Group) : (d.modGroup g f).tiles = d.tiles := rfl
@[simp] theorem Dev.modGroup_xlate (d : Dev) (g : Nat) (f : Group → Group) : (d.modGroup g f).xlate = d.xlate := rfl
@[simp] theorem Dev.modGroup_host (d : Dev) (g : Nat) (f : Group → Group) : (d.modGroup g f).host = d.host := rfl
@[simp] theorem Dev.modGroup_sec (d : Dev) (g : Nat) (f : Group → Group) : (d.modGroup g f).sec = d.sec := rfl
@[simp] theorem Dev.modGroup_faults (d : Dev) (g : Nat) (f : Group → Group) : (d.modGroup g f).faults = d.faults := rfl
@[simp] theorem Dev.modGroup_test (d : Dev) (g : Nat) (f : Group → Group) : (d.modGroup g f).test = d.test := rfl
@[simp] theorem Dev.modGroup_fw (d : Dev) (g : Nat) (f : Group → Group) : (d.modGroup g f).fw = d.fw := rfl
@[simp] theorem Dev.modGroup_flash (d : Dev) (g : Nat) (f : Group → Group) : (d.modGroup g f).flash = d.flash := rfl

@[simp] theorem Dev.modPos_wire (d : Dev) (i : Nat) (f : PosSt → PosSt) : (d.modPos i f).wire = d.wire := rfl
@[simp] theorem Dev.modPos_now (d : Dev) (i : Nat) (f : PosSt → PosSt) : (d.modPos i f).now = d.now := rfl
@[simp] theorem Dev.modPos_free (d : Dev) (i : Nat) (f : PosSt → PosSt) : (d.modPos i f).free = d.free := rfl
@[simp] theorem Dev.modPos_ident (d : Dev) (i : Nat) (f : PosSt → PosSt) : (d.modPos i f).ident = d.ident := rfl
@[simp] theorem Dev.modPos_power (d : Dev) (i : Nat) (f : PosSt → PosSt) : (d.modPos i f).power = d.power := rfl
@[simp] theorem Dev.modPos_ports (d : Dev) (i : Nat) (f : PosSt → PosSt) : (d.modPos i f).ports = d.ports := rfl
@[simp] theorem Dev.modPos_sw (d : Dev) (i : Nat) (f : PosSt → PosSt) : (d.modPos i f).sw = d.sw := rfl
@[simp] theorem Dev.modPos_resvs (d : Dev) (i : Nat) (f : PosSt → PosSt) : (d.modPos i f).resvs = d.resvs := rfl
@[simp] theorem Dev.modPos_rt (d : Dev) (i : Nat) (f : PosSt → PosSt) : (d.modPos i f).rt = d.rt := rfl
@[simp] theorem Dev.modPos_prot (d : Dev) (i : Nat) (f : PosSt → PosSt) : (d.modPos i f).prot = d.prot := rfl
@[simp] theorem Dev.modPos_homes (d : Dev) (i : Nat) (f : PosSt → PosSt) : (d.modPos i f).homes = d.homes := rfl
@[simp] theorem Dev.modPos_pool (d : Dev) (i : Nat) (f : PosSt → PosSt) : (d.modPos i f).pool = d.pool := rfl
@[simp] theorem Dev.modPos_req (d : Dev) (i : Nat) (f : PosSt → PosSt) : (d.modPos i f).req = d.req := rfl
@[simp] theorem Dev.modPos_relay (d : Dev) (i : Nat) (f : PosSt → PosSt) : (d.modPos i f).relay = d.relay := rfl
@[simp] theorem Dev.modPos_xlate (d : Dev) (i : Nat) (f : PosSt → PosSt) : (d.modPos i f).xlate = d.xlate := rfl
@[simp] theorem Dev.modPos_host (d : Dev) (i : Nat) (f : PosSt → PosSt) : (d.modPos i f).host = d.host := rfl
@[simp] theorem Dev.modPos_sec (d : Dev) (i : Nat) (f : PosSt → PosSt) : (d.modPos i f).sec = d.sec := rfl
@[simp] theorem Dev.modPos_faults (d : Dev) (i : Nat) (f : PosSt → PosSt) : (d.modPos i f).faults = d.faults := rfl
@[simp] theorem Dev.modPos_test (d : Dev) (i : Nat) (f : PosSt → PosSt) : (d.modPos i f).test = d.test := rfl
@[simp] theorem Dev.modPos_fw (d : Dev) (i : Nat) (f : PosSt → PosSt) : (d.modPos i f).fw = d.fw := rfl
@[simp] theorem Dev.modPos_flash (d : Dev) (i : Nat) (f : PosSt → PosSt) : (d.modPos i f).flash = d.flash := rfl

@[simp] theorem Dev.modPipe_wire (d : Dev) (i : Nat) (f : PipeSt → PipeSt) : (d.modPipe i f).wire = d.wire := rfl
@[simp] theorem Dev.modPipe_now (d : Dev) (i : Nat) (f : PipeSt → PipeSt) : (d.modPipe i f).now = d.now := rfl
@[simp] theorem Dev.modPipe_free (d : Dev) (i : Nat) (f : PipeSt → PipeSt) : (d.modPipe i f).free = d.free := rfl
@[simp] theorem Dev.modPipe_ident (d : Dev) (i : Nat) (f : PipeSt → PipeSt) : (d.modPipe i f).ident = d.ident := rfl
@[simp] theorem Dev.modPipe_power (d : Dev) (i : Nat) (f : PipeSt → PipeSt) : (d.modPipe i f).power = d.power := rfl
@[simp] theorem Dev.modPipe_ports (d : Dev) (i : Nat) (f : PipeSt → PipeSt) : (d.modPipe i f).ports = d.ports := rfl
@[simp] theorem Dev.modPipe_sw (d : Dev) (i : Nat) (f : PipeSt → PipeSt) : (d.modPipe i f).sw = d.sw := rfl
@[simp] theorem Dev.modPipe_resvs (d : Dev) (i : Nat) (f : PipeSt → PipeSt) : (d.modPipe i f).resvs = d.resvs := rfl
@[simp] theorem Dev.modPipe_rt (d : Dev) (i : Nat) (f : PipeSt → PipeSt) : (d.modPipe i f).rt = d.rt := rfl
@[simp] theorem Dev.modPipe_prot (d : Dev) (i : Nat) (f : PipeSt → PipeSt) : (d.modPipe i f).prot = d.prot := rfl
@[simp] theorem Dev.modPipe_homes (d : Dev) (i : Nat) (f : PipeSt → PipeSt) : (d.modPipe i f).homes = d.homes := rfl
@[simp] theorem Dev.modPipe_pool (d : Dev) (i : Nat) (f : PipeSt → PipeSt) : (d.modPipe i f).pool = d.pool := rfl
@[simp] theorem Dev.modPipe_req (d : Dev) (i : Nat) (f : PipeSt → PipeSt) : (d.modPipe i f).req = d.req := rfl
@[simp] theorem Dev.modPipe_relay (d : Dev) (i : Nat) (f : PipeSt → PipeSt) : (d.modPipe i f).relay = d.relay := rfl
@[simp] theorem Dev.modPipe_xlate (d : Dev) (i : Nat) (f : PipeSt → PipeSt) : (d.modPipe i f).xlate = d.xlate := rfl
@[simp] theorem Dev.modPipe_host (d : Dev) (i : Nat) (f : PipeSt → PipeSt) : (d.modPipe i f).host = d.host := rfl
@[simp] theorem Dev.modPipe_sec (d : Dev) (i : Nat) (f : PipeSt → PipeSt) : (d.modPipe i f).sec = d.sec := rfl
@[simp] theorem Dev.modPipe_faults (d : Dev) (i : Nat) (f : PipeSt → PipeSt) : (d.modPipe i f).faults = d.faults := rfl
@[simp] theorem Dev.modPipe_test (d : Dev) (i : Nat) (f : PipeSt → PipeSt) : (d.modPipe i f).test = d.test := rfl
@[simp] theorem Dev.modPipe_fw (d : Dev) (i : Nat) (f : PipeSt → PipeSt) : (d.modPipe i f).fw = d.fw := rfl
@[simp] theorem Dev.modPipe_flash (d : Dev) (i : Nat) (f : PipeSt → PipeSt) : (d.modPipe i f).flash = d.flash := rfl

@[simp] theorem Dev.modRing_wire (d : Dev) (r : Nat) (f : Ring → Ring) : (d.modRing r f).wire = d.wire := rfl
@[simp] theorem Dev.modRing_now (d : Dev) (r : Nat) (f : Ring → Ring) : (d.modRing r f).now = d.now := rfl
@[simp] theorem Dev.modRing_free (d : Dev) (r : Nat) (f : Ring → Ring) : (d.modRing r f).free = d.free := rfl
@[simp] theorem Dev.modRing_ident (d : Dev) (r : Nat) (f : Ring → Ring) : (d.modRing r f).ident = d.ident := rfl
@[simp] theorem Dev.modRing_power (d : Dev) (r : Nat) (f : Ring → Ring) : (d.modRing r f).power = d.power := rfl
@[simp] theorem Dev.modRing_ports (d : Dev) (r : Nat) (f : Ring → Ring) : (d.modRing r f).ports = d.ports := rfl
@[simp] theorem Dev.modRing_sw (d : Dev) (r : Nat) (f : Ring → Ring) : (d.modRing r f).sw = d.sw := rfl
@[simp] theorem Dev.modRing_resvs (d : Dev) (r : Nat) (f : Ring → Ring) : (d.modRing r f).resvs = d.resvs := rfl
@[simp] theorem Dev.modRing_rt (d : Dev) (r : Nat) (f : Ring → Ring) : (d.modRing r f).rt = d.rt := rfl
@[simp] theorem Dev.modRing_prot (d : Dev) (r : Nat) (f : Ring → Ring) : (d.modRing r f).prot = d.prot := rfl
@[simp] theorem Dev.modRing_homes (d : Dev) (r : Nat) (f : Ring → Ring) : (d.modRing r f).homes = d.homes := rfl
@[simp] theorem Dev.modRing_pool (d : Dev) (r : Nat) (f : Ring → Ring) : (d.modRing r f).pool = d.pool := rfl
@[simp] theorem Dev.modRing_req (d : Dev) (r : Nat) (f : Ring → Ring) : (d.modRing r f).req = d.req := rfl
@[simp] theorem Dev.modRing_relay (d : Dev) (r : Nat) (f : Ring → Ring) : (d.modRing r f).relay = d.relay := rfl
@[simp] theorem Dev.modRing_tiles (d : Dev) (r : Nat) (f : Ring → Ring) : (d.modRing r f).tiles = d.tiles := rfl
@[simp] theorem Dev.modRing_xlate (d : Dev) (r : Nat) (f : Ring → Ring) : (d.modRing r f).xlate = d.xlate := rfl
@[simp] theorem Dev.modRing_sec (d : Dev) (r : Nat) (f : Ring → Ring) : (d.modRing r f).sec = d.sec := rfl
@[simp] theorem Dev.modRing_faults (d : Dev) (r : Nat) (f : Ring → Ring) : (d.modRing r f).faults = d.faults := rfl
@[simp] theorem Dev.modRing_test (d : Dev) (r : Nat) (f : Ring → Ring) : (d.modRing r f).test = d.test := rfl
@[simp] theorem Dev.modRing_fw (d : Dev) (r : Nat) (f : Ring → Ring) : (d.modRing r f).fw = d.fw := rfl
@[simp] theorem Dev.modRing_flash (d : Dev) (r : Nat) (f : Ring → Ring) : (d.modRing r f).flash = d.flash := rfl

@[simp] theorem Dev.modWindow_wire (d : Dev) (w : Nat) (f : Window → Window) : (d.modWindow w f).wire = d.wire := rfl
@[simp] theorem Dev.modWindow_now (d : Dev) (w : Nat) (f : Window → Window) : (d.modWindow w f).now = d.now := rfl
@[simp] theorem Dev.modWindow_free (d : Dev) (w : Nat) (f : Window → Window) : (d.modWindow w f).free = d.free := rfl
@[simp] theorem Dev.modWindow_ident (d : Dev) (w : Nat) (f : Window → Window) : (d.modWindow w f).ident = d.ident := rfl
@[simp] theorem Dev.modWindow_power (d : Dev) (w : Nat) (f : Window → Window) : (d.modWindow w f).power = d.power := rfl
@[simp] theorem Dev.modWindow_ports (d : Dev) (w : Nat) (f : Window → Window) : (d.modWindow w f).ports = d.ports := rfl
@[simp] theorem Dev.modWindow_sw (d : Dev) (w : Nat) (f : Window → Window) : (d.modWindow w f).sw = d.sw := rfl
@[simp] theorem Dev.modWindow_resvs (d : Dev) (w : Nat) (f : Window → Window) : (d.modWindow w f).resvs = d.resvs := rfl
@[simp] theorem Dev.modWindow_rt (d : Dev) (w : Nat) (f : Window → Window) : (d.modWindow w f).rt = d.rt := rfl
@[simp] theorem Dev.modWindow_prot (d : Dev) (w : Nat) (f : Window → Window) : (d.modWindow w f).prot = d.prot := rfl
@[simp] theorem Dev.modWindow_homes (d : Dev) (w : Nat) (f : Window → Window) : (d.modWindow w f).homes = d.homes := rfl
@[simp] theorem Dev.modWindow_pool (d : Dev) (w : Nat) (f : Window → Window) : (d.modWindow w f).pool = d.pool := rfl
@[simp] theorem Dev.modWindow_req (d : Dev) (w : Nat) (f : Window → Window) : (d.modWindow w f).req = d.req := rfl
@[simp] theorem Dev.modWindow_relay (d : Dev) (w : Nat) (f : Window → Window) : (d.modWindow w f).relay = d.relay := rfl
@[simp] theorem Dev.modWindow_tiles (d : Dev) (w : Nat) (f : Window → Window) : (d.modWindow w f).tiles = d.tiles := rfl
@[simp] theorem Dev.modWindow_xlate (d : Dev) (w : Nat) (f : Window → Window) : (d.modWindow w f).xlate = d.xlate := rfl
@[simp] theorem Dev.modWindow_sec (d : Dev) (w : Nat) (f : Window → Window) : (d.modWindow w f).sec = d.sec := rfl
@[simp] theorem Dev.modWindow_faults (d : Dev) (w : Nat) (f : Window → Window) : (d.modWindow w f).faults = d.faults := rfl
@[simp] theorem Dev.modWindow_test (d : Dev) (w : Nat) (f : Window → Window) : (d.modWindow w f).test = d.test := rfl
@[simp] theorem Dev.modWindow_fw (d : Dev) (w : Nat) (f : Window → Window) : (d.modWindow w f).fw = d.fw := rfl
@[simp] theorem Dev.modWindow_flash (d : Dev) (w : Nat) (f : Window → Window) : (d.modWindow w f).flash = d.flash := rfl

@[simp] theorem Dev.modPerturb_wire (d : Dev) (i : Nat) (f : Perturb → Perturb) : (d.modPerturb i f).wire = d.wire := rfl
@[simp] theorem Dev.modPerturb_now (d : Dev) (i : Nat) (f : Perturb → Perturb) : (d.modPerturb i f).now = d.now := rfl
@[simp] theorem Dev.modPerturb_free (d : Dev) (i : Nat) (f : Perturb → Perturb) : (d.modPerturb i f).free = d.free := rfl
@[simp] theorem Dev.modPerturb_ident (d : Dev) (i : Nat) (f : Perturb → Perturb) : (d.modPerturb i f).ident = d.ident := rfl
@[simp] theorem Dev.modPerturb_power (d : Dev) (i : Nat) (f : Perturb → Perturb) : (d.modPerturb i f).power = d.power := rfl
@[simp] theorem Dev.modPerturb_ports (d : Dev) (i : Nat) (f : Perturb → Perturb) : (d.modPerturb i f).ports = d.ports := rfl
@[simp] theorem Dev.modPerturb_sw (d : Dev) (i : Nat) (f : Perturb → Perturb) : (d.modPerturb i f).sw = d.sw := rfl
@[simp] theorem Dev.modPerturb_resvs (d : Dev) (i : Nat) (f : Perturb → Perturb) : (d.modPerturb i f).resvs = d.resvs := rfl
@[simp] theorem Dev.modPerturb_rt (d : Dev) (i : Nat) (f : Perturb → Perturb) : (d.modPerturb i f).rt = d.rt := rfl
@[simp] theorem Dev.modPerturb_prot (d : Dev) (i : Nat) (f : Perturb → Perturb) : (d.modPerturb i f).prot = d.prot := rfl
@[simp] theorem Dev.modPerturb_homes (d : Dev) (i : Nat) (f : Perturb → Perturb) : (d.modPerturb i f).homes = d.homes := rfl
@[simp] theorem Dev.modPerturb_pool (d : Dev) (i : Nat) (f : Perturb → Perturb) : (d.modPerturb i f).pool = d.pool := rfl
@[simp] theorem Dev.modPerturb_req (d : Dev) (i : Nat) (f : Perturb → Perturb) : (d.modPerturb i f).req = d.req := rfl
@[simp] theorem Dev.modPerturb_relay (d : Dev) (i : Nat) (f : Perturb → Perturb) : (d.modPerturb i f).relay = d.relay := rfl
@[simp] theorem Dev.modPerturb_tiles (d : Dev) (i : Nat) (f : Perturb → Perturb) : (d.modPerturb i f).tiles = d.tiles := rfl
@[simp] theorem Dev.modPerturb_xlate (d : Dev) (i : Nat) (f : Perturb → Perturb) : (d.modPerturb i f).xlate = d.xlate := rfl
@[simp] theorem Dev.modPerturb_host (d : Dev) (i : Nat) (f : Perturb → Perturb) : (d.modPerturb i f).host = d.host := rfl
@[simp] theorem Dev.modPerturb_sec (d : Dev) (i : Nat) (f : Perturb → Perturb) : (d.modPerturb i f).sec = d.sec := rfl
@[simp] theorem Dev.modPerturb_faults (d : Dev) (i : Nat) (f : Perturb → Perturb) : (d.modPerturb i f).faults = d.faults := rfl
@[simp] theorem Dev.modPerturb_fw (d : Dev) (i : Nat) (f : Perturb → Perturb) : (d.modPerturb i f).fw = d.fw := rfl
@[simp] theorem Dev.modPerturb_flash (d : Dev) (i : Nat) (f : Perturb → Perturb) : (d.modPerturb i f).flash = d.flash := rfl

@[simp] theorem Dev.modWait_wire (d : Dev) (i : Nat) (f : WaitReply → WaitReply) : (d.modWait i f).wire = d.wire := rfl
@[simp] theorem Dev.modWait_now (d : Dev) (i : Nat) (f : WaitReply → WaitReply) : (d.modWait i f).now = d.now := rfl
@[simp] theorem Dev.modWait_free (d : Dev) (i : Nat) (f : WaitReply → WaitReply) : (d.modWait i f).free = d.free := rfl
@[simp] theorem Dev.modWait_ident (d : Dev) (i : Nat) (f : WaitReply → WaitReply) : (d.modWait i f).ident = d.ident := rfl
@[simp] theorem Dev.modWait_power (d : Dev) (i : Nat) (f : WaitReply → WaitReply) : (d.modWait i f).power = d.power := rfl
@[simp] theorem Dev.modWait_ports (d : Dev) (i : Nat) (f : WaitReply → WaitReply) : (d.modWait i f).ports = d.ports := rfl
@[simp] theorem Dev.modWait_sw (d : Dev) (i : Nat) (f : WaitReply → WaitReply) : (d.modWait i f).sw = d.sw := rfl
@[simp] theorem Dev.modWait_resvs (d : Dev) (i : Nat) (f : WaitReply → WaitReply) : (d.modWait i f).resvs = d.resvs := rfl
@[simp] theorem Dev.modWait_rt (d : Dev) (i : Nat) (f : WaitReply → WaitReply) : (d.modWait i f).rt = d.rt := rfl
@[simp] theorem Dev.modWait_prot (d : Dev) (i : Nat) (f : WaitReply → WaitReply) : (d.modWait i f).prot = d.prot := rfl
@[simp] theorem Dev.modWait_homes (d : Dev) (i : Nat) (f : WaitReply → WaitReply) : (d.modWait i f).homes = d.homes := rfl
@[simp] theorem Dev.modWait_pool (d : Dev) (i : Nat) (f : WaitReply → WaitReply) : (d.modWait i f).pool = d.pool := rfl
@[simp] theorem Dev.modWait_req (d : Dev) (i : Nat) (f : WaitReply → WaitReply) : (d.modWait i f).req = d.req := rfl
@[simp] theorem Dev.modWait_relay (d : Dev) (i : Nat) (f : WaitReply → WaitReply) : (d.modWait i f).relay = d.relay := rfl
@[simp] theorem Dev.modWait_tiles (d : Dev) (i : Nat) (f : WaitReply → WaitReply) : (d.modWait i f).tiles = d.tiles := rfl
@[simp] theorem Dev.modWait_xlate (d : Dev) (i : Nat) (f : WaitReply → WaitReply) : (d.modWait i f).xlate = d.xlate := rfl
@[simp] theorem Dev.modWait_sec (d : Dev) (i : Nat) (f : WaitReply → WaitReply) : (d.modWait i f).sec = d.sec := rfl
@[simp] theorem Dev.modWait_faults (d : Dev) (i : Nat) (f : WaitReply → WaitReply) : (d.modWait i f).faults = d.faults := rfl
@[simp] theorem Dev.modWait_test (d : Dev) (i : Nat) (f : WaitReply → WaitReply) : (d.modWait i f).test = d.test := rfl
@[simp] theorem Dev.modWait_fw (d : Dev) (i : Nat) (f : WaitReply → WaitReply) : (d.modWait i f).fw = d.fw := rfl
@[simp] theorem Dev.modWait_flash (d : Dev) (i : Nat) (f : WaitReply → WaitReply) : (d.modWait i f).flash = d.flash := rfl

@[simp] theorem Dev.modDetour_wire (d : Dev) (i : Nat) (f : Detour → Detour) : (d.modDetour i f).wire = d.wire := rfl
@[simp] theorem Dev.modDetour_now (d : Dev) (i : Nat) (f : Detour → Detour) : (d.modDetour i f).now = d.now := rfl
@[simp] theorem Dev.modDetour_free (d : Dev) (i : Nat) (f : Detour → Detour) : (d.modDetour i f).free = d.free := rfl
@[simp] theorem Dev.modDetour_ident (d : Dev) (i : Nat) (f : Detour → Detour) : (d.modDetour i f).ident = d.ident := rfl
@[simp] theorem Dev.modDetour_power (d : Dev) (i : Nat) (f : Detour → Detour) : (d.modDetour i f).power = d.power := rfl
@[simp] theorem Dev.modDetour_ports (d : Dev) (i : Nat) (f : Detour → Detour) : (d.modDetour i f).ports = d.ports := rfl
@[simp] theorem Dev.modDetour_sw (d : Dev) (i : Nat) (f : Detour → Detour) : (d.modDetour i f).sw = d.sw := rfl
@[simp] theorem Dev.modDetour_resvs (d : Dev) (i : Nat) (f : Detour → Detour) : (d.modDetour i f).resvs = d.resvs := rfl
@[simp] theorem Dev.modDetour_prot (d : Dev) (i : Nat) (f : Detour → Detour) : (d.modDetour i f).prot = d.prot := rfl
@[simp] theorem Dev.modDetour_homes (d : Dev) (i : Nat) (f : Detour → Detour) : (d.modDetour i f).homes = d.homes := rfl
@[simp] theorem Dev.modDetour_pool (d : Dev) (i : Nat) (f : Detour → Detour) : (d.modDetour i f).pool = d.pool := rfl
@[simp] theorem Dev.modDetour_req (d : Dev) (i : Nat) (f : Detour → Detour) : (d.modDetour i f).req = d.req := rfl
@[simp] theorem Dev.modDetour_relay (d : Dev) (i : Nat) (f : Detour → Detour) : (d.modDetour i f).relay = d.relay := rfl
@[simp] theorem Dev.modDetour_tiles (d : Dev) (i : Nat) (f : Detour → Detour) : (d.modDetour i f).tiles = d.tiles := rfl
@[simp] theorem Dev.modDetour_xlate (d : Dev) (i : Nat) (f : Detour → Detour) : (d.modDetour i f).xlate = d.xlate := rfl
@[simp] theorem Dev.modDetour_host (d : Dev) (i : Nat) (f : Detour → Detour) : (d.modDetour i f).host = d.host := rfl
@[simp] theorem Dev.modDetour_sec (d : Dev) (i : Nat) (f : Detour → Detour) : (d.modDetour i f).sec = d.sec := rfl
@[simp] theorem Dev.modDetour_faults (d : Dev) (i : Nat) (f : Detour → Detour) : (d.modDetour i f).faults = d.faults := rfl
@[simp] theorem Dev.modDetour_test (d : Dev) (i : Nat) (f : Detour → Detour) : (d.modDetour i f).test = d.test := rfl
@[simp] theorem Dev.modDetour_fw (d : Dev) (i : Nat) (f : Detour → Detour) : (d.modDetour i f).fw = d.fw := rfl
@[simp] theorem Dev.modDetour_flash (d : Dev) (i : Nat) (f : Detour → Detour) : (d.modDetour i f).flash = d.flash := rfl

/-! ### Accessors after an update -/

@[simp] theorem Dev.modPort_port (d : Dev) (i j : Nat) (f : PortSt → PortSt) :
    (d.modPort i f).port j = if j = i then f (d.port i) else d.port j := by simp [Dev.modPort, Dev.port]
@[simp] theorem Dev.modPort_kamro (d : Dev) (i j : Nat) (f : PortSt → PortSt) : (d.modPort i f).kamro j = d.kamro j := rfl
@[simp] theorem Dev.modPort_home (d : Dev) (i j : Nat) (f : PortSt → PortSt) : (d.modPort i f).home j = d.home j := rfl
@[simp] theorem Dev.modPort_region (d : Dev) (i j : Nat) (f : PortSt → PortSt) : (d.modPort i f).region j = d.region j := rfl
@[simp] theorem Dev.modPort_slice (d : Dev) (i j : Nat) (f : PortSt → PortSt) : (d.modPort i f).slice j = d.slice j := rfl
@[simp] theorem Dev.modPort_resv (d : Dev) (i j : Nat) (f : PortSt → PortSt) : (d.modPort i f).resv j = d.resv j := rfl
@[simp] theorem Dev.modPort_group (d : Dev) (i j : Nat) (f : PortSt → PortSt) : (d.modPort i f).group j = d.group j := rfl
@[simp] theorem Dev.modPort_pos (d : Dev) (i j : Nat) (f : PortSt → PortSt) : (d.modPort i f).pos j = d.pos j := rfl
@[simp] theorem Dev.modPort_pipe (d : Dev) (i j : Nat) (f : PortSt → PortSt) : (d.modPort i f).pipe j = d.pipe j := rfl
@[simp] theorem Dev.modPort_ring (d : Dev) (i j : Nat) (f : PortSt → PortSt) : (d.modPort i f).ring j = d.ring j := rfl
@[simp] theorem Dev.modPort_window (d : Dev) (i j : Nat) (f : PortSt → PortSt) : (d.modPort i f).window j = d.window j := rfl
@[simp] theorem Dev.modPort_perturb (d : Dev) (i j : Nat) (f : PortSt → PortSt) : (d.modPort i f).perturb j = d.perturb j := rfl
@[simp] theorem Dev.modPort_queue (d : Dev) (i p q : Nat) (f : PortSt → PortSt) : (d.modPort i f).queue p q = d.queue p q := rfl

@[simp] theorem Dev.modKamro_kamro (d : Dev) (i j : Nat) (f : KamroSt → KamroSt) :
    (d.modKamro i f).kamro j = if j = i then f (d.kamro i) else d.kamro j := by simp [Dev.modKamro, Dev.kamro]
@[simp] theorem Dev.modKamro_port (d : Dev) (i j : Nat) (f : KamroSt → KamroSt) : (d.modKamro i f).port j = d.port j := rfl
@[simp] theorem Dev.modKamro_home (d : Dev) (i j : Nat) (f : KamroSt → KamroSt) : (d.modKamro i f).home j = d.home j := rfl
@[simp] theorem Dev.modKamro_region (d : Dev) (i j : Nat) (f : KamroSt → KamroSt) : (d.modKamro i f).region j = d.region j := rfl
@[simp] theorem Dev.modKamro_slice (d : Dev) (i j : Nat) (f : KamroSt → KamroSt) : (d.modKamro i f).slice j = d.slice j := rfl
@[simp] theorem Dev.modKamro_resv (d : Dev) (i j : Nat) (f : KamroSt → KamroSt) : (d.modKamro i f).resv j = d.resv j := rfl
@[simp] theorem Dev.modKamro_group (d : Dev) (i j : Nat) (f : KamroSt → KamroSt) : (d.modKamro i f).group j = d.group j := rfl
@[simp] theorem Dev.modKamro_pos (d : Dev) (i j : Nat) (f : KamroSt → KamroSt) : (d.modKamro i f).pos j = d.pos j := rfl
@[simp] theorem Dev.modKamro_pipe (d : Dev) (i j : Nat) (f : KamroSt → KamroSt) : (d.modKamro i f).pipe j = d.pipe j := rfl
@[simp] theorem Dev.modKamro_ring (d : Dev) (i j : Nat) (f : KamroSt → KamroSt) : (d.modKamro i f).ring j = d.ring j := rfl
@[simp] theorem Dev.modKamro_window (d : Dev) (i j : Nat) (f : KamroSt → KamroSt) : (d.modKamro i f).window j = d.window j := rfl
@[simp] theorem Dev.modKamro_perturb (d : Dev) (i j : Nat) (f : KamroSt → KamroSt) : (d.modKamro i f).perturb j = d.perturb j := rfl

@[simp] theorem Dev.modHome_home (d : Dev) (i j : Nat) (f : Home → Home) :
    (d.modHome i f).home j = if j = i then f (d.home i) else d.home j := by simp [Dev.modHome, Dev.home]
@[simp] theorem Dev.modHome_port (d : Dev) (i j : Nat) (f : Home → Home) : (d.modHome i f).port j = d.port j := rfl
@[simp] theorem Dev.modHome_kamro (d : Dev) (i j : Nat) (f : Home → Home) : (d.modHome i f).kamro j = d.kamro j := rfl
@[simp] theorem Dev.modHome_region (d : Dev) (i j : Nat) (f : Home → Home) : (d.modHome i f).region j = d.region j := rfl
@[simp] theorem Dev.modHome_slice (d : Dev) (i j : Nat) (f : Home → Home) : (d.modHome i f).slice j = d.slice j := rfl
@[simp] theorem Dev.modHome_resv (d : Dev) (i j : Nat) (f : Home → Home) : (d.modHome i f).resv j = d.resv j := rfl
@[simp] theorem Dev.modHome_group (d : Dev) (i j : Nat) (f : Home → Home) : (d.modHome i f).group j = d.group j := rfl
@[simp] theorem Dev.modHome_pos (d : Dev) (i j : Nat) (f : Home → Home) : (d.modHome i f).pos j = d.pos j := rfl
@[simp] theorem Dev.modHome_pipe (d : Dev) (i j : Nat) (f : Home → Home) : (d.modHome i f).pipe j = d.pipe j := rfl
@[simp] theorem Dev.modHome_ring (d : Dev) (i j : Nat) (f : Home → Home) : (d.modHome i f).ring j = d.ring j := rfl
@[simp] theorem Dev.modHome_window (d : Dev) (i j : Nat) (f : Home → Home) : (d.modHome i f).window j = d.window j := rfl
@[simp] theorem Dev.modHome_perturb (d : Dev) (i j : Nat) (f : Home → Home) : (d.modHome i f).perturb j = d.perturb j := rfl
@[simp] theorem Dev.modHome_queue (d : Dev) (i p q : Nat) (f : Home → Home) : (d.modHome i f).queue p q = d.queue p q := rfl

@[simp] theorem Dev.modRegion_region (d : Dev) (i j : Nat) (f : Region → Region) :
    (d.modRegion i f).region j = if j = i then f (d.region i) else d.region j := by simp [Dev.modRegion, Dev.region]
@[simp] theorem Dev.modRegion_port (d : Dev) (i j : Nat) (f : Region → Region) : (d.modRegion i f).port j = d.port j := rfl
@[simp] theorem Dev.modRegion_kamro (d : Dev) (i j : Nat) (f : Region → Region) : (d.modRegion i f).kamro j = d.kamro j := rfl
@[simp] theorem Dev.modRegion_home (d : Dev) (i j : Nat) (f : Region → Region) : (d.modRegion i f).home j = d.home j := rfl
@[simp] theorem Dev.modRegion_slice (d : Dev) (i j : Nat) (f : Region → Region) : (d.modRegion i f).slice j = d.slice j := rfl
@[simp] theorem Dev.modRegion_resv (d : Dev) (i j : Nat) (f : Region → Region) : (d.modRegion i f).resv j = d.resv j := rfl
@[simp] theorem Dev.modRegion_group (d : Dev) (i j : Nat) (f : Region → Region) : (d.modRegion i f).group j = d.group j := rfl
@[simp] theorem Dev.modRegion_pos (d : Dev) (i j : Nat) (f : Region → Region) : (d.modRegion i f).pos j = d.pos j := rfl
@[simp] theorem Dev.modRegion_pipe (d : Dev) (i j : Nat) (f : Region → Region) : (d.modRegion i f).pipe j = d.pipe j := rfl
@[simp] theorem Dev.modRegion_ring (d : Dev) (i j : Nat) (f : Region → Region) : (d.modRegion i f).ring j = d.ring j := rfl
@[simp] theorem Dev.modRegion_window (d : Dev) (i j : Nat) (f : Region → Region) : (d.modRegion i f).window j = d.window j := rfl
@[simp] theorem Dev.modRegion_perturb (d : Dev) (i j : Nat) (f : Region → Region) : (d.modRegion i f).perturb j = d.perturb j := rfl
@[simp] theorem Dev.modRegion_queue (d : Dev) (i p q : Nat) (f : Region → Region) : (d.modRegion i f).queue p q = d.queue p q := rfl

@[simp] theorem Dev.modSlice_slice (d : Dev) (i j : Nat) (f : SliceSt → SliceSt) :
    (d.modSlice i f).slice j = if j = i then f (d.slice i) else d.slice j := by simp [Dev.modSlice, Dev.slice]
@[simp] theorem Dev.modSlice_port (d : Dev) (i j : Nat) (f : SliceSt → SliceSt) : (d.modSlice i f).port j = d.port j := rfl
@[simp] theorem Dev.modSlice_kamro (d : Dev) (i j : Nat) (f : SliceSt → SliceSt) : (d.modSlice i f).kamro j = d.kamro j := rfl
@[simp] theorem Dev.modSlice_home (d : Dev) (i j : Nat) (f : SliceSt → SliceSt) : (d.modSlice i f).home j = d.home j := rfl
@[simp] theorem Dev.modSlice_region (d : Dev) (i j : Nat) (f : SliceSt → SliceSt) : (d.modSlice i f).region j = d.region j := rfl
@[simp] theorem Dev.modSlice_resv (d : Dev) (i j : Nat) (f : SliceSt → SliceSt) : (d.modSlice i f).resv j = d.resv j := rfl
@[simp] theorem Dev.modSlice_group (d : Dev) (i j : Nat) (f : SliceSt → SliceSt) : (d.modSlice i f).group j = d.group j := rfl
@[simp] theorem Dev.modSlice_pos (d : Dev) (i j : Nat) (f : SliceSt → SliceSt) : (d.modSlice i f).pos j = d.pos j := rfl
@[simp] theorem Dev.modSlice_pipe (d : Dev) (i j : Nat) (f : SliceSt → SliceSt) : (d.modSlice i f).pipe j = d.pipe j := rfl
@[simp] theorem Dev.modSlice_ring (d : Dev) (i j : Nat) (f : SliceSt → SliceSt) : (d.modSlice i f).ring j = d.ring j := rfl
@[simp] theorem Dev.modSlice_window (d : Dev) (i j : Nat) (f : SliceSt → SliceSt) : (d.modSlice i f).window j = d.window j := rfl
@[simp] theorem Dev.modSlice_perturb (d : Dev) (i j : Nat) (f : SliceSt → SliceSt) : (d.modSlice i f).perturb j = d.perturb j := rfl
@[simp] theorem Dev.modSlice_queue (d : Dev) (i p q : Nat) (f : SliceSt → SliceSt) : (d.modSlice i f).queue p q = d.queue p q := rfl

@[simp] theorem Dev.modResv_resv (d : Dev) (i j : Nat) (f : Resv → Resv) :
    (d.modResv i f).resv j = if j = i then f (d.resv i) else d.resv j := by simp [Dev.modResv, Dev.resv]
@[simp] theorem Dev.modResv_port (d : Dev) (i j : Nat) (f : Resv → Resv) : (d.modResv i f).port j = d.port j := rfl
@[simp] theorem Dev.modResv_kamro (d : Dev) (i j : Nat) (f : Resv → Resv) : (d.modResv i f).kamro j = d.kamro j := rfl
@[simp] theorem Dev.modResv_home (d : Dev) (i j : Nat) (f : Resv → Resv) : (d.modResv i f).home j = d.home j := rfl
@[simp] theorem Dev.modResv_region (d : Dev) (i j : Nat) (f : Resv → Resv) : (d.modResv i f).region j = d.region j := rfl
@[simp] theorem Dev.modResv_slice (d : Dev) (i j : Nat) (f : Resv → Resv) : (d.modResv i f).slice j = d.slice j := rfl
@[simp] theorem Dev.modResv_group (d : Dev) (i j : Nat) (f : Resv → Resv) : (d.modResv i f).group j = d.group j := rfl
@[simp] theorem Dev.modResv_pos (d : Dev) (i j : Nat) (f : Resv → Resv) : (d.modResv i f).pos j = d.pos j := rfl
@[simp] theorem Dev.modResv_pipe (d : Dev) (i j : Nat) (f : Resv → Resv) : (d.modResv i f).pipe j = d.pipe j := rfl
@[simp] theorem Dev.modResv_ring (d : Dev) (i j : Nat) (f : Resv → Resv) : (d.modResv i f).ring j = d.ring j := rfl
@[simp] theorem Dev.modResv_window (d : Dev) (i j : Nat) (f : Resv → Resv) : (d.modResv i f).window j = d.window j := rfl
@[simp] theorem Dev.modResv_perturb (d : Dev) (i j : Nat) (f : Resv → Resv) : (d.modResv i f).perturb j = d.perturb j := rfl
@[simp] theorem Dev.modResv_queue (d : Dev) (i p q : Nat) (f : Resv → Resv) : (d.modResv i f).queue p q = d.queue p q := rfl

@[simp] theorem Dev.modGroup_group (d : Dev) (i j : Nat) (f : Group → Group) :
    (d.modGroup i f).group j = if j = i then f (d.group i) else d.group j := by simp [Dev.modGroup, Dev.group]
@[simp] theorem Dev.modGroup_port (d : Dev) (i j : Nat) (f : Group → Group) : (d.modGroup i f).port j = d.port j := rfl
@[simp] theorem Dev.modGroup_kamro (d : Dev) (i j : Nat) (f : Group → Group) : (d.modGroup i f).kamro j = d.kamro j := rfl
@[simp] theorem Dev.modGroup_home (d : Dev) (i j : Nat) (f : Group → Group) : (d.modGroup i f).home j = d.home j := rfl
@[simp] theorem Dev.modGroup_region (d : Dev) (i j : Nat) (f : Group → Group) : (d.modGroup i f).region j = d.region j := rfl
@[simp] theorem Dev.modGroup_slice (d : Dev) (i j : Nat) (f : Group → Group) : (d.modGroup i f).slice j = d.slice j := rfl
@[simp] theorem Dev.modGroup_resv (d : Dev) (i j : Nat) (f : Group → Group) : (d.modGroup i f).resv j = d.resv j := rfl
@[simp] theorem Dev.modGroup_pos (d : Dev) (i j : Nat) (f : Group → Group) : (d.modGroup i f).pos j = d.pos j := rfl
@[simp] theorem Dev.modGroup_pipe (d : Dev) (i j : Nat) (f : Group → Group) : (d.modGroup i f).pipe j = d.pipe j := rfl
@[simp] theorem Dev.modGroup_ring (d : Dev) (i j : Nat) (f : Group → Group) : (d.modGroup i f).ring j = d.ring j := rfl
@[simp] theorem Dev.modGroup_window (d : Dev) (i j : Nat) (f : Group → Group) : (d.modGroup i f).window j = d.window j := rfl
@[simp] theorem Dev.modGroup_perturb (d : Dev) (i j : Nat) (f : Group → Group) : (d.modGroup i f).perturb j = d.perturb j := rfl
@[simp] theorem Dev.modGroup_queue (d : Dev) (i p q : Nat) (f : Group → Group) : (d.modGroup i f).queue p q = d.queue p q := rfl

@[simp] theorem Dev.modPos_pos (d : Dev) (i j : Nat) (f : PosSt → PosSt) :
    (d.modPos i f).pos j = if j = i then f (d.pos i) else d.pos j := by simp [Dev.modPos, Dev.pos]
@[simp] theorem Dev.modPos_port (d : Dev) (i j : Nat) (f : PosSt → PosSt) : (d.modPos i f).port j = d.port j := rfl
@[simp] theorem Dev.modPos_kamro (d : Dev) (i j : Nat) (f : PosSt → PosSt) : (d.modPos i f).kamro j = d.kamro j := rfl
@[simp] theorem Dev.modPos_home (d : Dev) (i j : Nat) (f : PosSt → PosSt) : (d.modPos i f).home j = d.home j := rfl
@[simp] theorem Dev.modPos_region (d : Dev) (i j : Nat) (f : PosSt → PosSt) : (d.modPos i f).region j = d.region j := rfl
@[simp] theorem Dev.modPos_slice (d : Dev) (i j : Nat) (f : PosSt → PosSt) : (d.modPos i f).slice j = d.slice j := rfl
@[simp] theorem Dev.modPos_resv (d : Dev) (i j : Nat) (f : PosSt → PosSt) : (d.modPos i f).resv j = d.resv j := rfl
@[simp] theorem Dev.modPos_group (d : Dev) (i j : Nat) (f : PosSt → PosSt) : (d.modPos i f).group j = d.group j := rfl
@[simp] theorem Dev.modPos_pipe (d : Dev) (i j : Nat) (f : PosSt → PosSt) : (d.modPos i f).pipe j = d.pipe j := rfl
@[simp] theorem Dev.modPos_ring (d : Dev) (i j : Nat) (f : PosSt → PosSt) : (d.modPos i f).ring j = d.ring j := rfl
@[simp] theorem Dev.modPos_window (d : Dev) (i j : Nat) (f : PosSt → PosSt) : (d.modPos i f).window j = d.window j := rfl
@[simp] theorem Dev.modPos_perturb (d : Dev) (i j : Nat) (f : PosSt → PosSt) : (d.modPos i f).perturb j = d.perturb j := rfl
@[simp] theorem Dev.modPos_queue (d : Dev) (i p q : Nat) (f : PosSt → PosSt) : (d.modPos i f).queue p q = d.queue p q := rfl

@[simp] theorem Dev.modPipe_pipe (d : Dev) (i j : Nat) (f : PipeSt → PipeSt) :
    (d.modPipe i f).pipe j = if j = i then f (d.pipe i) else d.pipe j := by simp [Dev.modPipe, Dev.pipe]
@[simp] theorem Dev.modPipe_port (d : Dev) (i j : Nat) (f : PipeSt → PipeSt) : (d.modPipe i f).port j = d.port j := rfl
@[simp] theorem Dev.modPipe_kamro (d : Dev) (i j : Nat) (f : PipeSt → PipeSt) : (d.modPipe i f).kamro j = d.kamro j := rfl
@[simp] theorem Dev.modPipe_home (d : Dev) (i j : Nat) (f : PipeSt → PipeSt) : (d.modPipe i f).home j = d.home j := rfl
@[simp] theorem Dev.modPipe_region (d : Dev) (i j : Nat) (f : PipeSt → PipeSt) : (d.modPipe i f).region j = d.region j := rfl
@[simp] theorem Dev.modPipe_slice (d : Dev) (i j : Nat) (f : PipeSt → PipeSt) : (d.modPipe i f).slice j = d.slice j := rfl
@[simp] theorem Dev.modPipe_resv (d : Dev) (i j : Nat) (f : PipeSt → PipeSt) : (d.modPipe i f).resv j = d.resv j := rfl
@[simp] theorem Dev.modPipe_group (d : Dev) (i j : Nat) (f : PipeSt → PipeSt) : (d.modPipe i f).group j = d.group j := rfl
@[simp] theorem Dev.modPipe_pos (d : Dev) (i j : Nat) (f : PipeSt → PipeSt) : (d.modPipe i f).pos j = d.pos j := rfl
@[simp] theorem Dev.modPipe_ring (d : Dev) (i j : Nat) (f : PipeSt → PipeSt) : (d.modPipe i f).ring j = d.ring j := rfl
@[simp] theorem Dev.modPipe_window (d : Dev) (i j : Nat) (f : PipeSt → PipeSt) : (d.modPipe i f).window j = d.window j := rfl
@[simp] theorem Dev.modPipe_perturb (d : Dev) (i j : Nat) (f : PipeSt → PipeSt) : (d.modPipe i f).perturb j = d.perturb j := rfl
@[simp] theorem Dev.modPipe_queue (d : Dev) (i p q : Nat) (f : PipeSt → PipeSt) : (d.modPipe i f).queue p q = d.queue p q := rfl

@[simp] theorem Dev.modRing_ring (d : Dev) (i j : Nat) (f : Ring → Ring) :
    (d.modRing i f).ring j = if j = i then f (d.ring i) else d.ring j := by simp [Dev.modRing, Dev.ring]
@[simp] theorem Dev.modRing_port (d : Dev) (i j : Nat) (f : Ring → Ring) : (d.modRing i f).port j = d.port j := rfl
@[simp] theorem Dev.modRing_kamro (d : Dev) (i j : Nat) (f : Ring → Ring) : (d.modRing i f).kamro j = d.kamro j := rfl
@[simp] theorem Dev.modRing_home (d : Dev) (i j : Nat) (f : Ring → Ring) : (d.modRing i f).home j = d.home j := rfl
@[simp] theorem Dev.modRing_region (d : Dev) (i j : Nat) (f : Ring → Ring) : (d.modRing i f).region j = d.region j := rfl
@[simp] theorem Dev.modRing_slice (d : Dev) (i j : Nat) (f : Ring → Ring) : (d.modRing i f).slice j = d.slice j := rfl
@[simp] theorem Dev.modRing_resv (d : Dev) (i j : Nat) (f : Ring → Ring) : (d.modRing i f).resv j = d.resv j := rfl
@[simp] theorem Dev.modRing_group (d : Dev) (i j : Nat) (f : Ring → Ring) : (d.modRing i f).group j = d.group j := rfl
@[simp] theorem Dev.modRing_pos (d : Dev) (i j : Nat) (f : Ring → Ring) : (d.modRing i f).pos j = d.pos j := rfl
@[simp] theorem Dev.modRing_pipe (d : Dev) (i j : Nat) (f : Ring → Ring) : (d.modRing i f).pipe j = d.pipe j := rfl
@[simp] theorem Dev.modRing_window (d : Dev) (i j : Nat) (f : Ring → Ring) : (d.modRing i f).window j = d.window j := rfl
@[simp] theorem Dev.modRing_perturb (d : Dev) (i j : Nat) (f : Ring → Ring) : (d.modRing i f).perturb j = d.perturb j := rfl
@[simp] theorem Dev.modRing_queue (d : Dev) (i p q : Nat) (f : Ring → Ring) : (d.modRing i f).queue p q = d.queue p q := rfl

@[simp] theorem Dev.modWindow_window (d : Dev) (i j : Nat) (f : Window → Window) :
    (d.modWindow i f).window j = if j = i then f (d.window i) else d.window j := by simp [Dev.modWindow, Dev.window]
@[simp] theorem Dev.modWindow_port (d : Dev) (i j : Nat) (f : Window → Window) : (d.modWindow i f).port j = d.port j := rfl
@[simp] theorem Dev.modWindow_kamro (d : Dev) (i j : Nat) (f : Window → Window) : (d.modWindow i f).kamro j = d.kamro j := rfl
@[simp] theorem Dev.modWindow_home (d : Dev) (i j : Nat) (f : Window → Window) : (d.modWindow i f).home j = d.home j := rfl
@[simp] theorem Dev.modWindow_region (d : Dev) (i j : Nat) (f : Window → Window) : (d.modWindow i f).region j = d.region j := rfl
@[simp] theorem Dev.modWindow_slice (d : Dev) (i j : Nat) (f : Window → Window) : (d.modWindow i f).slice j = d.slice j := rfl
@[simp] theorem Dev.modWindow_resv (d : Dev) (i j : Nat) (f : Window → Window) : (d.modWindow i f).resv j = d.resv j := rfl
@[simp] theorem Dev.modWindow_group (d : Dev) (i j : Nat) (f : Window → Window) : (d.modWindow i f).group j = d.group j := rfl
@[simp] theorem Dev.modWindow_pos (d : Dev) (i j : Nat) (f : Window → Window) : (d.modWindow i f).pos j = d.pos j := rfl
@[simp] theorem Dev.modWindow_pipe (d : Dev) (i j : Nat) (f : Window → Window) : (d.modWindow i f).pipe j = d.pipe j := rfl
@[simp] theorem Dev.modWindow_ring (d : Dev) (i j : Nat) (f : Window → Window) : (d.modWindow i f).ring j = d.ring j := rfl
@[simp] theorem Dev.modWindow_perturb (d : Dev) (i j : Nat) (f : Window → Window) : (d.modWindow i f).perturb j = d.perturb j := rfl
@[simp] theorem Dev.modWindow_queue (d : Dev) (i p q : Nat) (f : Window → Window) : (d.modWindow i f).queue p q = d.queue p q := rfl

@[simp] theorem Dev.modPerturb_perturb (d : Dev) (i j : Nat) (f : Perturb → Perturb) :
    (d.modPerturb i f).perturb j = if j = i then f (d.perturb i) else d.perturb j := by simp [Dev.modPerturb, Dev.perturb]
@[simp] theorem Dev.modPerturb_port (d : Dev) (i j : Nat) (f : Perturb → Perturb) : (d.modPerturb i f).port j = d.port j := rfl
@[simp] theorem Dev.modPerturb_kamro (d : Dev) (i j : Nat) (f : Perturb → Perturb) : (d.modPerturb i f).kamro j = d.kamro j := rfl
@[simp] theorem Dev.modPerturb_home (d : Dev) (i j : Nat) (f : Perturb → Perturb) : (d.modPerturb i f).home j = d.home j := rfl
@[simp] theorem Dev.modPerturb_region (d : Dev) (i j : Nat) (f : Perturb → Perturb) : (d.modPerturb i f).region j = d.region j := rfl
@[simp] theorem Dev.modPerturb_slice (d : Dev) (i j : Nat) (f : Perturb → Perturb) : (d.modPerturb i f).slice j = d.slice j := rfl
@[simp] theorem Dev.modPerturb_resv (d : Dev) (i j : Nat) (f : Perturb → Perturb) : (d.modPerturb i f).resv j = d.resv j := rfl
@[simp] theorem Dev.modPerturb_group (d : Dev) (i j : Nat) (f : Perturb → Perturb) : (d.modPerturb i f).group j = d.group j := rfl
@[simp] theorem Dev.modPerturb_pos (d : Dev) (i j : Nat) (f : Perturb → Perturb) : (d.modPerturb i f).pos j = d.pos j := rfl
@[simp] theorem Dev.modPerturb_pipe (d : Dev) (i j : Nat) (f : Perturb → Perturb) : (d.modPerturb i f).pipe j = d.pipe j := rfl
@[simp] theorem Dev.modPerturb_ring (d : Dev) (i j : Nat) (f : Perturb → Perturb) : (d.modPerturb i f).ring j = d.ring j := rfl
@[simp] theorem Dev.modPerturb_window (d : Dev) (i j : Nat) (f : Perturb → Perturb) : (d.modPerturb i f).window j = d.window j := rfl
@[simp] theorem Dev.modPerturb_queue (d : Dev) (i p q : Nat) (f : Perturb → Perturb) : (d.modPerturb i f).queue p q = d.queue p q := rfl

@[simp] theorem Dev.modPool_port (d : Dev) (f : PoolSt → PoolSt) (j : Nat) : (d.modPool f).port j = d.port j := rfl
@[simp] theorem Dev.modPool_kamro (d : Dev) (f : PoolSt → PoolSt) (j : Nat) : (d.modPool f).kamro j = d.kamro j := rfl
@[simp] theorem Dev.modPool_home (d : Dev) (f : PoolSt → PoolSt) (j : Nat) : (d.modPool f).home j = d.home j := rfl
@[simp] theorem Dev.modPool_region (d : Dev) (f : PoolSt → PoolSt) (j : Nat) : (d.modPool f).region j = d.region j := rfl
@[simp] theorem Dev.modPool_slice (d : Dev) (f : PoolSt → PoolSt) (j : Nat) : (d.modPool f).slice j = d.slice j := rfl
@[simp] theorem Dev.modPool_resv (d : Dev) (f : PoolSt → PoolSt) (j : Nat) : (d.modPool f).resv j = d.resv j := rfl
@[simp] theorem Dev.modPool_group (d : Dev) (f : PoolSt → PoolSt) (j : Nat) : (d.modPool f).group j = d.group j := rfl
@[simp] theorem Dev.modPool_pos (d : Dev) (f : PoolSt → PoolSt) (j : Nat) : (d.modPool f).pos j = d.pos j := rfl
@[simp] theorem Dev.modPool_pipe (d : Dev) (f : PoolSt → PoolSt) (j : Nat) : (d.modPool f).pipe j = d.pipe j := rfl
@[simp] theorem Dev.modPool_ring (d : Dev) (f : PoolSt → PoolSt) (j : Nat) : (d.modPool f).ring j = d.ring j := rfl
@[simp] theorem Dev.modPool_window (d : Dev) (f : PoolSt → PoolSt) (j : Nat) : (d.modPool f).window j = d.window j := rfl
@[simp] theorem Dev.modPool_perturb (d : Dev) (f : PoolSt → PoolSt) (j : Nat) : (d.modPool f).perturb j = d.perturb j := rfl
@[simp] theorem Dev.modPool_queue (d : Dev) (f : PoolSt → PoolSt) (p q : Nat) : (d.modPool f).queue p q = d.queue p q := rfl
@[simp] theorem Dev.emit_port (d : Dev) (e : Emission) (j : Nat) : (d.emit e).port j = d.port j := rfl
@[simp] theorem Dev.emit_kamro (d : Dev) (e : Emission) (j : Nat) : (d.emit e).kamro j = d.kamro j := rfl
@[simp] theorem Dev.emit_home (d : Dev) (e : Emission) (j : Nat) : (d.emit e).home j = d.home j := rfl
@[simp] theorem Dev.emit_region (d : Dev) (e : Emission) (j : Nat) : (d.emit e).region j = d.region j := rfl
@[simp] theorem Dev.emit_slice (d : Dev) (e : Emission) (j : Nat) : (d.emit e).slice j = d.slice j := rfl
@[simp] theorem Dev.emit_resv (d : Dev) (e : Emission) (j : Nat) : (d.emit e).resv j = d.resv j := rfl
@[simp] theorem Dev.emit_group (d : Dev) (e : Emission) (j : Nat) : (d.emit e).group j = d.group j := rfl
@[simp] theorem Dev.emit_pos (d : Dev) (e : Emission) (j : Nat) : (d.emit e).pos j = d.pos j := rfl
@[simp] theorem Dev.emit_pipe (d : Dev) (e : Emission) (j : Nat) : (d.emit e).pipe j = d.pipe j := rfl
@[simp] theorem Dev.emit_ring (d : Dev) (e : Emission) (j : Nat) : (d.emit e).ring j = d.ring j := rfl
@[simp] theorem Dev.emit_window (d : Dev) (e : Emission) (j : Nat) : (d.emit e).window j = d.window j := rfl
@[simp] theorem Dev.emit_perturb (d : Dev) (e : Emission) (j : Nat) : (d.emit e).perturb j = d.perturb j := rfl

theorem Dev.modPort_modPort (d : Dev) (i : Nat) (f g : PortSt → PortSt) : (d.modPort i f).modPort i g = d.modPort i fun x => g (f x) := by
  simp [Dev.modPort, tmod, tset_tset]
theorem Dev.modKamro_modKamro (d : Dev) (i : Nat) (f g : KamroSt → KamroSt) : (d.modKamro i f).modKamro i g = d.modKamro i fun x => g (f x) := by
  simp [Dev.modKamro, tmod, tset_tset]
theorem Dev.modHome_modHome (d : Dev) (i : Nat) (f g : Home → Home) : (d.modHome i f).modHome i g = d.modHome i fun x => g (f x) := by
  simp [Dev.modHome, tmod, tset_tset]
theorem Dev.modRegion_modRegion (d : Dev) (i : Nat) (f g : Region → Region) : (d.modRegion i f).modRegion i g = d.modRegion i fun x => g (f x) := by
  simp [Dev.modRegion, tmod, tset_tset]
theorem Dev.modSlice_modSlice (d : Dev) (i : Nat) (f g : SliceSt → SliceSt) : (d.modSlice i f).modSlice i g = d.modSlice i fun x => g (f x) := by
  simp [Dev.modSlice, tmod, tset_tset]
theorem Dev.modResv_modResv (d : Dev) (i : Nat) (f g : Resv → Resv) : (d.modResv i f).modResv i g = d.modResv i fun x => g (f x) := by
  simp [Dev.modResv, tmod, tset_tset]
theorem Dev.modGroup_modGroup (d : Dev) (i : Nat) (f g : Group → Group) : (d.modGroup i f).modGroup i g = d.modGroup i fun x => g (f x) := by
  simp [Dev.modGroup, tmod, tset_tset]
theorem Dev.modPos_modPos (d : Dev) (i : Nat) (f g : PosSt → PosSt) : (d.modPos i f).modPos i g = d.modPos i fun x => g (f x) := by
  simp [Dev.modPos, tmod, tset_tset]
theorem Dev.modPipe_modPipe (d : Dev) (i : Nat) (f g : PipeSt → PipeSt) : (d.modPipe i f).modPipe i g = d.modPipe i fun x => g (f x) := by
  simp [Dev.modPipe, tmod, tset_tset]
theorem Dev.modRing_modRing (d : Dev) (i : Nat) (f g : Ring → Ring) : (d.modRing i f).modRing i g = d.modRing i fun x => g (f x) := by
  simp [Dev.modRing, tmod, tset_tset]
theorem Dev.modWindow_modWindow (d : Dev) (i : Nat) (f g : Window → Window) : (d.modWindow i f).modWindow i g = d.modWindow i fun x => g (f x) := by
  simp [Dev.modWindow, tmod, tset_tset]
theorem Dev.modPerturb_modPerturb (d : Dev) (i : Nat) (f g : Perturb → Perturb) : (d.modPerturb i f).modPerturb i g = d.modPerturb i fun x => g (f x) := by
  simp [Dev.modPerturb, tmod, tset_tset]

/-! ### Updates that agree where they apply -/

theorem Dev.modPort_congr (d : Dev) (i : Nat) (f g : PortSt → PortSt) (h : f (d.port i) = g (d.port i)) : d.modPort i f = d.modPort i g := by
  simp only [Dev.port] at h; simp only [Dev.modPort, tmod, h]
theorem Dev.modKamro_congr (d : Dev) (i : Nat) (f g : KamroSt → KamroSt) (h : f (d.kamro i) = g (d.kamro i)) : d.modKamro i f = d.modKamro i g := by
  simp only [Dev.kamro] at h; simp only [Dev.modKamro, tmod, h]
theorem Dev.modHome_congr (d : Dev) (i : Nat) (f g : Home → Home) (h : f (d.home i) = g (d.home i)) : d.modHome i f = d.modHome i g := by
  simp only [Dev.home] at h; simp only [Dev.modHome, tmod, h]
theorem Dev.modRegion_congr (d : Dev) (i : Nat) (f g : Region → Region) (h : f (d.region i) = g (d.region i)) : d.modRegion i f = d.modRegion i g := by
  simp only [Dev.region] at h; simp only [Dev.modRegion, tmod, h]
theorem Dev.modSlice_congr (d : Dev) (i : Nat) (f g : SliceSt → SliceSt) (h : f (d.slice i) = g (d.slice i)) : d.modSlice i f = d.modSlice i g := by
  simp only [Dev.slice] at h; simp only [Dev.modSlice, tmod, h]
theorem Dev.modResv_congr (d : Dev) (i : Nat) (f g : Resv → Resv) (h : f (d.resv i) = g (d.resv i)) : d.modResv i f = d.modResv i g := by
  simp only [Dev.resv] at h; simp only [Dev.modResv, tmod, h]
theorem Dev.modGroup_congr (d : Dev) (i : Nat) (f g : Group → Group) (h : f (d.group i) = g (d.group i)) : d.modGroup i f = d.modGroup i g := by
  simp only [Dev.group] at h; simp only [Dev.modGroup, tmod, h]
theorem Dev.modPos_congr (d : Dev) (i : Nat) (f g : PosSt → PosSt) (h : f (d.pos i) = g (d.pos i)) : d.modPos i f = d.modPos i g := by
  simp only [Dev.pos] at h; simp only [Dev.modPos, tmod, h]
theorem Dev.modPipe_congr (d : Dev) (i : Nat) (f g : PipeSt → PipeSt) (h : f (d.pipe i) = g (d.pipe i)) : d.modPipe i f = d.modPipe i g := by
  simp only [Dev.pipe] at h; simp only [Dev.modPipe, tmod, h]
theorem Dev.modRing_congr (d : Dev) (i : Nat) (f g : Ring → Ring) (h : f (d.ring i) = g (d.ring i)) : d.modRing i f = d.modRing i g := by
  simp only [Dev.ring] at h; simp only [Dev.modRing, tmod, h]
theorem Dev.modWindow_congr (d : Dev) (i : Nat) (f g : Window → Window) (h : f (d.window i) = g (d.window i)) : d.modWindow i f = d.modWindow i g := by
  simp only [Dev.window] at h; simp only [Dev.modWindow, tmod, h]
theorem Dev.modPerturb_congr (d : Dev) (i : Nat) (f g : Perturb → Perturb) (h : f (d.perturb i) = g (d.perturb i)) : d.modPerturb i f = d.modPerturb i g := by
  simp only [Dev.perturb] at h; simp only [Dev.modPerturb, tmod, h]

@[simp] theorem Dev.emit_queue (d : Dev) (e : Emission) (p q : Nat) : (d.emit e).queue p q = d.queue p q := rfl
@[simp] theorem Dev.modKamro_queue (d : Dev) (k p q : Nat) (f : KamroSt → KamroSt) : (d.modKamro k f).queue p q = d.queue p q := rfl

@[simp] theorem PortSt.modLane_lane (s : PortSt) (i j : Nat) (f : Lane → Lane) :
    (s.modLane i f).lane j = if j = i then f (s.lane i) else s.lane j := by simp [PortSt.modLane, PortSt.lane]

end Sys2Proof.Machine
end

