-- ==== Sys2Proof/Laws/Stores.lean ====
section
/-!
SUPPORT. The operations of the pool and of the tiles that write byte memories keep the canonical form (log 6).
-/
open Sys2Proof Sys2Proof.Machine

namespace Sys2Proof.Laws

/-! ### The pool -/

@[simp] theorem setMeta_mem (p : PoolSt) (line : Nat) (m : LineMeta) : (p.setMeta line m).mem = p.mem := rfl

@[simp] theorem writeLine_mem (p : PoolSt) (line : Nat) (bs : List Byte) (owner : BitVec 10) (key : List Byte) :
    (p.writeLine line bs owner key).mem = memWrites p.mem (64 * line) bs := rfl

theorem writeLine_wf {p : PoolSt} (h : Memory.wf p.mem = true) (line : Nat) (bs : List Byte) (owner : BitVec 10) (key : List Byte) :
    Memory.wf (p.writeLine line bs owner key).mem = true := memWrites_wf bs h _

theorem storeBytes_wf {p : PoolSt} (h : Memory.wf p.mem = true) (slice : BitVec 10) (key : List Byte) (off : Nat) (bs : List Byte) :
    Memory.wf (p.storeBytes slice key off bs).mem = true := by
  rw [PoolSt.storeBytes]
  induction linePieces off bs.length generalizing p with
  | nil => exact h
  | cons e r ih => exact ih (writeLine_wf h _ _ _ _)

theorem zeroLines_wf {p : PoolSt} (h : Memory.wf p.mem = true) (hit : Nat → Bool) : Memory.wf (p.zeroLines hit).mem = true :=
  memFilter_wf h _

/-! ### Tiles -/

theorem writeBits_wf {m : Memory} (h : Memory.wf m = true) (a n v : Nat) : Memory.wf (writeBits m a n v) = true := memWrites_wf _ h _

theorem putBack_wf (l : List (Nat × Byte)) {m : Memory} (h : Memory.wf m = true) : Memory.wf (putBack m l) = true := by
  induction l generalizing m with
  | nil => exact h
  | cons e r ih => exact ih (memWrite_wf h _ _)

/-- An access undone leaves the position's memories canonical. -/
theorem undone_wf {x : PosSt} (hs : Memory.wf x.sram = true) (hv : Memory.wf x.vregs = true) (u : Undo) :
    Memory.wf (x.undone u).sram = true ∧ Memory.wf (x.undone u).vregs = true := ⟨putBack_wf _ hs, putBack_wf _ hv⟩

/-! ### The whole device -/

/-- What a table gives for a number is the default or stands in the table. -/
theorem tget_eq_or_mem {α : Type} (t : Tbl α) (k : Nat) (z : α) : tget t k z = z ∨ ∃ e ∈ t, e.2 = tget t k z := by
  induction t with
  | nil => exact .inl rfl
  | cons e r ih =>
    by_cases h : e.1 = k
    · exact .inr ⟨e, List.mem_cons_self, by simp [tget, h]⟩
    · rcases ih with hz | ⟨x, hx, hv⟩
      · exact .inl (by simpa [tget, h] using hz)
      · exact .inr ⟨x, List.mem_cons_of_mem _ hx, by simpa [tget, h] using hv⟩

/-- An entry of a table with one number set is that one or one of the table before. -/
theorem mem_tset {α : Type} {t : Tbl α} {k : Nat} {v : α} {e : Nat × α} (h : e ∈ tset t k v) : e.2 = v ∨ e ∈ t := by
  induction t with
  | nil => exact .inl (by simp [tset] at h; simp [h])
  | cons x r ih =>
    simp only [tset] at h
    split at h
    · rcases List.mem_cons.1 h with h | h
      · exact .inl (by simp [h])
      · exact .inr h
    · split at h
      · rcases List.mem_cons.1 h with h | h
        · exact .inl (by simp [h])
        · exact .inr (List.mem_cons_of_mem _ h)
      · rcases List.mem_cons.1 h with h | h
        · exact .inr (by simp [h])
        · exact (ih h).imp id (List.mem_cons_of_mem _)

/-- Canonical memories, said apart: the pool's, and every position's. -/
theorem memoriesWf_iff (d : Dev) :
    d.memoriesWf = true ↔ Memory.wf d.pool.mem = true ∧
      ∀ e ∈ d.tiles.positions, Memory.wf e.2.sram = true ∧ Memory.wf e.2.vregs = true ∧ Memory.wf e.2.istore = true := by
  simp [Dev.memoriesWf, and_assoc]

/-- Every position of a state whose memories are canonical has canonical memories. -/
theorem memoriesWf_pos {d : Dev} (h : d.memoriesWf = true) (k : Nat) :
    Memory.wf (d.pos k).sram = true ∧ Memory.wf (d.pos k).vregs = true ∧ Memory.wf (d.pos k).istore = true := by
  rcases tget_eq_or_mem d.tiles.positions k {} with hz | ⟨e, he, hv⟩
  · rw [Dev.pos, hz]; decide
  · rw [Dev.pos, ← hv]; exact ((memoriesWf_iff d).1 h).2 e he

/-- A change of the pool that keeps its memory canonical keeps the device's. -/
theorem memoriesWf_modPool {d : Dev} (h : d.memoriesWf = true) {f : PoolSt → PoolSt}
    (hf : Memory.wf d.pool.mem = true → Memory.wf (f d.pool).mem = true) : (d.modPool f).memoriesWf = true :=
  (memoriesWf_iff _).2 ⟨hf ((memoriesWf_iff d).1 h).1, ((memoriesWf_iff d).1 h).2⟩

/-- A change of a position that keeps its memories canonical keeps the device's. -/
theorem memoriesWf_modPos {d : Dev} (h : d.memoriesWf = true) (k : Nat) {f : PosSt → PosSt}
    (hf : ∀ x, Memory.wf x.sram = true ∧ Memory.wf x.vregs = true ∧ Memory.wf x.istore = true →
      Memory.wf (f x).sram = true ∧ Memory.wf (f x).vregs = true ∧ Memory.wf (f x).istore = true) : (d.modPos k f).memoriesWf = true := by
  refine (memoriesWf_iff _).2 ⟨((memoriesWf_iff d).1 h).1, fun e he => ?_⟩
  rcases mem_tset he with hv | hm
  · rw [hv]; exact hf _ (memoriesWf_pos h k)
  · exact ((memoriesWf_iff d).1 h).2 e hm

end Sys2Proof.Laws
end

