-- ==== Sys2Proof/Laws/Updates.lean ====
section
/-!
SUPPORT. What the updates of the units behind the switch leave and change: streams and their operations, drills, power, the mailbox, release
records, the copy engine, tile dies, reservations and firmware; one lemma a field, true by unfolding.
-/
namespace Sys2Proof.Machine

open Sys2Proof

@[simp] theorem Dev.modCtx_wire (d : Dev) (n : Nat) (f : StreamCtx → StreamCtx) : (d.modCtx n f).wire = d.wire := rfl
@[simp] theorem Dev.modCtx_now (d : Dev) (n : Nat) (f : StreamCtx → StreamCtx) : (d.modCtx n f).now = d.now := rfl
@[simp] theorem Dev.modCtx_free (d : Dev) (n : Nat) (f : StreamCtx → StreamCtx) : (d.modCtx n f).free = d.free := rfl
@[simp] theorem Dev.modCtx_ident (d : Dev) (n : Nat) (f : StreamCtx → StreamCtx) : (d.modCtx n f).ident = d.ident := rfl
@[simp] theorem Dev.modCtx_power (d : Dev) (n : Nat) (f : StreamCtx → StreamCtx) : (d.modCtx n f).power = d.power := rfl
@[simp] theorem Dev.modCtx_ports (d : Dev) (n : Nat) (f : StreamCtx → StreamCtx) : (d.modCtx n f).ports = d.ports := rfl
@[simp] theorem Dev.modCtx_sw (d : Dev) (n : Nat) (f : StreamCtx → StreamCtx) : (d.modCtx n f).sw = d.sw := rfl
@[simp] theorem Dev.modCtx_resvs (d : Dev) (n : Nat) (f : StreamCtx → StreamCtx) : (d.modCtx n f).resvs = d.resvs := rfl
@[simp] theorem Dev.modCtx_rt (d : Dev) (n : Nat) (f : StreamCtx → StreamCtx) : (d.modCtx n f).rt = d.rt := rfl
@[simp] theorem Dev.modCtx_prot (d : Dev) (n : Nat) (f : StreamCtx → StreamCtx) : (d.modCtx n f).prot = d.prot := rfl
@[simp] theorem Dev.modCtx_homes (d : Dev) (n : Nat) (f : StreamCtx → StreamCtx) : (d.modCtx n f).homes = d.homes := rfl
@[simp] theorem Dev.modCtx_pool (d : Dev) (n : Nat) (f : StreamCtx → StreamCtx) : (d.modCtx n f).pool = d.pool := rfl
@[simp] theorem Dev.modCtx_relay (d : Dev) (n : Nat) (f : StreamCtx → StreamCtx) : (d.modCtx n f).relay = d.relay := rfl
@[simp] theorem Dev.modCtx_tiles (d : Dev) (n : Nat) (f : StreamCtx → StreamCtx) : (d.modCtx n f).tiles = d.tiles := rfl
@[simp] theorem Dev.modCtx_xlate (d : Dev) (n : Nat) (f : StreamCtx → StreamCtx) : (d.modCtx n f).xlate = d.xlate := rfl
@[simp] theorem Dev.modCtx_host (d : Dev) (n : Nat) (f : StreamCtx → StreamCtx) : (d.modCtx n f).host = d.host := rfl
@[simp] theorem Dev.modCtx_sec (d : Dev) (n : Nat) (f : StreamCtx → StreamCtx) : (d.modCtx n f).sec = d.sec := rfl
@[simp] theorem Dev.modCtx_faults (d : Dev) (n : Nat) (f : StreamCtx → StreamCtx) : (d.modCtx n f).faults = d.faults := rfl
@[simp] theorem Dev.modCtx_test (d : Dev) (n : Nat) (f : StreamCtx → StreamCtx) : (d.modCtx n f).test = d.test := rfl
@[simp] theorem Dev.modCtx_fw (d : Dev) (n : Nat) (f : StreamCtx → StreamCtx) : (d.modCtx n f).fw = d.fw := rfl
@[simp] theorem Dev.modCtx_flash (d : Dev) (n : Nat) (f : StreamCtx → StreamCtx) : (d.modCtx n f).flash = d.flash := rfl
@[simp] theorem Dev.modCtx_ops (d : Dev) (n : Nat) (f : StreamCtx → StreamCtx) : (d.modCtx n f).req.ops = d.req.ops := rfl

@[simp] theorem Dev.setOp_wire (d : Dev) (o : OutOp) : (d.setOp o).wire = d.wire := rfl
@[simp] theorem Dev.setOp_now (d : Dev) (o : OutOp) : (d.setOp o).now = d.now := rfl
@[simp] theorem Dev.setOp_free (d : Dev) (o : OutOp) : (d.setOp o).free = d.free := rfl
@[simp] theorem Dev.setOp_ident (d : Dev) (o : OutOp) : (d.setOp o).ident = d.ident := rfl
@[simp] theorem Dev.setOp_power (d : Dev) (o : OutOp) : (d.setOp o).power = d.power := rfl
@[simp] theorem Dev.setOp_ports (d : Dev) (o : OutOp) : (d.setOp o).ports = d.ports := rfl
@[simp] theorem Dev.setOp_sw (d : Dev) (o : OutOp) : (d.setOp o).sw = d.sw := rfl
@[simp] theorem Dev.setOp_resvs (d : Dev) (o : OutOp) : (d.setOp o).resvs = d.resvs := rfl
@[simp] theorem Dev.setOp_rt (d : Dev) (o : OutOp) : (d.setOp o).rt = d.rt := rfl
@[simp] theorem Dev.setOp_prot (d : Dev) (o : OutOp) : (d.setOp o).prot = d.prot := rfl
@[simp] theorem Dev.setOp_homes (d : Dev) (o : OutOp) : (d.setOp o).homes = d.homes := rfl
@[simp] theorem Dev.setOp_pool (d : Dev) (o : OutOp) : (d.setOp o).pool = d.pool := rfl
@[simp] theorem Dev.setOp_relay (d : Dev) (o : OutOp) : (d.setOp o).relay = d.relay := rfl
@[simp] theorem Dev.setOp_tiles (d : Dev) (o : OutOp) : (d.setOp o).tiles = d.tiles := rfl
@[simp] theorem Dev.setOp_xlate (d : Dev) (o : OutOp) : (d.setOp o).xlate = d.xlate := rfl
@[simp] theorem Dev.setOp_host (d : Dev) (o : OutOp) : (d.setOp o).host = d.host := rfl
@[simp] theorem Dev.setOp_sec (d : Dev) (o : OutOp) : (d.setOp o).sec = d.sec := rfl
@[simp] theorem Dev.setOp_faults (d : Dev) (o : OutOp) : (d.setOp o).faults = d.faults := rfl
@[simp] theorem Dev.setOp_test (d : Dev) (o : OutOp) : (d.setOp o).test = d.test := rfl
@[simp] theorem Dev.setOp_fw (d : Dev) (o : OutOp) : (d.setOp o).fw = d.fw := rfl
@[simp] theorem Dev.setOp_flash (d : Dev) (o : OutOp) : (d.setOp o).flash = d.flash := rfl
@[simp] theorem Dev.setOp_streams (d : Dev) (o : OutOp) : (d.setOp o).req.streams = d.req.streams := rfl

@[simp] theorem Dev.modDrill_wire (d : Dev) (i : Nat) (f : Drill → Drill) : (d.modDrill i f).wire = d.wire := rfl
@[simp] theorem Dev.modDrill_now (d : Dev) (i : Nat) (f : Drill → Drill) : (d.modDrill i f).now = d.now := rfl
@[simp] theorem Dev.modDrill_free (d : Dev) (i : Nat) (f : Drill → Drill) : (d.modDrill i f).free = d.free := rfl
@[simp] theorem Dev.modDrill_ident (d : Dev) (i : Nat) (f : Drill → Drill) : (d.modDrill i f).ident = d.ident := rfl
@[simp] theorem Dev.modDrill_power (d : Dev) (i : Nat) (f : Drill → Drill) : (d.modDrill i f).power = d.power := rfl
@[simp] theorem Dev.modDrill_ports (d : Dev) (i : Nat) (f : Drill → Drill) : (d.modDrill i f).ports = d.ports := rfl
@[simp] theorem Dev.modDrill_sw (d : Dev) (i : Nat) (f : Drill → Drill) : (d.modDrill i f).sw = d.sw := rfl
@[simp] theorem Dev.modDrill_resvs (d : Dev) (i : Nat) (f : Drill → Drill) : (d.modDrill i f).resvs = d.resvs := rfl
@[simp] theorem Dev.modDrill_rt (d : Dev) (i : Nat) (f : Drill → Drill) : (d.modDrill i f).rt = d.rt := rfl
@[simp] theorem Dev.modDrill_prot (d : Dev) (i : Nat) (f : Drill → Drill) : (d.modDrill i f).prot = d.prot := rfl
@[simp] theorem Dev.modDrill_homes (d : Dev) (i : Nat) (f : Drill → Drill) : (d.modDrill i f).homes = d.homes := rfl
@[simp] theorem Dev.modDrill_pool (d : Dev) (i : Nat) (f : Drill → Drill) : (d.modDrill i f).pool = d.pool := rfl
@[simp] theorem Dev.modDrill_req (d : Dev) (i : Nat) (f : Drill → Drill) : (d.modDrill i f).req = d.req := rfl
@[simp] theorem Dev.modDrill_relay (d : Dev) (i : Nat) (f : Drill → Drill) : (d.modDrill i f).relay = d.relay := rfl
@[simp] theorem Dev.modDrill_tiles (d : Dev) (i : Nat) (f : Drill → Drill) : (d.modDrill i f).tiles = d.tiles := rfl
@[simp] theorem Dev.modDrill_xlate (d : Dev) (i : Nat) (f : Drill → Drill) : (d.modDrill i f).xlate = d.xlate := rfl
@[simp] theorem Dev.modDrill_host (d : Dev) (i : Nat) (f : Drill → Drill) : (d.modDrill i f).host = d.host := rfl
@[simp] theorem Dev.modDrill_sec (d : Dev) (i : Nat) (f : Drill → Drill) : (d.modDrill i f).sec = d.sec := rfl
@[simp] theorem Dev.modDrill_faults (d : Dev) (i : Nat) (f : Drill → Drill) : (d.modDrill i f).faults = d.faults := rfl
@[simp] theorem Dev.modDrill_fw (d : Dev) (i : Nat) (f : Drill → Drill) : (d.modDrill i f).fw = d.fw := rfl
@[simp] theorem Dev.modDrill_flash (d : Dev) (i : Nat) (f : Drill → Drill) : (d.modDrill i f).flash = d.flash := rfl
@[simp] theorem Dev.drill_modDrill (d : Dev) (i j : Nat) (f : Drill → Drill) :
    (d.modDrill i f).drill j = if j = i then f (d.drill i) else d.drill j := by simp [Dev.drill, Dev.modDrill]

@[simp] theorem Dev.modPower_wire (d : Dev) (f : PowerSt → PowerSt) : (d.modPower f).wire = d.wire := rfl
@[simp] theorem Dev.modPower_now (d : Dev) (f : PowerSt → PowerSt) : (d.modPower f).now = d.now := rfl
@[simp] theorem Dev.modPower_free (d : Dev) (f : PowerSt → PowerSt) : (d.modPower f).free = d.free := rfl
@[simp] theorem Dev.modPower_ident (d : Dev) (f : PowerSt → PowerSt) : (d.modPower f).ident = d.ident := rfl
@[simp] theorem Dev.modPower_ports (d : Dev) (f : PowerSt → PowerSt) : (d.modPower f).ports = d.ports := rfl
@[simp] theorem Dev.modPower_sw (d : Dev) (f : PowerSt → PowerSt) : (d.modPower f).sw = d.sw := rfl
@[simp] theorem Dev.modPower_resvs (d : Dev) (f : PowerSt → PowerSt) : (d.modPower f).resvs = d.resvs := rfl
@[simp] theorem Dev.modPower_rt (d : Dev) (f : PowerSt → PowerSt) : (d.modPower f).rt = d.rt := rfl
@[simp] theorem Dev.modPower_prot (d : Dev) (f : PowerSt → PowerSt) : (d.modPower f).prot = d.prot := rfl
@[simp] theorem Dev.modPower_homes (d : Dev) (f : PowerSt → PowerSt) : (d.modPower f).homes = d.homes := rfl
@[simp] theorem Dev.modPower_pool (d : Dev) (f : PowerSt → PowerSt) : (d.modPower f).pool = d.pool := rfl
@[simp] theorem Dev.modPower_req (d : Dev) (f : PowerSt → PowerSt) : (d.modPower f).req = d.req := rfl
@[simp] theorem Dev.modPower_relay (d : Dev) (f : PowerSt → PowerSt) : (d.modPower f).relay = d.relay := rfl
@[simp] theorem Dev.modPower_tiles (d : Dev) (f : PowerSt → PowerSt) : (d.modPower f).tiles = d.tiles := rfl
@[simp] theorem Dev.modPower_xlate (d : Dev) (f : PowerSt → PowerSt) : (d.modPower f).xlate = d.xlate := rfl
@[simp] theorem Dev.modPower_host (d : Dev) (f : PowerSt → PowerSt) : (d.modPower f).host = d.host := rfl
@[simp] theorem Dev.modPower_sec (d : Dev) (f : PowerSt → PowerSt) : (d.modPower f).sec = d.sec := rfl
@[simp] theorem Dev.modPower_faults (d : Dev) (f : PowerSt → PowerSt) : (d.modPower f).faults = d.faults := rfl
@[simp] theorem Dev.modPower_test (d : Dev) (f : PowerSt → PowerSt) : (d.modPower f).test = d.test := rfl
@[simp] theorem Dev.modPower_fw (d : Dev) (f : PowerSt → PowerSt) : (d.modPower f).fw = d.fw := rfl
@[simp] theorem Dev.modPower_flash (d : Dev) (f : PowerSt → PowerSt) : (d.modPower f).flash = d.flash := rfl
@[simp] theorem Dev.modPower_power (d : Dev) (f : PowerSt → PowerSt) : (d.modPower f).power = f d.power := rfl

@[simp] theorem Dev.modSpdm_wire (d : Dev) (f : SpdmSt → SpdmSt) : (d.modSpdm f).wire = d.wire := rfl
@[simp] theorem Dev.modSpdm_now (d : Dev) (f : SpdmSt → SpdmSt) : (d.modSpdm f).now = d.now := rfl
@[simp] theorem Dev.modSpdm_free (d : Dev) (f : SpdmSt → SpdmSt) : (d.modSpdm f).free = d.free := rfl
@[simp] theorem Dev.modSpdm_ident (d : Dev) (f : SpdmSt → SpdmSt) : (d.modSpdm f).ident = d.ident := rfl
@[simp] theorem Dev.modSpdm_power (d : Dev) (f : SpdmSt → SpdmSt) : (d.modSpdm f).power = d.power := rfl
@[simp] theorem Dev.modSpdm_ports (d : Dev) (f : SpdmSt → SpdmSt) : (d.modSpdm f).ports = d.ports := rfl
@[simp] theorem Dev.modSpdm_sw (d : Dev) (f : SpdmSt → SpdmSt) : (d.modSpdm f).sw = d.sw := rfl
@[simp] theorem Dev.modSpdm_resvs (d : Dev) (f : SpdmSt → SpdmSt) : (d.modSpdm f).resvs = d.resvs := rfl
@[simp] theorem Dev.modSpdm_rt (d : Dev) (f : SpdmSt → SpdmSt) : (d.modSpdm f).rt = d.rt := rfl
@[simp] theorem Dev.modSpdm_prot (d : Dev) (f : SpdmSt → SpdmSt) : (d.modSpdm f).prot = d.prot := rfl
@[simp] theorem Dev.modSpdm_homes (d : Dev) (f : SpdmSt → SpdmSt) : (d.modSpdm f).homes = d.homes := rfl
@[simp] theorem Dev.modSpdm_pool (d : Dev) (f : SpdmSt → SpdmSt) : (d.modSpdm f).pool = d.pool := rfl
@[simp] theorem Dev.modSpdm_req (d : Dev) (f : SpdmSt → SpdmSt) : (d.modSpdm f).req = d.req := rfl
@[simp] theorem Dev.modSpdm_relay (d : Dev) (f : SpdmSt → SpdmSt) : (d.modSpdm f).relay = d.relay := rfl
@[simp] theorem Dev.modSpdm_tiles (d : Dev) (f : SpdmSt → SpdmSt) : (d.modSpdm f).tiles = d.tiles := rfl
@[simp] theorem Dev.modSpdm_xlate (d : Dev) (f : SpdmSt → SpdmSt) : (d.modSpdm f).xlate = d.xlate := rfl
@[simp] theorem Dev.modSpdm_sec (d : Dev) (f : SpdmSt → SpdmSt) : (d.modSpdm f).sec = d.sec := rfl
@[simp] theorem Dev.modSpdm_faults (d : Dev) (f : SpdmSt → SpdmSt) : (d.modSpdm f).faults = d.faults := rfl
@[simp] theorem Dev.modSpdm_test (d : Dev) (f : SpdmSt → SpdmSt) : (d.modSpdm f).test = d.test := rfl
@[simp] theorem Dev.modSpdm_fw (d : Dev) (f : SpdmSt → SpdmSt) : (d.modSpdm f).fw = d.fw := rfl
@[simp] theorem Dev.modSpdm_flash (d : Dev) (f : SpdmSt → SpdmSt) : (d.modSpdm f).flash = d.flash := rfl
@[simp] theorem Dev.modSpdm_spdm (d : Dev) (f : SpdmSt → SpdmSt) : (d.modSpdm f).host.spdm = f d.host.spdm := rfl

@[simp] theorem Dev.modRelease_wire (d : Dev) (i : Nat) (f : Release → Release) : (d.modRelease i f).wire = d.wire := rfl
@[simp] theorem Dev.modRelease_now (d : Dev) (i : Nat) (f : Release → Release) : (d.modRelease i f).now = d.now := rfl
@[simp] theorem Dev.modRelease_free (d : Dev) (i : Nat) (f : Release → Release) : (d.modRelease i f).free = d.free := rfl
@[simp] theorem Dev.modRelease_ident (d : Dev) (i : Nat) (f : Release → Release) : (d.modRelease i f).ident = d.ident := rfl
@[simp] theorem Dev.modRelease_power (d : Dev) (i : Nat) (f : Release → Release) : (d.modRelease i f).power = d.power := rfl
@[simp] theorem Dev.modRelease_ports (d : Dev) (i : Nat) (f : Release → Release) : (d.modRelease i f).ports = d.ports := rfl
@[simp] theorem Dev.modRelease_sw (d : Dev) (i : Nat) (f : Release → Release) : (d.modRelease i f).sw = d.sw := rfl
@[simp] theorem Dev.modRelease_resvs (d : Dev) (i : Nat) (f : Release → Release) : (d.modRelease i f).resvs = d.resvs := rfl
@[simp] theorem Dev.modRelease_rt (d : Dev) (i : Nat) (f : Release → Release) : (d.modRelease i f).rt = d.rt := rfl
@[simp] theorem Dev.modRelease_homes (d : Dev) (i : Nat) (f : Release → Release) : (d.modRelease i f).homes = d.homes := rfl
@[simp] theorem Dev.modRelease_pool (d : Dev) (i : Nat) (f : Release → Release) : (d.modRelease i f).pool = d.pool := rfl
@[simp] theorem Dev.modRelease_req (d : Dev) (i : Nat) (f : Release → Release) : (d.modRelease i f).req = d.req := rfl
@[simp] theorem Dev.modRelease_relay (d : Dev) (i : Nat) (f : Release → Release) : (d.modRelease i f).relay = d.relay := rfl
@[simp] theorem Dev.modRelease_tiles (d : Dev) (i : Nat) (f : Release → Release) : (d.modRelease i f).tiles = d.tiles := rfl
@[simp] theorem Dev.modRelease_xlate (d : Dev) (i : Nat) (f : Release → Release) : (d.modRelease i f).xlate = d.xlate := rfl
@[simp] theorem Dev.modRelease_host (d : Dev) (i : Nat) (f : Release → Release) : (d.modRelease i f).host = d.host := rfl
@[simp] theorem Dev.modRelease_sec (d : Dev) (i : Nat) (f : Release → Release) : (d.modRelease i f).sec = d.sec := rfl
@[simp] theorem Dev.modRelease_faults (d : Dev) (i : Nat) (f : Release → Release) : (d.modRelease i f).faults = d.faults := rfl
@[simp] theorem Dev.modRelease_test (d : Dev) (i : Nat) (f : Release → Release) : (d.modRelease i f).test = d.test := rfl
@[simp] theorem Dev.modRelease_fw (d : Dev) (i : Nat) (f : Release → Release) : (d.modRelease i f).fw = d.fw := rfl
@[simp] theorem Dev.modRelease_flash (d : Dev) (i : Nat) (f : Release → Release) : (d.modRelease i f).flash = d.flash := rfl

@[simp] theorem Dev.setRunning_wire (d : Dev) (j : CopyJob) : (d.setRunning j).wire = d.wire := rfl
@[simp] theorem Dev.setRunning_now (d : Dev) (j : CopyJob) : (d.setRunning j).now = d.now := rfl
@[simp] theorem Dev.setRunning_free (d : Dev) (j : CopyJob) : (d.setRunning j).free = d.free := rfl
@[simp] theorem Dev.setRunning_ident (d : Dev) (j : CopyJob) : (d.setRunning j).ident = d.ident := rfl
@[simp] theorem Dev.setRunning_power (d : Dev) (j : CopyJob) : (d.setRunning j).power = d.power := rfl
@[simp] theorem Dev.setRunning_ports (d : Dev) (j : CopyJob) : (d.setRunning j).ports = d.ports := rfl
@[simp] theorem Dev.setRunning_sw (d : Dev) (j : CopyJob) : (d.setRunning j).sw = d.sw := rfl
@[simp] theorem Dev.setRunning_resvs (d : Dev) (j : CopyJob) : (d.setRunning j).resvs = d.resvs := rfl
@[simp] theorem Dev.setRunning_rt (d : Dev) (j : CopyJob) : (d.setRunning j).rt = d.rt := rfl
@[simp] theorem Dev.setRunning_prot (d : Dev) (j : CopyJob) : (d.setRunning j).prot = d.prot := rfl
@[simp] theorem Dev.setRunning_homes (d : Dev) (j : CopyJob) : (d.setRunning j).homes = d.homes := rfl
@[simp] theorem Dev.setRunning_pool (d : Dev) (j : CopyJob) : (d.setRunning j).pool = d.pool := rfl
@[simp] theorem Dev.setRunning_req (d : Dev) (j : CopyJob) : (d.setRunning j).req = d.req := rfl
@[simp] theorem Dev.setRunning_relay (d : Dev) (j : CopyJob) : (d.setRunning j).relay = d.relay := rfl
@[simp] theorem Dev.setRunning_tiles (d : Dev) (j : CopyJob) : (d.setRunning j).tiles = d.tiles := rfl
@[simp] theorem Dev.setRunning_host (d : Dev) (j : CopyJob) : (d.setRunning j).host = d.host := rfl
@[simp] theorem Dev.setRunning_sec (d : Dev) (j : CopyJob) : (d.setRunning j).sec = d.sec := rfl
@[simp] theorem Dev.setRunning_faults (d : Dev) (j : CopyJob) : (d.setRunning j).faults = d.faults := rfl
@[simp] theorem Dev.setRunning_test (d : Dev) (j : CopyJob) : (d.setRunning j).test = d.test := rfl
@[simp] theorem Dev.setRunning_fw (d : Dev) (j : CopyJob) : (d.setRunning j).fw = d.fw := rfl
@[simp] theorem Dev.setRunning_flash (d : Dev) (j : CopyJob) : (d.setRunning j).flash = d.flash := rfl
@[simp] theorem Dev.setRunning_running (d : Dev) (j : CopyJob) : (d.setRunning j).xlate.running = some j := rfl

@[simp] theorem Dev.dropOpen_wire (d : Dev) (sl : Nat) : (d.dropOpen sl).wire = d.wire := rfl
@[simp] theorem Dev.dropOpen_now (d : Dev) (sl : Nat) : (d.dropOpen sl).now = d.now := rfl
@[simp] theorem Dev.dropOpen_free (d : Dev) (sl : Nat) : (d.dropOpen sl).free = d.free := rfl
@[simp] theorem Dev.dropOpen_ident (d : Dev) (sl : Nat) : (d.dropOpen sl).ident = d.ident := rfl
@[simp] theorem Dev.dropOpen_power (d : Dev) (sl : Nat) : (d.dropOpen sl).power = d.power := rfl
@[simp] theorem Dev.dropOpen_ports (d : Dev) (sl : Nat) : (d.dropOpen sl).ports = d.ports := rfl
@[simp] theorem Dev.dropOpen_sw (d : Dev) (sl : Nat) : (d.dropOpen sl).sw = d.sw := rfl
@[simp] theorem Dev.dropOpen_resvs (d : Dev) (sl : Nat) : (d.dropOpen sl).resvs = d.resvs := rfl
@[simp] theorem Dev.dropOpen_rt (d : Dev) (sl : Nat) : (d.dropOpen sl).rt = d.rt := rfl
@[simp] theorem Dev.dropOpen_homes (d : Dev) (sl : Nat) : (d.dropOpen sl).homes = d.homes := rfl
@[simp] theorem Dev.dropOpen_pool (d : Dev) (sl : Nat) : (d.dropOpen sl).pool = d.pool := rfl
@[simp] theorem Dev.dropOpen_req (d : Dev) (sl : Nat) : (d.dropOpen sl).req = d.req := rfl
@[simp] theorem Dev.dropOpen_relay (d : Dev) (sl : Nat) : (d.dropOpen sl).relay = d.relay := rfl
@[simp] theorem Dev.dropOpen_tiles (d : Dev) (sl : Nat) : (d.dropOpen sl).tiles = d.tiles := rfl
@[simp] theorem Dev.dropOpen_xlate (d : Dev) (sl : Nat) : (d.dropOpen sl).xlate = d.xlate := rfl
@[simp] theorem Dev.dropOpen_host (d : Dev) (sl : Nat) : (d.dropOpen sl).host = d.host := rfl
@[simp] theorem Dev.dropOpen_sec (d : Dev) (sl : Nat) : (d.dropOpen sl).sec = d.sec := rfl
@[simp] theorem Dev.dropOpen_faults (d : Dev) (sl : Nat) : (d.dropOpen sl).faults = d.faults := rfl
@[simp] theorem Dev.dropOpen_test (d : Dev) (sl : Nat) : (d.dropOpen sl).test = d.test := rfl
@[simp] theorem Dev.dropOpen_fw (d : Dev) (sl : Nat) : (d.dropOpen sl).fw = d.fw := rfl
@[simp] theorem Dev.dropOpen_flash (d : Dev) (sl : Nat) : (d.dropOpen sl).flash = d.flash := rfl

@[simp] theorem Dev.muteRing_wire (d : Dev) (hit : Nat → Bool) : (d.muteRing hit).wire = d.wire := rfl
@[simp] theorem Dev.muteRing_now (d : Dev) (hit : Nat → Bool) : (d.muteRing hit).now = d.now := rfl
@[simp] theorem Dev.muteRing_free (d : Dev) (hit : Nat → Bool) : (d.muteRing hit).free = d.free := rfl
@[simp] theorem Dev.muteRing_ident (d : Dev) (hit : Nat → Bool) : (d.muteRing hit).ident = d.ident := rfl
@[simp] theorem Dev.muteRing_power (d : Dev) (hit : Nat → Bool) : (d.muteRing hit).power = d.power := rfl
@[simp] theorem Dev.muteRing_ports (d : Dev) (hit : Nat → Bool) : (d.muteRing hit).ports = d.ports := rfl
@[simp] theorem Dev.muteRing_sw (d : Dev) (hit : Nat → Bool) : (d.muteRing hit).sw = d.sw := rfl
@[simp] theorem Dev.muteRing_resvs (d : Dev) (hit : Nat → Bool) : (d.muteRing hit).resvs = d.resvs := rfl
@[simp] theorem Dev.muteRing_rt (d : Dev) (hit : Nat → Bool) : (d.muteRing hit).rt = d.rt := rfl
@[simp] theorem Dev.muteRing_prot (d : Dev) (hit : Nat → Bool) : (d.muteRing hit).prot = d.prot := rfl
@[simp] theorem Dev.muteRing_homes (d : Dev) (hit : Nat → Bool) : (d.muteRing hit).homes = d.homes := rfl
@[simp] theorem Dev.muteRing_pool (d : Dev) (hit : Nat → Bool) : (d.muteRing hit).pool = d.pool := rfl
@[simp] theorem Dev.muteRing_req (d : Dev) (hit : Nat → Bool) : (d.muteRing hit).req = d.req := rfl
@[simp] theorem Dev.muteRing_relay (d : Dev) (hit : Nat → Bool) : (d.muteRing hit).relay = d.relay := rfl
@[simp] theorem Dev.muteRing_tiles (d : Dev) (hit : Nat → Bool) : (d.muteRing hit).tiles = d.tiles := rfl
@[simp] theorem Dev.muteRing_xlate (d : Dev) (hit : Nat → Bool) : (d.muteRing hit).xlate = d.xlate := rfl
@[simp] theorem Dev.muteRing_sec (d : Dev) (hit : Nat → Bool) : (d.muteRing hit).sec = d.sec := rfl
@[simp] theorem Dev.muteRing_faults (d : Dev) (hit : Nat → Bool) : (d.muteRing hit).faults = d.faults := rfl
@[simp] theorem Dev.muteRing_test (d : Dev) (hit : Nat → Bool) : (d.muteRing hit).test = d.test := rfl
@[simp] theorem Dev.muteRing_fw (d : Dev) (hit : Nat → Bool) : (d.muteRing hit).fw = d.fw := rfl
@[simp] theorem Dev.muteRing_flash (d : Dev) (hit : Nat → Bool) : (d.muteRing hit).flash = d.flash := rfl
@[simp] theorem Dev.muteRing_waiting_length (d : Dev) (hit : Nat → Bool) : (d.muteRing hit).host.waiting.length = d.host.waiting.length := by
  simp [Dev.muteRing]

@[simp] theorem Dev.setTileDie_wire (d : Dev) (t : Nat) (x : TileDieSt) : (d.setTileDie t x).wire = d.wire := rfl
@[simp] theorem Dev.setTileDie_now (d : Dev) (t : Nat) (x : TileDieSt) : (d.setTileDie t x).now = d.now := rfl
@[simp] theorem Dev.setTileDie_free (d : Dev) (t : Nat) (x : TileDieSt) : (d.setTileDie t x).free = d.free := rfl
@[simp] theorem Dev.setTileDie_ident (d : Dev) (t : Nat) (x : TileDieSt) : (d.setTileDie t x).ident = d.ident := rfl
@[simp] theorem Dev.setTileDie_power (d : Dev) (t : Nat) (x : TileDieSt) : (d.setTileDie t x).power = d.power := rfl
@[simp] theorem Dev.setTileDie_ports (d : Dev) (t : Nat) (x : TileDieSt) : (d.setTileDie t x).ports = d.ports := rfl
@[simp] theorem Dev.setTileDie_sw (d : Dev) (t : Nat) (x : TileDieSt) : (d.setTileDie t x).sw = d.sw := rfl
@[simp] theorem Dev.setTileDie_resvs (d : Dev) (t : Nat) (x : TileDieSt) : (d.setTileDie t x).resvs = d.resvs := rfl
@[simp] theorem Dev.setTileDie_rt (d : Dev) (t : Nat) (x : TileDieSt) : (d.setTileDie t x).rt = d.rt := rfl
@[simp] theorem Dev.setTileDie_prot (d : Dev) (t : Nat) (x : TileDieSt) : (d.setTileDie t x).prot = d.prot := rfl
@[simp] theorem Dev.setTileDie_homes (d : Dev) (t : Nat) (x : TileDieSt) : (d.setTileDie t x).homes = d.homes := rfl
@[simp] theorem Dev.setTileDie_pool (d : Dev) (t : Nat) (x : TileDieSt) : (d.setTileDie t x).pool = d.pool := rfl
@[simp] theorem Dev.setTileDie_req (d : Dev) (t : Nat) (x : TileDieSt) : (d.setTileDie t x).req = d.req := rfl
@[simp] theorem Dev.setTileDie_relay (d : Dev) (t : Nat) (x : TileDieSt) : (d.setTileDie t x).relay = d.relay := rfl
@[simp] theorem Dev.setTileDie_xlate (d : Dev) (t : Nat) (x : TileDieSt) : (d.setTileDie t x).xlate = d.xlate := rfl
@[simp] theorem Dev.setTileDie_host (d : Dev) (t : Nat) (x : TileDieSt) : (d.setTileDie t x).host = d.host := rfl
@[simp] theorem Dev.setTileDie_sec (d : Dev) (t : Nat) (x : TileDieSt) : (d.setTileDie t x).sec = d.sec := rfl
@[simp] theorem Dev.setTileDie_faults (d : Dev) (t : Nat) (x : TileDieSt) : (d.setTileDie t x).faults = d.faults := rfl
@[simp] theorem Dev.setTileDie_test (d : Dev) (t : Nat) (x : TileDieSt) : (d.setTileDie t x).test = d.test := rfl
@[simp] theorem Dev.setTileDie_fw (d : Dev) (t : Nat) (x : TileDieSt) : (d.setTileDie t x).fw = d.fw := rfl
@[simp] theorem Dev.setTileDie_flash (d : Dev) (t : Nat) (x : TileDieSt) : (d.setTileDie t x).flash = d.flash := rfl
@[simp] theorem Dev.tileDie_setTileDie (d : Dev) (t k : Nat) (x : TileDieSt) :
    (d.setTileDie t x).tileDie k = if k = t then x else d.tileDie k := by simp [Dev.tileDie, Dev.setTileDie]

@[simp] theorem Dev.releaseOwner_wire (d : Dev) (owner inst : Nat) : (d.releaseOwner owner inst).wire = d.wire := rfl
@[simp] theorem Dev.releaseOwner_now (d : Dev) (owner inst : Nat) : (d.releaseOwner owner inst).now = d.now := rfl
@[simp] theorem Dev.releaseOwner_free (d : Dev) (owner inst : Nat) : (d.releaseOwner owner inst).free = d.free := rfl
@[simp] theorem Dev.releaseOwner_ident (d : Dev) (owner inst : Nat) : (d.releaseOwner owner inst).ident = d.ident := rfl
@[simp] theorem Dev.releaseOwner_power (d : Dev) (owner inst : Nat) : (d.releaseOwner owner inst).power = d.power := rfl
@[simp] theorem Dev.releaseOwner_ports (d : Dev) (owner inst : Nat) : (d.releaseOwner owner inst).ports = d.ports := rfl
@[simp] theorem Dev.releaseOwner_sw (d : Dev) (owner inst : Nat) : (d.releaseOwner owner inst).sw = d.sw := rfl
@[simp] theorem Dev.releaseOwner_rt (d : Dev) (owner inst : Nat) : (d.releaseOwner owner inst).rt = d.rt := rfl
@[simp] theorem Dev.releaseOwner_prot (d : Dev) (owner inst : Nat) : (d.releaseOwner owner inst).prot = d.prot := rfl
@[simp] theorem Dev.releaseOwner_homes (d : Dev) (owner inst : Nat) : (d.releaseOwner owner inst).homes = d.homes := rfl
@[simp] theorem Dev.releaseOwner_pool (d : Dev) (owner inst : Nat) : (d.releaseOwner owner inst).pool = d.pool := rfl
@[simp] theorem Dev.releaseOwner_req (d : Dev) (owner inst : Nat) : (d.releaseOwner owner inst).req = d.req := rfl
@[simp] theorem Dev.releaseOwner_relay (d : Dev) (owner inst : Nat) : (d.releaseOwner owner inst).relay = d.relay := rfl
@[simp] theorem Dev.releaseOwner_tiles (d : Dev) (owner inst : Nat) : (d.releaseOwner owner inst).tiles = d.tiles := rfl
@[simp] theorem Dev.releaseOwner_xlate (d : Dev) (owner inst : Nat) : (d.releaseOwner owner inst).xlate = d.xlate := rfl
@[simp] theorem Dev.releaseOwner_host (d : Dev) (owner inst : Nat) : (d.releaseOwner owner inst).host = d.host := rfl
@[simp] theorem Dev.releaseOwner_sec (d : Dev) (owner inst : Nat) : (d.releaseOwner owner inst).sec = d.sec := rfl
@[simp] theorem Dev.releaseOwner_faults (d : Dev) (owner inst : Nat) : (d.releaseOwner owner inst).faults = d.faults := rfl
@[simp] theorem Dev.releaseOwner_test (d : Dev) (owner inst : Nat) : (d.releaseOwner owner inst).test = d.test := rfl
@[simp] theorem Dev.releaseOwner_fw (d : Dev) (owner inst : Nat) : (d.releaseOwner owner inst).fw = d.fw := rfl
@[simp] theorem Dev.releaseOwner_flash (d : Dev) (owner inst : Nat) : (d.releaseOwner owner inst).flash = d.flash := rfl

@[simp] theorem Dev.markMapped_wire (d : Dev) : d.markMapped.wire = d.wire := rfl
@[simp] theorem Dev.markMapped_now (d : Dev) : d.markMapped.now = d.now := rfl
@[simp] theorem Dev.markMapped_free (d : Dev) : d.markMapped.free = d.free := rfl
@[simp] theorem Dev.markMapped_ident (d : Dev) : d.markMapped.ident = d.ident := rfl
@[simp] theorem Dev.markMapped_power (d : Dev) : d.markMapped.power = d.power := rfl
@[simp] theorem Dev.markMapped_ports (d : Dev) : d.markMapped.ports = d.ports := rfl
@[simp] theorem Dev.markMapped_sw (d : Dev) : d.markMapped.sw = d.sw := rfl
@[simp] theorem Dev.markMapped_resvs (d : Dev) : d.markMapped.resvs = d.resvs := rfl
@[simp] theorem Dev.markMapped_rt (d : Dev) : d.markMapped.rt = d.rt := rfl
@[simp] theorem Dev.markMapped_prot (d : Dev) : d.markMapped.prot = d.prot := rfl
@[simp] theorem Dev.markMapped_homes (d : Dev) : d.markMapped.homes = d.homes := rfl
@[simp] theorem Dev.markMapped_pool (d : Dev) : d.markMapped.pool = d.pool := rfl
@[simp] theorem Dev.markMapped_req (d : Dev) : d.markMapped.req = d.req := rfl
@[simp] theorem Dev.markMapped_relay (d : Dev) : d.markMapped.relay = d.relay := rfl
@[simp] theorem Dev.markMapped_tiles (d : Dev) : d.markMapped.tiles = d.tiles := rfl
@[simp] theorem Dev.markMapped_xlate (d : Dev) : d.markMapped.xlate = d.xlate := rfl
@[simp] theorem Dev.markMapped_host (d : Dev) : d.markMapped.host = d.host := rfl
@[simp] theorem Dev.markMapped_sec (d : Dev) : d.markMapped.sec = d.sec := rfl
@[simp] theorem Dev.markMapped_faults (d : Dev) : d.markMapped.faults = d.faults := rfl
@[simp] theorem Dev.markMapped_test (d : Dev) : d.markMapped.test = d.test := rfl
@[simp] theorem Dev.markMapped_flash (d : Dev) : d.markMapped.flash = d.flash := rfl
@[simp] theorem Dev.markMapped_mappedDirty (d : Dev) : d.markMapped.fw.mappedDirty = true := rfl

@[simp] theorem Dev.startErase_wire (d : Dev) : d.startErase.wire = d.wire := rfl
@[simp] theorem Dev.startErase_now (d : Dev) : d.startErase.now = d.now := rfl
@[simp] theorem Dev.startErase_free (d : Dev) : d.startErase.free = d.free := rfl
@[simp] theorem Dev.startErase_ident (d : Dev) : d.startErase.ident = d.ident := rfl
@[simp] theorem Dev.startErase_power (d : Dev) : d.startErase.power = d.power := rfl
@[simp] theorem Dev.startErase_ports (d : Dev) : d.startErase.ports = d.ports := rfl
@[simp] theorem Dev.startErase_sw (d : Dev) : d.startErase.sw = d.sw := rfl
@[simp] theorem Dev.startErase_resvs (d : Dev) : d.startErase.resvs = d.resvs := rfl
@[simp] theorem Dev.startErase_rt (d : Dev) : d.startErase.rt = d.rt := rfl
@[simp] theorem Dev.startErase_prot (d : Dev) : d.startErase.prot = d.prot := rfl
@[simp] theorem Dev.startErase_homes (d : Dev) : d.startErase.homes = d.homes := rfl
@[simp] theorem Dev.startErase_pool (d : Dev) : d.startErase.pool = d.pool := rfl
@[simp] theorem Dev.startErase_req (d : Dev) : d.startErase.req = d.req := rfl
@[simp] theorem Dev.startErase_relay (d : Dev) : d.startErase.relay = d.relay := rfl
@[simp] theorem Dev.startErase_tiles (d : Dev) : d.startErase.tiles = d.tiles := rfl
@[simp] theorem Dev.startErase_xlate (d : Dev) : d.startErase.xlate = d.xlate := rfl
@[simp] theorem Dev.startErase_host (d : Dev) : d.startErase.host = d.host := rfl
@[simp] theorem Dev.startErase_sec (d : Dev) : d.startErase.sec = d.sec := rfl
@[simp] theorem Dev.startErase_faults (d : Dev) : d.startErase.faults = d.faults := rfl
@[simp] theorem Dev.startErase_test (d : Dev) : d.startErase.test = d.test := rfl
@[simp] theorem Dev.startErase_flash (d : Dev) : d.startErase.flash = d.flash := rfl
@[simp] theorem Dev.startErase_erasing (d : Dev) : d.startErase.fw.erasing = true := rfl

end Sys2Proof.Machine
end

