-- ==== Sys2Proof/Tests/Slice0.lean ====
section
/-!
SUPPORT. Tests: an ill-formed term for each check of well-formedness; values the spec prints; and for every obligation with hypotheses a
concrete state and operands that meet them all together, one conjunct for each of its clauses.
-/
namespace Sys2Proof.Tests

open Sys2Proof Sys2Proof.Machine

set_option Elab.async false

/-! ### Well-formedness: an ill-formed term for each check, refused -/

theorem test_wf_frame_too_long : (Instr.frameArrival 0 { payload := zeros 2049 }).wf = false := by decide +kernel
theorem test_wf_envelope_too_short : (Instr.frameArrival 0 { conf := true, payload := zeros 23 }).wf = false := by decide +kernel
theorem test_wf_reference_too_long :
    (Instr.nop { via := .ring 0, cls := 0, ref := some { bytes := zeros 16777217 } }).wf = false := by
  show decide ((List.replicate 16777217 (0 : Byte)).length ≤ 16777216) = false
  rw [List.length_replicate]; decide
theorem test_wf_too_many_findings : (Instr.load 0 {} { ecc := List.replicate 34 (0, .corrected) }).wf = false := by decide +kernel
theorem test_wf_spdm_version : (Instr.getVersion { version := 0x0F }).wf = false := by decide
theorem test_wf_sram_load : (Instr.sramAccess 0 (.load 0 0 2049) 0 [] none).wf = false := by decide
theorem test_wf_sram_store : (Instr.sramAccess 0 (.store 0 0 0) 0 [] none).wf = false := by decide
theorem test_wf_sram_gather : (Instr.sramAccess 0 (.gather 0 1 0) 0 [] none).wf = false := by decide
theorem test_wf_sram_scatter : (Instr.sramAccess 0 (.scatter 0 1 0) 0 [] none).wf = false := by decide
theorem test_wf_empty_loop : (Instr.sequencer 0 (.loop 3 0) {}).wf = false := by decide
theorem test_wf_codeword_lanes : (Instr.codewordDecode 0 (List.replicate 9 [])).wf = false := by decide
theorem test_wf_codeword_levels : (Instr.codewordDecode 0 [List.replicate 681 0]).wf = false := by decide +kernel
theorem test_wf_check_lanes : (Instr.inServiceCheckEnd 0 [0] 100).wf = false := by decide
theorem test_wf_line_beyond_pool : (Instr.linePerform 51539607552 none).wf = false := by decide +kernel
theorem test_wf_patrol_beyond_pool : (Instr.patrolRead 51539607552 none false).wf = false := by decide +kernel
theorem test_wf_function_of_nothing : (Instr.function 0 .exp .acc (.reg .acc) 0 {}).wf = false := by decide
theorem test_wf_topk_of_nothing : (Instr.topK 0 .fp32 true 0 0 1 0 1 {}).wf = false := by decide
theorem test_wf_copy_chunk : (Instr.copyChunk (zeros 2049)).wf = false := by decide +kernel
theorem test_wf_register_write : (Instr.registerWrite 0 []).wf = false := by decide
theorem test_wf_window_write : (Instr.bar2MemoryWrite 0 0 []).wf = false := by decide
theorem test_wf_window_read : (Instr.bar2MemoryRead 0 0 4097 0).wf = false := by decide
theorem test_wf_junctions : (Instr.junctionSample [40] false).wf = false := by decide
theorem test_wf_dram_cases : (Instr.dramTemperatureSample [40]).wf = false := by decide
theorem test_wf_pattern_lanes : (Instr.patternBerUpdate 0 [0] 100).wf = false := by decide
theorem test_wf_test_run_lanes : (Instr.berTestRunEnd 0 [0] 100 true).wf = false := by decide

/-! ### Values the spec prints, or that its formats fix -/

/-- The nine bytes of R263's column of check values. -/
def nine : List Byte := [0x31, 0x32, 0x33, 0x34, 0x35, 0x36, 0x37, 0x38, 0x39]

theorem test_crc32c : crc32c nine = 0xE3069283 := by decide +kernel
theorem test_crc16 : crc16 nine = 0x29B1 := by decide +kernel
theorem test_check_values :
    (upTo 4).map (fun p => nine.foldl (checkByte p) (checkInit p) ^^^ checkXor p) = [0xE3069283, 0xCBF43926, 0x6C40DF5F0B497347, 0x29B1] := by
  decide +kernel
/-- A codeword with four symbols wrong is corrected (R277: up to four symbols). -/
theorem test_rs_corrects_four :
    rsDecode ([9, 7, 0, 0, 0, 0, 0, 1023, 0, 0, 0, 0, 0, 0, 0, 512] ++ List.replicate 8 0) = some (4, List.replicate 24 0) := by
  decide +kernel
/-- R268: bits 00, 01, 11, 10 (high, low) are levels 0 to 3. -/
theorem test_gray : [grayLevel false false, grayLevel false true, grayLevel true true, grayLevel true false] = [0, 1, 2, 3] := by decide
theorem test_gray_back : (List.range 4).map (fun v => grayBits (BitVec.ofNat 2 v)) = [(false, false), (true, false), (true, true), (false, true)] := by decide
/-- A codeword dealt over seven lanes and gathered again, in the middle of a period (R276). -/
theorem test_deal_and_gather : gatherCodeword 7 5 (dealCodeword 7 5 ((List.range 136).map (BitVec.ofNat 10))) = (List.range 136).map (BitVec.ofNat 10) := by
  decide +kernel
/-- An encoded codeword has no error (R275). -/
theorem test_rs_encodes : rsDecode (rsEncode [1, 2, 3, 1023]) = some (0, rsEncode [1, 2, 3, 1023]) := by decide +kernel
/-- A block that was scrambled opens with its header and body (R271, R272). -/
theorem test_block_round : (openBlock scrStart (blockBits scrStart true 0x1234).1).1 = some (true, 0x1234) := by decide +kernel
/-- One plus one half, as binary32. -/
theorem test_fp32_sum : addFp32 0x3F800000 0x3F000000 = 0x3FC00000 := by decide +kernel
/-- binary16: the largest finite number and itself exceed the format. -/
theorem test_fp16_overflow : addHalf fmtFp16 0x7BFF 0x7BFF = 0x7C00 := by decide +kernel

/-! ### Steps -/

/-- A block with nothing waiting idles; only time passes (log 2). -/
theorem test_reset_idle : State.reset.pending = [] := by decide
/-- The front command is the one that runs, and the rest of the queue stays. -/
theorem test_step_takes_front :
    ∃ s', step { State.reset with pending := [.roundBoundary, .sweepLap [] []] } = .next s' ∧ s'.pending = [.sweepLap [] []] := ⟨_, rfl, by decide⟩
/-- A round boundary counts the round (R137). -/
theorem test_round_counts : ∃ s', exec .roundBoundary State.reset = .next s' ∧ s'.dev.sw.round = State.reset.dev.sw.round + 1 := ⟨_, rfl, by decide⟩

/-! ### Witnesses: states and operands that meet the hypotheses of the obligations -/

def base : Dev := { State.reset.dev with
  now := 1000000
  ident := { sampled := true, straps := ⟨1, 0, 0, 0, false, false⟩ }
  power := { mainOn := true, pllLocked := true, releaseStep := 3 }
  sw := { kamro := [(0, { up := true }), (1, { up := true })] }
  homes := [(0, { up := true }), (1, { up := true }), (2, { up := true }), (3, { up := true })]
  pool := { state := 1 }
  rt := { xw := 4 }
  prot := { slices := [(1, { state := 1 })], regions := [(0, { key := 7, valid := true, a := true, w := true, r := true, slice := 1, length := 8, base := 0 })] }
  tiles := { dies := [(0, { up := true }), (1, { up := true }), (2, { up := true }), (3, { up := true })] }
  host := { rings := [(0, { enable := true, cmdTail := 4, sizeLog2 := 6 })], fwReady := true } }
def on (f : Dev → Dev) : State := { State.reset with dev := f base }
def port (x : PortSt) : State := on fun d => { d with ports := [(0, x)] }
def up7 : PortSt := { txPwr := 0, rxPwr := 0, owed := List.replicate 9 0, released := List.replicate 9 0, lstate := 7, txLanes := 0xFF, rxLanes := 0xFF, role := 0x88, limit := List.replicate 9 500, allot := List.replicate 9 500 }
def two : State := on fun d => { d with ports := [(0, up7), (1, { up7 with role := 0x80 })] }
def transit : Frame := Frame.sealAll { dst := 0xC003, src := 0xC000, slice := 1, op := 0x01, length := 64, phase := true }
def posted : Frame := Frame.sealAll { dst := 0xC003, src := 0xC000, slice := 1, op := 0x03, length := 64, phase := true, payload := List.replicate 64 1 }
def qf : QFrame := { fid := 5, f := transit, inp := 0, out := 1, arrived := 1000000, whole := true, inVc := 2, orig := transit }
def queued (q : OutQueue) : State := on fun d => { d with ports := [(0, up7), (1, { up7 with role := 0x80 })], sw := { d.sw with queues := [(25 + 10, q)] } }
def linkFrame (op : BitVec 8) (n : Nat) (bs : List Byte) : Frame := Frame.sealAll { op := op, length := BitVec.ofNat 12 n, cls := .m, payload := bs }
def goodAlign (lane : Nat) : AlignBlock :=
  let body := le 22 (2 ^ 26 * 1 + lane)
  BitVec.ofNat 260 (commaBits + unle body * 2 ^ 64 + crc16 body * 2 ^ 240)
def pk (l : List (Nat × Nat)) : BitVec 384 := BitVec.ofNat 384 ((l.map fun e => e.2 * 2 ^ (8 * (e.1 - 16))).foldl (· + ·) 0)
def cmd (cls inst : Nat) (l : List (Nat × Nat)) : Cmd := { via := .ring 0, cls := BitVec.ofNat 8 cls, inst := BitVec.ofNat 24 inst, params := pk l }
def refCmd (cls inst : Nat) (l : List (Nat × Nat)) (n : Nat) (bs : List Byte) : Cmd :=
  { cmd cls inst (l ++ [(52, n), (56, 0x5000)]) with ref := some { bytes := bs } }
def env1 (role : BitVec 8) : Envelope := { role := role, rsv65 := 0, cred := 0, counter := 0, serial := Config.serial, rsv88 := 0, sigR := 0, sigS := 0 }
def sgn (role : BitVec 8) (c : Cmd) : Cmd := { c with env := some (env1 role) }
def spillq : State := queued { spilling := true, spillOpen := [qf] }
def blk0 : Nat := (spillq.dev.freeBlock 0).getD 0
def cw0 : List (BitVec 10) := ((periodCode (List.replicate 5 (false, 0))).getD 0 []).map (BitVec.ofNat 10)
def cwBad : List (BitVec 10) := (List.replicate 7 1) ++ List.replicate 129 0
def xent : XEntry := { slice := 1, svaPage := 5, big := false, node := 0xC001, frame := 3, key := 7, rights := 7 }
def job : CopyJob := { seq := 1, slice := 1, srcHost := true, dstHost := false, cls := .o, src := 0, dst := 5 * 2 ^ 29, length := 100, record := 0x1000, vector := 0xFFFF, dstPages := [xent] }
def xl (x : XlateSt) : State := on fun d => { d with xlate := x }


/-- A property of the value for absence and of every value listed holds of whatever a table is asked for. -/
theorem tget_all {α : Type} {P : α → Prop} {z : α} (hz : P z) : ∀ (t : Tbl α), (∀ e ∈ t, P e.2) → ∀ k, P (tget t k z)
  | [], _, _ => hz
  | (i, v) :: r, h, k => by
    by_cases hk : i = k
    · simpa [tget, hk] using h (i, v) (by simp)
    · simpa [tget, hk] using tget_all hz r (fun e he => h e (by simp [he])) k

theorem base_calm : base.calm :=
  ⟨fun h => tget_all (P := fun x : Home => x.ops = [] ∧ x.posted = [] ∧ x.flushes = [] ∧ x.heldIn = []) (by decide) base.homes
    (by decide) h, by decide⟩

/-- Bytes 8–15 of what follows two words read the serial number written there. -/
theorem serial_read (s : BitVec 64) (r : List Byte) : num (padTo 192 (le 4 1 ++ le 4 1 ++ le 8 s.toNat ++ r)) 8 8 = s.toNat := by
  have h := s.isLt
  have e : cut (padTo 192 (le 4 1 ++ le 4 1 ++ le 8 s.toNat ++ r)) 8 8 = le 8 s.toNat := by
    simp [cut, padTo, List.take_append, le, upTo, List.range_succ]
  rw [num, e]
  simp [le, unle, upTo, List.range_succ, Nat.shiftRight_eq_div_pow]
  omega

namespace W1



theorem witness_SwitchFramesMove :
    (∃ (s : State) (p : Port) (f : Frame) (f' : Frame) (o : Nat),
      (s.dev.kamro (dieOf p)).up = true ∧ s.dev.inService p = true ∧ (s.dev.port p).discarding = false ∧ f.hchkOk = true ∧ f.cls ≠ .m ∧
        transitReserved f = false ∧ p.val < 144 ∧ s.dev.isEdge p = false ∧ s.dev.tornDown f.slice.toNat = false ∧ (s.dev.countIn p
        f).routeFrame p f = (.out o f', []) ∧ f.area = 0 ∧ (¬ (o < 144 ∧ f'.hops = 63))) ∧
    (∃ (s : State) (p : Port) (fid : Nat) (c : CutFrame),
      s.dev.sw.rxOpen.find? (fun e => e.1 = p.val) = some (p.val, fid) ∧ s.dev.sw.cuts.find? (fun x => x.fid = fid) = some c ∧ (∀ x ∈
        s.dev.sw.cuts, x.fid = fid → x.flip = c.flip) ∧ (s.dev.port c.out).syncDue = false ∧ c.f.checkOk = true) ∧
    (∃ (s : State) (p : Port) (fid : Nat) (c : CutFrame),
      s.dev.sw.rxOpen.find? (fun e => e.1 = p.val) = some (p.val, fid) ∧ s.dev.sw.cuts.find? (fun x => x.fid = fid) = some c ∧ (∀ x ∈
        s.dev.sw.cuts, x.fid = fid → x.flip = c.flip) ∧ (s.dev.port c.out).syncDue = false ∧ c.f.checkOk = false) ∧
    (∃ (s : State) (k : Kamro) (x : QFrame),
      s.dev.crossing k [] (s.dev.kamro k).staging = [x]) ∧
    (∃ (s : State) (p : Port) (q : Nat) (x : QFrame),
      s.dev.outputReady p = true ∧
      let d := (eachOf (upTo 25) s.dev fun d q => d.purgeQueue p q).countPressed p
      let hs := d.heads p
      let c := d.countWaits p hs
      let ok := hs.filter fun h => c.creditCovers p h.2.f
      let e := if ok.length < hs.length then c.sendWake p else c
      let gOk := decide (tget e.sw.gSent p 0 < e.gAllot p)
      pickHead e.now (tget e.sw.rr p 0) gOk ok = some (q, x)) :=
  ⟨⟨two, 0, transit, transit, 1, by decide +kernel⟩,
   ⟨on fun d => { d with ports := [(0, up7)], sw := { d.sw with rxOpen := [(0, 5)], cuts := [⟨5, 0, 1, posted, true⟩] } }, 0, 5, ⟨5, 0, 1,
     posted, true⟩, by decide +kernel⟩,
   ⟨on fun d => { d with ports := [(0, up7)], sw := { d.sw with rxOpen := [(0, 5)], cuts := [⟨5, 0, 1, { posted with fcheck := 0 }, false⟩] } },
     0, 5, ⟨5, 0, 1, { posted with fcheck := 0 }, false⟩, by decide +kernel⟩,
   ⟨on fun d => { d with ports := [(0, up7), (72, up7)], sw := { d.sw with kamro := [(0, { up := true, staging := [{ qf with out := 72 }] }), (1, { up := true })] } },
     0, { qf with out := 72 }, by decide +kernel⟩,
   ⟨queued { sram := [qf] }, 1, 10, qf, by decide +kernel⟩⟩

theorem witness_SpillRoundAndRepeats :
    (∃ (s : State) (p : Port) (c : TClass) (vc : Fin 9) (blk : List QFrame) (b : Nat),
      let q := queueNo c vc
      blockOf 4096 (s.dev.queue p q).spillOpen = blk ∧ blk ≠ [] ∧ s.dev.pool.state ≠ 0 ∧ s.dev.freeBlock (dieOf p) = some b ∧
        s.dev.spillPath (dieOf p) b = true ∧ s.dev.mayBlock b = true) ∧
    (∃ (s : State) (p : Port) (c : TClass) (vc : Fin 9) (x : QFrame) (r : List QFrame) (b : Nat),
      let q := queueNo c vc
      (s.dev.queue p q).spilled = x :: r ∧ (s.dev.queue p q).sramFlits < 16384 ∧ s.dev.partUsed (dieOf p) 1 + x.f.flits ≤ partFlits 1 ∧
        x.blk = some b ∧ s.dev.spillPath (dieOf p) b = true ∧ s.dev.mayBlock b = true) ∧
    (∃ (s : State) (p : Port) (c : TClass) (vc : Fin 9),
      (s.dev.queue p (queueNo c vc)).spilled = [] ∧ (s.dev.queue p (queueNo c vc)).spillOpen = []) ∧
    (∃ (s : State),
      s.dev.relay.groups = [] ∧ s.dev.relay.waitWrites = [] ∧ s.dev.sw.gWait = [] ∧ s.dev.sw.roundWaits = [] ∧ s.dev.xlate.copies = []) ∧
    (∃ (s : State) (p : ExtPort),
      (s.dev.port p).repeats ≠ [] ∧ (s.dev.port p).txPwr = 0) :=
  ⟨⟨spillq, 1, .o, 2, [qf], blk0, by decide +kernel⟩,
   ⟨queued { spilling := true, spilled := [{ qf with blk := some blk0 }] }, 1, .o, 2, { qf with blk := some blk0 }, [], blk0,
     by decide +kernel⟩,
   ⟨queued { spilling := true }, 1, .o, 2, by decide +kernel⟩,
   ⟨on fun d => { d with resvs := [(3, { fields := { flits := 10, input := 0, output := 1, valid := true } })] }, by decide +kernel⟩,
   ⟨port { up7 with repeats := List.replicate 6 ⟨9, true⟩ }, 0, by decide +kernel⟩⟩

theorem witness_CreditBlocks :
    (∃ (s : State) (p : ExtPort) (b : CtrlBlock),
      4 ≤ (s.dev.port p).lstate ∧ (s.dev.port p).lstate ≤ 7 ∧ cchkOk b = true ∧ ctype b = 0x01 ∧ (cbNum b 1 1).testBit 0 = false) ∧
    (∃ (s : State) (p : ExtPort),
      6 ≤ (s.dev.port p).lstate ∧ (s.dev.port p).lstate ≤ 7 ∧ (s.dev.port p).txPwr = 0) ∧
    (∃ (s : State) (p : ExtPort) (b : CtrlBlock),
      4 ≤ (s.dev.port p).lstate ∧ (s.dev.port p).lstate ≤ 7 ∧ cchkOk b = true ∧ ctype b = 0x03 ∧ (s.dev.port p).owed = List.replicate 9 0
        ∧ (s.dev.port p).released.length = 9) :=
  ⟨⟨port { up7 with lstate := 4 }, 0, mkCtrl ([0x01, 0] ++ le 2 900), by decide +kernel⟩,
   ⟨port { up7 with lstate := 6 }, 0, by decide +kernel⟩,
   ⟨port up7, 0, mkCtrl ([0x03, 0] ++ le 2 900), by decide +kernel⟩⟩

theorem witness_WidthRequests :
    (∃ (s : State) (p : ExtPort) (b : CtrlBlock),
      4 ≤ (s.dev.port p).lstate ∧ (s.dev.port p).lstate ≤ 7 ∧ cchkOk b = true ∧ ctype b = 0x04 ∧ cbNum b 2 1 ≠ 0 ∧ cbNum b 4 1 = 0 ∧
        (cbNum b 3 1).testBit 0 = false ∧ (cbNum b 5 1).testBit 0 = false ∧ (∀ r, (s.dev.port p).widthApplied = some r → r.seq ≠ cbNum b 1
        1)) ∧
    (∃ (s : State) (p : ExtPort) (r : WidthReq),
      (s.dev.port p).widthOut = some r ∧ (s.dev.port p).txPwr = 0) ∧
    (∃ (s : State) (p : ExtPort),
      (s.dev.port p).widthOut.isSome = true) :=
  ⟨⟨port { up7 with widthApplied := some ⟨1, 0x0F, false, 0, false⟩ }, 0, mkCtrl [0x04, 2, 0x0F, 0, 0, 0], by decide +kernel⟩,
   ⟨port { up7 with widthOut := some ⟨1, 0x0F, false, 0, false⟩ }, 0, ⟨1, 0x0F, false, 0, false⟩, by decide +kernel⟩,
   ⟨port { up7 with widthOut := some ⟨1, 0x0F, false, 0, false⟩ }, 0, by decide +kernel⟩⟩

theorem witness_LinkPowerStates :
    (∃ (s : State) (p : ExtPort) (b : CtrlBlock),
      4 ≤ (s.dev.port p).lstate ∧ (s.dev.port p).lstate ≤ 7 ∧ cchkOk b = true ∧ ctype b = 0x05 ∧ (cbNum b 1 1 % 4 = 1 ∨ cbNum b 1 1 % 4 =
        2)) ∧
    (∃ (s : State) (p : ExtPort) (b : CtrlBlock),
      4 ≤ (s.dev.port p).lstate ∧ (s.dev.port p).lstate ≤ 7 ∧ cchkOk b = true ∧ ctype b = 0x07 ∧ ((s.dev.port p).txPwr = 1 ∨ (s.dev.port
        p).txPwr = 2)) ∧
    (∃ (s : State) (p : ExtPort),
      (s.dev.port p).lstate = 7 ∧ (s.dev.port p).txPwr = 0 ∧ 1 ≤ (s.dev.port p).pwrPolicy ∧ s.dev.hasQueued p = false ∧
        s.dev.reservedOutput p = false) ∧
    (∃ (s : State) (p : ExtPort),
      (s.dev.port p).lstate = 7 ∧ (s.dev.port p).txPwr = 1 ∧ (s.dev.port p).pwrPolicy = 2 ∧ s.dev.hasQueued p = false ∧
        s.dev.reservedOutput p = false) ∧
    (∃ (s : State) (p : ExtPort),
      s.dev.hasQueued p = true ∧ ((s.dev.port p).txPwr = 1 ∨ (s.dev.port p).txPwr = 2)) :=
  ⟨⟨port up7, 0, mkCtrl [0x05, 1], by decide +kernel⟩,
   ⟨port { up7 with txPwr := 2 }, 0, mkCtrl [0x07], by decide +kernel⟩,
   ⟨port { up7 with pwrPolicy := 1 }, 0, by decide +kernel⟩,
   ⟨port { up7 with pwrPolicy := 2, txPwr := 1 }, 0, by decide +kernel⟩,
   ⟨on fun d => { d with ports := [(0, up7), (1, { up7 with role := 0x80, txPwr := 1 })], sw := { d.sw with queues := [(25 + 10, { sram := [qf] })] } },
     1, by decide +kernel⟩⟩

set_option maxRecDepth 20000 in
theorem witness_BringUpStages :
    (∃ (s : State) (p : ExtPort),
      (s.dev.port p).lstate = 1 ∧ s.dev.host.handover = false) ∧
    (∃ (s : State) (p : ExtPort),
      (s.dev.port p).lstate = 1) ∧
    (∃ (s : State) (p : ExtPort),
      (s.dev.port p).lstate = 2 ∧ s.dev.host.handover = false) ∧
    (∃ (s : State) (p : ExtPort) (pass : BitVec 8),
      (s.dev.port p).lstate = 4 ∧ s.dev.host.handover = false ∧ ((s.dev.port p).rxWanted.all fun l => pass.getLsbD l) = true) ∧
    (∃ (s : State) (p : ExtPort),
      (s.dev.port p).lstate = 6 ∧ s.dev.host.handover = false) ∧
    (∃ (s : State),
      s.dev.host.handover = true) ∧
    (∃ (s : State) (p : ExtPort) (levels : List (List (BitVec 2))) (n : Nat) (w : List Nat),
      let x := s.dev.port p
      let lanes := bitsOf 8 x.rxLanes.toNat
      let cw := (gatherCodeword lanes.length x.rxCw (x.corrected' lanes levels)).map (·.toNat)
      let msg := (w.take 128).map (BitVec.ofNat 10)
      4 ≤ x.lstate ∧ x.lstate ≤ 7 ∧ x.rxPwr = 0 ∧ x.loop ≠ 7 ∧ s.dev.host.handover = false ∧ rsDecode cw = some (n, w) ∧ ((takeMessage x
        msg).1.all fun b => b.isSome) = true) ∧
    (∃ (s : State) (p : ExtPort) (levels : List (List (BitVec 2))),
      let x := s.dev.port p
      let lanes := bitsOf 8 x.rxLanes.toNat
      let cw := gatherCodeword lanes.length x.rxCw (x.corrected' lanes levels)
      6 ≤ x.lstate ∧ x.lstate ≤ 7 ∧ x.rxPwr = 0 ∧ x.loop ≠ 7 ∧ rsDecode (cw.map (·.toNat)) = none) ∧
    (∃ (s : State) (p : ExtPort) (lane : Fin 8) (b : AlignBlock),
      let c := if ((s.dev.port p).lane lane).inverted then invertBlock b else b
      (s.dev.port p).lstate = 7 ∧ achkOk c = true ∧ commaOk c = true ∧ field c.toNat 64 4 = lane.val ∧ (s.dev.port p).widthOut = none ∧
        (s.dev.port p).fallbackHold = false ∧ (s.dev.port p).rxMapped.getLsbD lane.val = false) ∧
    (∃ (s : State) (p : ExtPort),
      (s.dev.port p).lstate = 7 ∧ (s.dev.port p).txPwr = 1) :=
  ⟨⟨port { up7 with lstate := 1 }, 0, by decide +kernel⟩,
   ⟨port { up7 with lstate := 1 }, 0, by decide +kernel⟩,
   ⟨port { up7 with lstate := 2 }, 0, by decide +kernel⟩,
   ⟨port { up7 with lstate := 4 }, 0, 0xFF, by decide +kernel⟩,
   ⟨port { up7 with lstate := 6 }, 0, by decide +kernel⟩,
   ⟨on fun d => { d with ports := [(0, { up7 with lstate := 2 })], host := { d.host with handover := true } }, by decide +kernel⟩,
   ⟨port { up7 with lstate := 5, lanes := [(0, { inverted := true })], fecGood := 3 }, 0,
     (dealCodeword 8 0 cw0).mapIdx fun (i : Nat) (l : List (BitVec 2)) => if i = 0 then l.map BitVec.not else l, 0,
     cw0.map (fun (x : BitVec 10) => x.toNat), by decide +kernel⟩,
   ⟨port { up7 with lanes := [(0, {})] }, 0, dealCodeword 8 0 cwBad, by decide +kernel⟩,
   ⟨port up7, 0, 7, goodAlign 7, by decide +kernel⟩,
   ⟨port { up7 with txPwr := 1, period := 0xFFFF }, 0, by decide +kernel⟩⟩

theorem witness_LaneAndClockFailures :
    (∃ (s : State) (p : ExtPort) (lane : Fin 8),
      (s.dev.port p).detects = true ∧ (s.dev.port p).rxMapped.getLsbD lane = false) ∧
    (∃ (s : State) (p : ExtPort) (lane : Fin 8),
      (s.dev.port p).detects = true ∧ (s.dev.port p).rxMapped.getLsbD lane = false) ∧
    (∃ (s : State) (p : ExtPort),
      (s.dev.port p).detects = true ∧ (s.dev.port p).rxMapped.getLsbD 8 = false) ∧
    (∃ (s : State) (p : ExtPort),
      (s.dev.port p).fallbackHold = true) ∧
    (∃ (s : State) (p : ExtPort) (vc : Fin 9) (q : Nat) (x : QFrame) (r : List QFrame),
      (s.dev.port p).lstate = 7 ∧ (s.dev.port p).txPwr = 0 ∧ (s.dev.port p).rxPwr = 0 ∧ q < 25 ∧ (s.dev.queue p q).sram = x :: r ∧ x.f.vc
        = vc.val ∧ s.dev.creditCovers p x.f = false) :=
  ⟨⟨port { up7 with lstate := 2 }, 0, 7, by decide +kernel⟩,
   ⟨port up7, 0, 7, by decide +kernel⟩,
   ⟨port { up7 with lstate := 2 }, 0, by decide +kernel⟩,
   ⟨port { up7 with fallbackHold := true }, 0, by decide +kernel⟩,
   ⟨on fun d => { d with ports := [(1, { up7 with limit := List.replicate 9 0 })], sw := { d.sw with queues := [(25 + 10, { sram := [qf] })] } },
     1, 2, 10, qf, [], by decide +kernel⟩⟩

theorem witness_BundlesAndChecks :
    (∃ (s : State) (dir : Dir),
      (s.dev.detour dir).state = 1) ∧
    (∃ (s : State) (dir : Dir),
      (s.dev.detour dir).started = false ∧ linkAllowed s.dev.rt s.dev.rack dir = true ∧ (s.dev.detour dir).state = 0 ∧ ((s.dev.bundle
        dir).any s.dev.inService) = false) ∧
    (∃ (s : State) (p : ExtPort),
      (s.dev.port p).lstate = 7 ∧ s.dev.checksSuspended p = false) ∧
    (∃ (s : State) (p : ExtPort) (errs : List Nat) (bits : Nat),
      (s.dev.port p).checkRunning = true ∧ (∀ l, l ∈ bitsOf 8 (s.dev.port p).rxLanes.toNat → errs.getD l 0 * 2000000 ≤ bits)) :=
  ⟨⟨on fun d => { d with rt := { d.rt with detours := ([{ side := 2, state := 1, probeTag := some 4 }] : List Detour) ++ d.rt.detours.drop 1 } },
    0, by decide +kernel⟩,
   ⟨port up7, 0, by decide +kernel⟩,
   ⟨port up7, 0, by decide +kernel⟩,
   ⟨port { up7 with checkRunning := true }, 0, List.replicate 8 1, 2000000, by decide +kernel⟩⟩

theorem witness_LinkLocalFrames :
    (∃ (s : State) (p : ExtPort) (f : Frame) (op : Nat) (len : Nat),
      (s.dev.port p).discarding = false ∧ f.hchkOk = true ∧ f.checkOk = true ∧ f.op.toNat = op ∧ f.cls = .m ∧ f.hops = 0 ∧
        f.payload.length = len ∧ (s.dev.port p).lstate = 6 ∧ op = 0x52 ∧ len = 32 ∧ (s.dev.port p).kind = 2 ∧ torusCheck s.dev p f.payload
        = 0) ∧
    (∃ (s : State) (p : ExtPort) (f : Frame) (op : Nat) (len : Nat),
      (s.dev.port p).discarding = false ∧ f.hchkOk = true ∧ f.checkOk = true ∧ f.op.toNat = op ∧ f.cls = .m ∧ f.hops = 0 ∧
        f.payload.length = len ∧ (s.dev.port p).lstate = 6 ∧ op = 0x50 ∧ len = 32 ∧ (s.dev.port p).kind = 1 ∧ profileFits f.payload =
        true) ∧
    (∃ (s : State) (p : ExtPort) (f : Frame) (op : Nat) (len : Nat),
      (s.dev.port p).discarding = false ∧ f.hchkOk = true ∧ f.checkOk = true ∧ f.op.toNat = op ∧ f.cls = .m ∧ f.hops = 0 ∧
        f.payload.length = len ∧ (s.dev.port p).lstate = 6 ∧ op = 0x53 ∧ len = 32) ∧
    (∃ (s : State) (p : ExtPort) (f : Frame) (op : Nat) (len : Nat),
      (s.dev.port p).discarding = false ∧ f.hchkOk = true ∧ f.checkOk = true ∧ f.op.toNat = op ∧ f.cls = .m ∧ f.hops = 0 ∧
        f.payload.length = len ∧ (s.dev.port p).lstate = 6 ∧ op = 0x54 ∧ len = 16) ∧
    (∃ (s : State) (p : ExtPort) (f : Frame) (op : Nat) (len : Nat),
      (s.dev.port p).discarding = false ∧ f.hchkOk = true ∧ f.checkOk = true ∧ f.op.toNat = op ∧ f.cls = .m ∧ f.hops = 0 ∧
        f.payload.length = len ∧ (s.dev.port p).lstate = 6 ∧ op = 0x55 ∧ len = 16 ∧ (s.dev.port p).rttSamples.length < 7) ∧
    (∃ (s : State) (p : ExtPort) (f : Frame) (op : Nat) (len : Nat),
      (s.dev.port p).discarding = false ∧ f.hchkOk = true ∧ f.checkOk = true ∧ f.op.toNat = op ∧ f.cls = .m ∧ f.hops = 0 ∧
        f.payload.length = len ∧ (s.dev.port p).lstate = 6 ∧ op = 0x56 ∧ len = 8) ∧
    (∃ (s : State) (p : ExtPort) (f : Frame) (op : Nat) (len : Nat),
      (s.dev.port p).discarding = false ∧ f.hchkOk = true ∧ f.checkOk = true ∧ f.op.toNat = op ∧ f.cls = .m ∧ f.hops = 0 ∧
        f.payload.length = len ∧ (s.dev.port p).lstate = 6 ∧ op = 0x57 ∧ len = 8) :=
  ⟨⟨port { up7 with lstate := 6 }, 0,
    linkFrame 0x52 32 (le 2 1 ++ le 2 0 ++ [0, 0x80] ++ zeros 2 ++ le 4 (domainWord base.rt) ++ zeros 20), 0x52, 32, by decide +kernel⟩,
   ⟨port { up7 with lstate := 6, role := 0x40 }, 0,
     linkFrame 0x50 32 (le 2 1 ++ le 2 16384 ++ le 2 64 ++ [1, 21] ++ le 4 16384 ++ le 2 1024 ++ zeros 18), 0x50, 32, by decide +kernel⟩,
   ⟨port { up7 with lstate := 6 }, 0, linkFrame 0x53 32 (List.replicate 32 1), 0x53, 32, by decide +kernel⟩,
   ⟨port { up7 with lstate := 6 }, 0, linkFrame 0x54 16 (List.replicate 16 1), 0x54, 16, by decide +kernel⟩,
   ⟨port { up7 with lstate := 6 }, 0, linkFrame 0x55 16 (List.replicate 16 0), 0x55, 16, by decide +kernel⟩,
   ⟨port { up7 with lstate := 6 }, 0, linkFrame 0x56 8 (List.replicate 8 0), 0x56, 8, by decide +kernel⟩,
   ⟨port { up7 with lstate := 6 }, 0, linkFrame 0x57 8 (List.replicate 8 0), 0x57, 8, by decide +kernel⟩⟩

end W1

namespace W2

def poolFrame (op : BitVec 8) (off : BitVec 48) (len : Nat) (pl : List Byte) : Frame :=
  Frame.sealAll { dst := 0xC001, src := 0xC000, offset := off, key := 7, slice := 1, op := op, length := BitVec.ofNat 12 len, payload := pl }
def opFrame (op : Nat) : Frame :=
  let len := if op = opLOAD || op = opSTORE || op = opSTORE_POSTED || op = opREDUCE_STORE then 64
    else if op = opSTORE_MASKED || op = opSTORE_MASKED_POSTED then 72 else if op = opCAS then 8 else 4
  Frame.sealAll { poolFrame (BitVec.ofNat 8 op) 0 len (zeros (if op = opCAS then 16 else len)) with dtype := if op = opREDUCE_STORE then 4 else 0 }
def r0 : Region := { key := 7, valid := true, a := true, w := true, r := true, slice := 1, length := 8, base := 0 }
def op1 : HomeOp := { id := 3, pp := 0, f := poolFrame 0x02 0 128 (List.replicate 128 9), issued := 1, region := some 0, slice := 1 }
def op2 : HomeOp := { id := 3, pp := 0, f := poolFrame 0x02 0 64 (List.replicate 64 9), issued := 1, region := some 0, slice := 1 }
def home0 (h : Home) : State := on fun d => { d with homes := [(0, h)] }
def flying : OutOp := { tag := 0x00040001, ep := 0, inp := 144, f := poolFrame 0x01 0 64 [], why := .window 3 none, phase := .flying }
def reqs (ops : List OutOp) : State := on fun d => { d with req := { d.req with streams := [{ stream := 1, ep := 0, inp := 144, cls := .o, slice := 1 }], ops := ops } }
def later (op : BitVec 8) : Frame := Frame.sealAll { dst := 0xC001, src := 0xC000, tag := 0x00040001, slice := 1, op := op, key := 0x08 }
def answer (op : BitVec 8) (n : Nat) : Frame := Frame.sealAll { dst := 0xC001, src := 0xC000, tag := 0x00040001, slice := 1, op := op, length := BitVec.ofNat 12 n, payload := List.replicate n 3 }
def lim : Limiter := { ep := 0, node := 0xC000, rate := 2 ^ 40 }
def combE : CombEntry := { id := 2, st := .opened, node := 0xC001, offset := 0, length := 4, dtype := 0, kind := 0, key := 7, slice := 1, members := [⟨poolFrame 0x10 0 4 [1, 0, 0, 0], 0, false⟩] }
def comb (e : CombEntry) : State := on fun d => { d with sw := { d.sw with kamro := [(0, { up := true, combine := [e], records := [⟨0xC000, 0, none⟩] })] } }
def grp : Group := { key := 5, launchSeq := 4, state := 1, slice := 1, depth := 8, elements := 100, dtype := 0, xSet := 2, ySet := 1, zSet := 1, timeout := 100, members := [⟨1, 0, 9, 64⟩, ⟨2, 0, 9, 64⟩] }
def grp2 : Group := { grp with xSet := 6, members := [⟨1, 0, 9, 64⟩, ⟨3, 0, 9, 64⟩] }
def mem3 : Tbl NodeEntry := [(1, { valid := true, rack := 128, edgePort := 10 }), (2, { valid := true, rack := 128, edgePort := 11 }), (3, { valid := true, rack := 256, edgePort := 10 })]
def relay (g : Group) : State := on fun d => { d with relay := { d.relay with groups := [(0, g)] }, rt := { d.rt with nodes := mem3 } }
def runs : Launch := { }
def relayF (off : BitVec 48) (op : BitVec 8) (cls : TClass) (len : Nat) (pl : List Byte) : Frame :=
  Frame.sealAll { dst := 0xC001, src := 1, offset := off, key := 5, slice := 1, op := op, cls := cls, length := BitVec.ofNat 12 len, payload := pl }
def ringF (op : BitVec 8) (pl : List Byte) : Frame := Frame.sealAll { dst := 0xC001, src := 0xC002, offset := 0x800100000000, key := 5, slice := 1, op := op, cls := .g, length := BitVec.ofNat 12 pl.length, payload := pl }
def step1 : RingStep := { id := 0, dst := 0xC002, chunk := 0, axis := 0, gather := false, step := 1, frames := [ringF 0x60 (List.replicate 16 0)] }
def run3 (g : Group) (l : Launch) : State := relay { g with state := 3, launch := some l }

theorem witness_HomeOpsPerform :
    ∀ e ∈ [(Instr.load, opLOAD), (Instr.store, opSTORE), (Instr.storePosted, opSTORE_POSTED), (Instr.storeMasked, opSTORE_MASKED),
      (Instr.storeMaskedPosted, opSTORE_MASKED_POSTED), (Instr.atomicAdd, 0x10), (Instr.atomicMin, 0x11), (Instr.atomicMax, 0x12),
      (Instr.fetchAdd, 0x14), (Instr.fetchMin, 0x15), (Instr.fetchMax, 0x16), (Instr.cas, opCAS), (Instr.reduceStore, opREDUCE_STORE)],
      ∃ (s : State) (pp : PoolPort) (f : Frame) (i : Nat) (r : Region) (line : Nat),
        s.dev.calm ∧ (s.dev.home (pp.val / 4)).up = true ∧ f.op.toNat = e.2 ∧ f.hchkOk = true ∧ f.checkOk = true ∧ f.conf = false ∧ f.cm =
          false ∧ f.resend = false ∧ s.dev.tornDown f.slice.toNat = false ∧ (usesDtype e.2 = true → f.dtype.toNat < 8) ∧ (s.dev.home
          (pp.val / 4)).dedupe = [] ∧ s.dev.pool.state ≠ 0 ∧ s.dev.disabled f.slice.toNat 3 = false ∧ inPool f.offset.toNat = true ∧
          formOk f = true ∧ alignedOk f = true ∧ opLines f = [line] ∧ s.dev.isMirror f = false ∧ s.dev.judge f (touched f) = .ok (i, r) ∧
          s.dev.dieLost line = false ∧ s.dev.pool.isMappedOut (pageOfLine line) = false ∧ (s.dev.pool.lineMeta line).poison = false := by
  intro e he
  refine ⟨on id, 0, opFrame e.2, 0, r0, 0, base_calm, ?_⟩
  simp only [List.mem_cons, List.not_mem_nil, or_false] at he
  rcases he with rfl | rfl | rfl | rfl | rfl | rfl | rfl | rfl | rfl | rfl | rfl | rfl | rfl <;> decide +kernel

theorem witness_HomeArrivals :
    (∃ (s : State) (pp : PoolPort) (f : Frame),
      s.dev.calm ∧ (s.dev.home (pp.val / 4)).up = true ∧ f.hchkOk = true ∧ f.checkOk = true ∧ f.conf = false ∧ f.cm = false ∧ f.resend =
        false ∧ s.dev.tornDown f.slice.toNat = false ∧ (s.dev.home (pp.val / 4)).dedupe = [] ∧ s.dev.pool.state ≠ 0 ∧ s.dev.disabled
        f.slice.toNat 3 = false ∧ inPool f.offset.toNat = true ∧ f.op = 0x06 ∧ f.length = 0) ∧
    (∃ (s : State) (pp : PoolPort) (f : Frame), ∃ g,
      s.dev.calm ∧ (s.dev.home (pp.val / 4)).up = true ∧ f.hchkOk = true ∧ f.checkOk = true ∧ f.conf = false ∧ f.cm = false ∧ f.resend =
        false ∧ s.dev.tornDown f.slice.toNat = false ∧ (s.dev.home (pp.val / 4)).dedupe = [] ∧ s.dev.pool.state ≠ 0 ∧ s.dev.disabled
        f.slice.toNat 3 = false ∧ inPool f.offset.toNat = true ∧ g ∈ [(Instr.load, opLOAD), (Instr.store, opSTORE), (Instr.storeMasked,
        opSTORE_MASKED), (Instr.atomicAdd, 0x10), (Instr.atomicMin, 0x11), (Instr.atomicMax, 0x12), (Instr.fetchAdd, 0x14),
        (Instr.fetchMin, 0x15), (Instr.fetchMax, 0x16), (Instr.cas, opCAS), (Instr.reduceStore, opREDUCE_STORE)] ∧ f.op.toNat = g.2 ∧
        (usesDtype g.2 = true → f.dtype.toNat < 8) ∧ formOk f = false) ∧
    (∃ (s : State) (pp : PoolPort) (f : Frame), ∃ g,
      s.dev.calm ∧ (s.dev.home (pp.val / 4)).up = true ∧ f.hchkOk = true ∧ f.checkOk = true ∧ f.conf = false ∧ f.cm = false ∧ f.resend =
        false ∧ s.dev.tornDown f.slice.toNat = false ∧ (s.dev.home (pp.val / 4)).dedupe = [] ∧ s.dev.pool.state ≠ 0 ∧ s.dev.disabled
        f.slice.toNat 3 = false ∧ inPool f.offset.toNat = true ∧ g ∈ [(Instr.load, opLOAD), (Instr.store, opSTORE), (Instr.storeMasked,
        opSTORE_MASKED), (Instr.atomicAdd, 0x10), (Instr.atomicMin, 0x11), (Instr.atomicMax, 0x12), (Instr.fetchAdd, 0x14),
        (Instr.fetchMin, 0x15), (Instr.fetchMax, 0x16), (Instr.cas, opCAS), (Instr.reduceStore, opREDUCE_STORE)] ∧ f.op.toNat = g.2 ∧
        (usesDtype g.2 = true → f.dtype.toNat < 8) ∧ formOk f = true ∧ alignedOk f = false) ∧
    (∃ (s : State) (pp : PoolPort) (f : Frame) (e : HomeEnv), ∃ g,
      s.dev.calm ∧ (s.dev.home (pp.val / 4)).up = true ∧ f.hchkOk = true ∧ f.checkOk = true ∧ f.conf = false ∧ f.cm = false ∧ f.resend =
        false ∧ s.dev.tornDown f.slice.toNat = false ∧ (s.dev.home (pp.val / 4)).dedupe = [] ∧ s.dev.pool.state ≠ 0 ∧ s.dev.disabled
        f.slice.toNat 3 = false ∧ inPool f.offset.toNat = true ∧ g ∈ [(Instr.load, opLOAD), (Instr.store, opSTORE), (Instr.storeMasked,
        opSTORE_MASKED), (Instr.atomicAdd, 0x10), (Instr.atomicMin, 0x11), (Instr.atomicMax, 0x12), (Instr.fetchAdd, 0x14),
        (Instr.fetchMin, 0x15), (Instr.fetchMax, 0x16), (Instr.cas, opCAS), (Instr.reduceStore, opREDUCE_STORE)] ∧ f.op.toNat = g.2 ∧
        (usesDtype g.2 = true → f.dtype.toNat < 8) ∧ formOk f = true ∧ alignedOk f = true ∧ e.atOnce = false) :=
  ⟨⟨on id, 0, poolFrame 0x06 0 0 [], by (refine ⟨base_calm, ?_⟩; decide +kernel)⟩,
   ⟨on id, 0, poolFrame 0x01 0 0 [], (Instr.load, opLOAD),
     by (refine ⟨base_calm, by decide +kernel, by decide +kernel, by decide +kernel, by decide +kernel, by decide +kernel, by decide +kernel, by decide +kernel, by decide +kernel, by decide +kernel, by decide +kernel, by decide +kernel, by simp, ?_⟩; decide +kernel)⟩,
   ⟨on id, 0, poolFrame 0x18 4 8 (List.replicate 16 0), (Instr.cas, opCAS),
     by (refine ⟨base_calm, by decide +kernel, by decide +kernel, by decide +kernel, by decide +kernel, by decide +kernel, by decide +kernel, by decide +kernel, by decide +kernel, by decide +kernel, by decide +kernel, by decide +kernel, by simp, ?_⟩; decide +kernel)⟩,
   ⟨on id, 0, poolFrame 0x02 0 64 (List.replicate 64 9), { atOnce := false }, (Instr.store, opSTORE),
     by (refine ⟨base_calm, by decide +kernel, by decide +kernel, by decide +kernel, by decide +kernel, by decide +kernel, by decide +kernel, by decide +kernel, by decide +kernel, by decide +kernel, by decide +kernel, by decide +kernel, by simp, ?_⟩; decide +kernel)⟩⟩

theorem witness_HomeSteps :
    (∃ (s : State) (h : PoolDie) (id : Nat) (line : Nat) (o : HomeOp),
      s.dev.hop h id = some o ∧ s.dev.stepReady h o = true ∧ o.issued ≠ 0 ∧ (opLines o.f)[o.issued]? = some line ∧ s.dev.dieLost line =
        false ∧ s.dev.lineTakes line = true) ∧
    (∃ (s : State) (h : Nat) (line : Nat) (st : LineStep) (q : List LineStep) (o : HomeOp) (r : Nat),
      tget s.dev.pool.lineQ line [] = st :: q ∧ st.home = h ∧ s.dev.pool.lineHeld = [] ∧ s.dev.pool.bankHeld line = false ∧ s.dev.hop h
        st.op = some o ∧ isMultiWrite o.f = false ∧ s.dev.pool.isMappedOut (pageOfLine line) = false ∧ (s.dev.pool.lineMeta line).poison =
        false ∧ o.region = some r ∧ o.got.length + 1 = (opLines o.f).length ∧ s.dev.mayStep (chanOf (64 * line)) 1 = true) ∧
    (∃ (s : State) (h : PoolDie) (id : Nat) (r : Nat) (o : HomeOp),
      s.dev.hop h id = some o ∧ o.fail = none ∧ isMultiWrite o.f = true ∧ o.held.length = (opLines o.f).length ∧ o.region = some r) ∧
    (∃ (s : State) (h : PoolDie) (e : HomeEnv) (o : HomeOp),
      (s.dev.home h).posted.find? (fun o => s.dev.postedReady h o) = some o ∧ e.atOnce = false) :=
  ⟨⟨home0 { up := true, ops := [{ op1 with held := [0] }] }, 0, 3, 1, { op1 with held := [0] }, by decide +kernel⟩,
   ⟨on fun d => { d with homes := [(0, { up := true, ops := [op2] })], pool := { d.pool with lineQ := [(0, [⟨0, 3⟩])] } }, 0, 0, ⟨0, 3⟩,
     [], op2, 0, by decide +kernel⟩,
   ⟨home0 { up := true, ops := [{ op1 with issued := 2, held := [0, 1] }] }, 0, 3, 0, { op1 with issued := 2, held := [0, 1] },
     by decide +kernel⟩,
   ⟨home0 { up := true, posted := [{ op2 with f := poolFrame 0x03 0 64 (List.replicate 64 9), issued := 0, region := none, slice := 0 }] },
     0, { atOnce := false }, { op2 with f := poolFrame 0x03 0 64 (List.replicate 64 9), issued := 0, region := none, slice := 0 },
     by decide +kernel⟩⟩

theorem witness_PoolEvents :
    (∃ (s : State) (ch : Fin 384) (r : RowRepair),
      s.dev.pool.repairing.find? (fun x => x.chan = ch.val) = some r) ∧
    (∃ (s : State),
      s.dev.pool.state = 0 ∧ 2 ≤ s.dev.power.releaseStep) ∧
    (∃ (s : State) (die : PoolDie),
      s.dev.pool.diesLost = [die.val] ∧ s.dev.pool.mappedExtra = []) ∧
    (∃ (s : State) (id : Nat),
      s.dev.pool.areaChange = some id) ∧
    (∃ (s : State) (die : PoolDie) (ctx : Fin 16) (ecc : List (Nat × Ecc)) (reg : Nat) (n : Nat) (d : Dev),
      let i := 16 * die.val + ctx.val
      let c := s.dev.checkCtx i
      c.state = 1 ∧ c.mode = 0 ∧ c.cont = false ∧ s.dev.checkScan c ecc (linePieces c.offset c.length) (checkInit c.poly) 0 = ((reg, n,
        none), d)) ∧
    (∃ (s : State),
      s.dev.host.handover = false) :=
  ⟨⟨on fun d => { d with pool := { d.pool with repairing := [⟨3, 1, 2⟩] } }, 3, ⟨3, 1, 2⟩, by decide +kernel⟩,
   ⟨on fun d => { d with pool := { d.pool with state := 0 } }, by decide +kernel⟩,
   ⟨on fun d => { d with pool := { d.pool with state := 3, diesLost := [0] } }, 0, by decide +kernel⟩,
   ⟨on fun d => { d with pool := { d.pool with areaChange := some 0 } }, 0, by decide +kernel⟩,
   ⟨on fun d => { d with pool := { d.pool with contexts := [(0, { state := 1, slice := 1, length := 64, key := 7 })] } }, 0, 0, [],
     (let d := (on fun d => { d with pool := { d.pool with contexts := [(0, { state := 1, slice := 1, length := 64, key := 7 })] } }).dev; let c := d.checkCtx 0; (d.checkScan c [] (linePieces c.offset c.length) (checkInit c.poly) 0).1.1),
     64, (on fun d => { d with pool := { d.pool with contexts := [(0, { state := 1, slice := 1, length := 64, key := 7 })] } }).dev,
     by decide +kernel⟩,
   ⟨on fun d => { d with pool := { d.pool with mem := [(0, 1), (64, 2)], lmeta := [(0, { owner := 1 }), (1, { owner := 2 })], sweeping := [1, 2] } },
     by decide +kernel⟩⟩

theorem witness_RequesterEvents :
    (∃ (s : State) (f : Frame) (o : OutOp),
      f.hchkOk = true ∧ f.checkOk = true ∧ f.op = 0x30 ∧ s.dev.tornDown f.slice.toNat = false ∧ f.conf = false ∧ f.status ≠ 0x08 ∧
        f.backoff ≤ 10 ∧ f.echo = false ∧ s.dev.req.ops.find? (fun o => o.tag = f.tag && o.phase = .flying) = some o) ∧
    (∃ (s : State) (f : Frame) (o : OutOp),
      f.hchkOk = true ∧ f.checkOk = true ∧ f.op = 0x31 ∧ s.dev.tornDown f.slice.toNat = false ∧ f.conf = false ∧ f.status ≠ 0x08 ∧
        f.backoff ≤ 10 ∧ f.echo = false ∧ s.dev.req.ops.find? (fun o => o.tag = f.tag && o.phase = .flying) = some o) ∧
    (∃ (s : State) (f : Frame) (o : OutOp),
      f.hchkOk = true ∧ f.checkOk = true ∧ s.dev.tornDown f.slice.toNat = false ∧ f.conf = false ∧ f.status = 0x08 ∧ f.backoff ≤ 10 ∧
        f.echo = false ∧ s.dev.req.ops.find? (fun o => o.tag = f.tag && o.phase = .flying) = some o ∧ f.op = 0x30) ∧
    (∃ (s : State) (f : Frame) (o : OutOp),
      f.hchkOk = true ∧ f.checkOk = true ∧ s.dev.tornDown f.slice.toNat = false ∧ f.conf = false ∧ f.status = 0x08 ∧ f.backoff ≤ 10 ∧
        f.echo = false ∧ s.dev.req.ops.find? (fun o => o.tag = f.tag && o.phase = .flying) = some o ∧ f.op = 0x31) ∧
    (∃ (s : State) (f : Frame) (c : StreamCtx),
      f.hchkOk = true ∧ f.checkOk = true ∧ s.dev.tornDown f.slice.toNat = false ∧ f.conf = false ∧ s.dev.ctx (tagStream f.tag) = some c) ∧
    (∃ (s : State) (tag : BitVec 32) (o : OutOp) (c : StreamCtx),
      s.dev.req.ops.find? (fun o => o.tag = tag && o.phase = .flying) = some o ∧ s.dev.notPresented o = false ∧ s.dev.ctx (tagStream tag)
        = some c ∧ o.retried = true) ∧
    (∃ (s : State) (tag : BitVec 32) (o : OutOp) (c : StreamCtx),
      s.dev.req.ops.find? (fun o => o.tag = tag && o.phase = .flying) = some o ∧ s.dev.notPresented o = false ∧ s.dev.ctx (tagStream tag)
        = some c ∧ o.retried = false ∧ c.timeoutUs ≤ 60) ∧
    (∃ (s : State) (ep : Fin 13) (node : BitVec 16) (l : Limiter),
      s.dev.req.limiters = [l] ∧ l.ep = ep.val ∧ l.node = node) ∧
    (∃ (s : State) (ep : Fin 13) (node : BitVec 16) (l : Limiter),
      s.dev.req.limiters = [l] ∧ l.ep = ep.val ∧ l.node = node ∧ l.rate = 2 ^ 40) ∧
    (∃ (d : Dev) (ep : Nat) (node : BitVec 16) (l : Limiter),
      d.req.limiters = [l] ∧ l.ep = ep ∧ l.node = node ∧ l.lastDec = none) :=
  ⟨⟨reqs [flying], answer 0x30 0, flying, by decide +kernel⟩,
   ⟨reqs [flying], answer 0x31 64, flying, by decide +kernel⟩,
   ⟨reqs [flying], later 0x30, flying, by decide +kernel⟩,
   ⟨reqs [flying], later 0x31, flying, by decide +kernel⟩,
   ⟨reqs [flying], answer 0x40 0, { stream := 1, ep := 0, inp := 144, cls := .o, slice := 1 }, by decide +kernel⟩,
   ⟨reqs [{ flying with retried := true }], 0x00040001, { flying with retried := true },
     { stream := 1, ep := 0, inp := 144, cls := .o, slice := 1 }, by decide +kernel⟩,
   ⟨reqs [flying], 0x00040001, flying, { stream := 1, ep := 0, inp := 144, cls := .o, slice := 1 }, by decide +kernel⟩,
   ⟨on fun d => { d with req := { limiters := [{ lim with rate := 2 ^ 39 }] } }, 0, 0xC000, { lim with rate := 2 ^ 39 },
     by decide +kernel⟩,
   ⟨on fun d => { d with req := { limiters := [lim] } }, 0, 0xC000, lim, by decide +kernel⟩,
   ⟨(on fun d => { d with req := { limiters := [lim] } }).dev, 0, 0xC000, lim, by decide +kernel⟩⟩

theorem witness_CombiningEntries :
    (∃ (s : State) (k : Kamro) (id : Nat) (e : CombEntry),
      ((s.dev.kamro k).combine.find? fun e => e.id = id && e.st = .opened) = some e) ∧
    (∃ (s : State) (k : Kamro) (id : Nat) (e : CombEntry),
      ((s.dev.kamro k).combine.find? fun e => e.id = id && e.st = .sent) = some e ∧ e.retried = false) ∧
    (∃ (s : State) (k : Kamro) (f : Frame) (e : CombEntry),
      f.hchkOk = true ∧ f.checkOk = true ∧ s.dev.tornDown f.slice.toNat = false ∧ f.conf = false ∧ f.backoff ≤ 10 ∧ ((s.dev.kamro
        k).combine.find? fun e => e.st = .sent && e.tag = f.tag) = some e ∧ f.status ≠ 0) ∧
    (∃ (s : State) (k : Kamro) (f : Frame) (e : CombEntry),
      f.hchkOk = true ∧ f.checkOk = true ∧ s.dev.tornDown f.slice.toNat = false ∧ f.conf = false ∧ f.backoff ≤ 10 ∧ ((s.dev.kamro
        k).combine.find? fun e => e.st = .sent && e.tag = f.tag) = some e ∧ f.status = 0) :=
  ⟨⟨comb combE, 0, 2, combE, by decide +kernel⟩,
   ⟨comb { combE with st := .sent }, 0, 2, { combE with st := .sent }, by decide +kernel⟩,
   ⟨comb { combE with st := .sent, tag := 0xFFF80000 }, 0, Frame.sealAll { answer 0x30 0 with tag := 0xFFF80000, key := 0x03 },
     { combE with st := .sent, tag := 0xFFF80000 }, by decide +kernel⟩,
   ⟨comb { combE with st := .sent, tag := 0xFFF80000 }, 0, Frame.sealAll { answer 0x30 0 with tag := 0xFFF80000, key := 0 },
     { combE with st := .sent, tag := 0xFFF80000 }, by decide +kernel⟩⟩

theorem witness_CombinedAddIsSerial :
    ∃ (e : CombEntry) (v : Nat) (i : Nat),
      e.kind = 0 ∧ e.dtype = 0 ∧ i ≤ e.members.length ∧ v < 2 ^ 32 :=
  ⟨{ combE with kind := 0, dtype := 0 }, 0xFFFFFFFF, 1, by decide +kernel⟩

theorem witness_RelayWindow :
    (∃ (s : State) (pp : PoolPort) (f : Frame) (gi : Nat) (root : Nat) (q : BitVec 16),
      s.dev.relayHears pp f ∧ inRelay f.offset.toNat = true ∧ s.dev.groupOf f.key f.slice = some gi ∧ s.dev.disabled f.slice.toNat 0 =
        false ∧ f.op = 0x02 ∧ f.length = 8 ∧ f.cls = .g ∧ f.offset.toNat = 0x800100008000 ∧ num f.payload 0 8 = q.toNat + 65536 * root ∧
        root < 65536 ∧ (s.dev.localIndex (s.dev.group gi) f.src).isSome = true ∧ q = (s.dev.group gi).launchSeq + 1 ∧ (s.dev.group
        gi).state = 1 ∧ (s.dev.group gi).slice = f.slice ∧ (s.dev.home (pp.val / 4)).relayDedupe = []) ∧
    (∃ (s : State) (pp : PoolPort) (f : Frame) (gi : Nat) (j : Nat),
      s.dev.relayHears pp f ∧ inRelay f.offset.toNat = true ∧ s.dev.groupOf f.key f.slice = some gi ∧ s.dev.disabled f.slice.toNat 0 =
        false ∧ f.op = 0x03 ∧ f.cls = .g ∧ f.length.toNat ∈ [64, 128, 2048] ∧
      let g := s.dev.group gi
      let l := s.dev.launch gi
      let w := f.offset.toNat - 0x800100000000
      let n := relaySize g.dtype
      let c := chunkOf l.lowest w
      let off := field w 0 15
      let fin := off + f.length.toNat
      g.state = 3 ∧ g.coll = 0 ∧ s.dev.localIndex g f.src = some j ∧ w.testBit 15 = false ∧ field w 16 7 = 0 ∧ off % 64 = 0 ∧ c < min
        (l.lowest + 2 * g.depth) g.chunkCount ∧ fin ≤ g.chunkLen c * n ∧
      let ch := s.dev.chunk gi c
      let grans := (upTo (fin / 64)).drop (off / 64)
      (∀ x ∈ grans, ch.granules.contains (j, x) = false)) ∧
    (∃ (s : State) (pp : PoolPort) (f : Frame),
      s.dev.relayHears pp f ∧ inRelay f.offset.toNat = true ∧ f.op = 0x06 ∧ (s.dev.home (pp.val / 4)).relayDedupe = []) ∧
    (∃ (s : State) (pp : PoolPort) (f : Frame),
      s.dev.relayHears pp f ∧ inRelay f.offset.toNat = true ∧ (s.dev.home (pp.val / 4)).relayDedupe = [] ∧ f.op = 0x01 ∧ s.dev.disabled
        f.slice.toNat 0 = false) ∧
    (∃ (s : State) (pp : PoolPort) (f : Frame), ∃ gi,
      s.dev.relayHears pp f ∧ inRelay f.offset.toNat = true ∧ (s.dev.home (pp.val / 4)).relayDedupe = [] ∧ f.op = 0x02 ∧ f.cls = .g ∧
        f.length = 64 ∧ f.offset.toNat % 65536 < 32768 ∧ field (f.offset.toNat - 0x800100000000) 16 7 = 0 ∧ s.dev.groupOf f.key f.slice =
        some gi ∧ s.dev.disabled f.slice.toNat 0 = false ∧ (s.dev.group gi).state = 1) :=
  ⟨⟨relay grp, 0, relayF 0x800100008000 0x02 .g 8 (le 8 5), 0, 0, 5, by (simp only [Dev.relayHears]; decide +kernel)⟩,
   ⟨run3 grp runs, 0, relayF 0x800100000000 0x03 .g 64 (List.replicate 64 0), 0, 0, by (simp only [Dev.relayHears]; decide +kernel)⟩,
   ⟨relay grp, 0, relayF 0x800100000000 0x06 .o 0 [], by (simp only [Dev.relayHears]; decide +kernel)⟩,
   ⟨relay grp, 0, relayF 0x800100000000 0x01 .o 64 [], by (simp only [Dev.relayHears]; decide +kernel)⟩,
   ⟨relay grp, 0, relayF 0x800100000000 0x02 .g 64 (List.replicate 64 0), 0, by (simp only [Dev.relayHears]; decide +kernel)⟩⟩

theorem witness_RelayFrames :
    (∃ (s : State) (pp : PoolPort) (f : Frame) (gi : Nat) (i : Nat) (p : Pass),
      s.dev.relayHears pp f ∧
      let g := s.dev.group gi
      let b := f.payload
      let c := num b 2 3
      let axis := num b 5 1 / 64
      let gather := (num b 5 1).testBit 5
      let fr := num b 5 1 % 32
      let step := num b 6 1 / 16
      let total := num b 7 1
      s.dev.groupOf f.key f.slice = some gi ∧ BitVec.ofNat 16 (num b 0 2) = g.launchSeq ∧ g.state = 3 ∧ (s.dev.passes g).findIdx (fun p =>
        p.ring.pos = axis && p.gather = gather) = i ∧ (s.dev.passes g)[i]? = some p ∧ f.op = 0x60 ∧ 0 < step ∧ step < p.ring.n ∧ 1 < total
        ∧ total ≤ 31 ∧ fr < total ∧ c < g.chunkCount ∧ (s.dev.chunk gi c).recv = []) ∧
    (∃ (s : State) (pp : PoolPort) (f : Frame) (gi : Nat) (st : RingStep),
      s.dev.relayHears pp f ∧
      let g := s.dev.group gi
      let b := f.payload
      let c := num b 2 3
      let axis := num b 5 1 / 64
      let gather := (num b 5 1).testBit 5
      let step := num b 6 1 / 16
      let total := num b 7 1
      s.dev.groupOf f.key f.slice = some gi ∧ BitVec.ofNat 16 (num b 0 2) = g.launchSeq ∧ g.state = 3 ∧ f.op = 0x61 ∧ (s.dev.launch
        gi).steps = [st] ∧ st.chunk = c ∧ st.dst = f.src ∧ st.block = none ∧ st.axis = axis ∧ st.gather = gather ∧ st.step = step ∧ num b
        8 4 = 2 ^ st.frames.length - 1 ∧ total = 1) ∧
    (∃ (s : State) (pp : PoolPort) (f : Frame) (gi : Nat),
      s.dev.relayHears pp f ∧
      let g := s.dev.group gi
      let b := f.payload
      let axis := num b 5 1 / 64
      let total := num b 7 1
      s.dev.groupOf f.key f.slice = some gi ∧ BitVec.ofNat 16 (num b 0 2) = g.launchSeq ∧ g.state = 3 ∧ f.op = 0x61 ∧ total = 0 ∧
        ((s.dev.rings g).any fun r => r.pos = axis && (r.down = f.src.toNat || r.up = f.src.toNat)) = true ∧ num b 8 4 = groupCrc g ∧
        g.coll ≠ 3 ∧ g.queued = none) ∧
    (∃ (s : State) (pp : PoolPort) (f : Frame) (gi : Nat) (m : MemberEntry) (e : Nat),
      s.dev.relayHears pp f ∧
      let g := s.dev.group gi
      let b := f.payload
      let c := num b 2 3
      let fr := num b 5 1 % 32
      s.dev.groupOf f.key f.slice = some gi ∧ BitVec.ofNat 16 (num b 0 2) = g.launchSeq ∧ g.state = 3 ∧ f.op = 0x63 ∧ (s.dev.localMembers
        g).find? (fun m => m.1 = num b 10 2) = some (num b 10 2, m, e) ∧ g.coll = 4 ∧ c < g.chunkCount ∧ fr < a2aFrames g c (num b 10 2) ∧
        num b 8 2 < g.members.length ∧ (s.dev.chunk gi c).blocks.contains (num b 8 2, num b 10 2, fr) = false) ∧
    (∃ (s : State) (pp : PoolPort) (f : Frame) (gi : Nat),
      s.dev.relayHears pp f ∧
      let g := s.dev.group gi
      let b := f.payload
      s.dev.groupOf f.key f.slice = some gi ∧ BitVec.ofNat 16 (num b 0 2) = g.launchSeq ∧ g.state = 3 ∧ f.op = 0x62) ∧
    (∃ (s : State) (pp : PoolPort) (f : Frame), ∃ e,
      s.dev.relayHears pp f ∧ s.dev.groupOf f.key f.slice = none ∧ e ∈ [(Instr.ringData, 0x60#8), (Instr.baton, 0x61), (Instr.a2aData,
        0x63), (Instr.groupAbortFrame, 0x62)] ∧ f.op = e.2) :=
  ⟨⟨run3 grp2 runs, 0, ringF 0x60 (le 2 4 ++ le 3 0 ++ [0, 16, 2] ++ zeros 8), 0, 0, ⟨false, ⟨0, 0, 2, 0, 0xC002, 0xC002⟩⟩,
    by (simp only [Dev.relayHears]; decide +kernel)⟩,
   ⟨run3 grp2 { steps := [step1] }, 0, ringF 0x61 (le 2 4 ++ le 3 0 ++ [0, 16, 1] ++ le 4 1 ++ zeros 4), 0, step1,
     by (simp only [Dev.relayHears]; decide +kernel)⟩,
   ⟨run3 grp2 runs, 0, ringF 0x61 (le 2 4 ++ le 3 0 ++ [0, 0, 0] ++ le 4 (groupCrc grp2) ++ zeros 4), 0,
     by (simp only [Dev.relayHears]; decide +kernel)⟩,
   ⟨run3 { grp2 with coll := 4 } runs, 0,
     ringF 0x63 (le 2 4 ++ le 3 0 ++ [0, 0, 1] ++ le 2 1 ++ le 2 0 ++ le 4 0 ++ List.replicate 200 0), 0, ⟨1, 0, 9, 64⟩, 10,
     by (simp only [Dev.relayHears]; decide +kernel)⟩,
   ⟨run3 grp2 runs, 0, ringF 0x62 (le 2 4 ++ le 3 0 ++ [0, 0, 5] ++ zeros 8), 0, by (simp only [Dev.relayHears]; decide +kernel)⟩,
   ⟨relay { grp2 with key := 6 }, 0, ringF 0x60 (le 2 4 ++ le 3 0 ++ [0, 16, 2] ++ zeros 8), (Instr.ringData, 0x60),
     by (simp only [Dev.relayHears]; refine ⟨?_, ?_, by simp, ?_⟩ <;> decide +kernel)⟩⟩

theorem witness_LaunchesEnd :
    (∃ (s : State) (gi : GroupSlot) (id : Nat) (st : RingStep),
      (s.dev.launch gi).steps.find? (fun x => x.id = id && !x.resent) = some st) ∧
    (∃ (s : State) (gi : GroupSlot) (id : Nat) (st : RingStep),
      (s.dev.launch gi).steps = [st] ∧ st.id = id ∧ st.resent = true) ∧
    (∃ (s : State) (gi : GroupSlot),
      (s.dev.group gi).state = 3) ∧
    (∃ (s : State) (gi : GroupSlot),
      (s.dev.group gi).state = 2) ∧
    (∃ (s : State) (gi : GroupSlot),
      (s.dev.group gi).state = 3 ∧ (s.dev.launch gi).drained = (s.dev.group gi).chunkCount) ∧
    (∃ (d : Dev) (gi : Nat) (q : BitVec 16) (root : Nat),
      (d.group gi).early = [] ∧
      let e := d.modGroup gi fun g =>
        { g with launchSeq := q, state := 2, launches := satAdd 32 g.launches 1, queued := none, early := [],
                 launch := some { root := root, turn := d.relay.waitTick } }
      let e := { e with relay := { e.relay with waitTick := e.relay.waitTick + 1 } }
      e.takeLaunch gi = none) ∧
    (∃ (d : Dev) (gi : Nat) (q : BitVec 16) (root : Nat),
      (d.group gi).early = [] ∧
      let e := d.modGroup gi fun g =>
        { g with launchSeq := q, state := 2, launches := satAdd 32 g.launches 1, queued := none, early := [],
                 launch := some { root := root, turn := d.relay.waitTick } }
      let e := { e with relay := { e.relay with waitTick := e.relay.waitTick + 1 } }
      (∃ k, k < 16 ∧ 128 < tget d.relay.slots k 0 + (e.group gi).depth / 8)) ∧
    (∃ (d : Dev) (gi : Nat),
      (d.group gi).state = 2 ∨ (d.group gi).state = 3) ∧
    (∃ (d : Dev) (gi : Nat),
      (d.group gi).state ≠ 2 ∧ (d.group gi).state ≠ 3) :=
  ⟨⟨run3 grp2 { steps := [step1] }, 0, 0, step1, by decide +kernel⟩,
   ⟨run3 grp2 { steps := [{ step1 with resent := true }] }, 0, 0, { step1 with resent := true }, by decide +kernel⟩,
   ⟨run3 grp2 runs, 0, by decide +kernel⟩,
   ⟨relay { grp2 with state := 2, launch := some runs }, 0, by decide +kernel⟩,
   ⟨run3 grp { lowest := 1, drained := 1 }, 0, by decide +kernel⟩,
   ⟨{ (relay grp).dev with relay := { (relay grp).dev.relay with slots := [(15, 128)] } }, 0, 5, 0, by decide +kernel⟩,
   ⟨{ (relay grp).dev with relay := { (relay grp).dev.relay with slots := [(15, 128)] } }, 0, 5, 0, by decide +kernel⟩,
   ⟨(run3 grp2 runs).dev, 0, by decide +kernel⟩,
   ⟨(relay grp).dev, 0, by decide +kernel⟩⟩

end W2

namespace W3

def posn (x : PosSt) : State := on fun d => { d with tiles := { d.tiles with positions := [(3, x)] } }
def ones (n : Nat) : Memory := memWrites [] 0 (List.replicate n 1)
def runP : PosSt := { state := 2, slice := 1, pipe := 1, sramSize := 8192, vregs := ones 64 }
def vr (r : Fin 32) : VReg := .vec r 0
def inQ (ws : List (BitVec 256)) : StreamQ := { pos := 3, port := 0, out := false, mode := 0, channel := 2, swport := false, budget := 4, rspFlits := 4, words := ws }
def outQ (mode : Nat) (ws : List (BitVec 256)) : StreamQ := { pos := 3, port := 0, out := true, mode := mode, channel := 2, swport := false, budget := 4, rspFlits := 4, words := ws }
def win0 : PipeWindow := { base := 0, length := 2 ^ 29, window := 0, rights := 7, reqFlits := 1, rspFlits := 1, pages := [(0, (0xC001, 0, 7))] }
def pipe1 : PipeSt := { state := 2, slice := 1, entryKey := 9, positions := [3], queues := [inQ []], windows := [win0] }
def pipes (p : PipeSt) (x : PosSt := runP) : State := on fun d => { d with tiles := { d.tiles with pipes := [(1, p)], positions := [(3, x)] } }
def batch1 : Batch := { channel := 2, seq := 1, words := 8, record := 64, key := 9, src := 1, param := 0 }
def entryF (off : BitVec 48) (op : BitVec 8) (cls : TClass) (len : Nat) (pl : List Byte) : Frame :=
  Frame.sealAll { dst := 0xC001, src := 1, offset := off, key := 9, slice := 1, op := op, cls := cls, length := BitVec.ofNat 12 len, payload := pl }
def reqW (win len fin : Nat) : BitVec 256 := BitVec.ofNat 256 (len * 2 ^ 64 + win * 2 ^ 96 + fin * 2 ^ 104)
def T1 : Nat := 6015 * 2 ^ 29 + 2 ^ 25
def tbl (l1 : BitVec 48) (m : Memory) : State := on fun d =>
  { d with prot := { d.prot with slices := [(1, { state := 1, l1Table := l1 })] }, pool := { d.pool with mem := m } }
def ptr (a : Nat) : Nat := 2 ^ 63 + 2 ^ 58 + a
def ent2 (v : Nat) : Memory := memWrites (memWrites [] (T1 + 8) (le 8 (ptr (T1 + 2 ^ 20)))) (T1 + 2 ^ 20 + 8) (le 8 v)
def ent3 (v : Nat) : Memory := memWrites (ent2 (ptr (T1 + 2 ^ 21))) (T1 + 2 ^ 21 + 16 * 31 + 8) (le 8 v)
def big2 : Memory := memWrites (memWrites [] (T1 + 8) (le 8 (ptr (T1 + 2 ^ 20)))) (T1 + 2 ^ 20 + 8) (le 8 (2 ^ 63 + 2 ^ 62 + 7 * 2 ^ 59 + 0xC001 * 2 ^ 32))
def small3 : Memory := memWrites (memWrites (memWrites [] (T1 + 8) (le 8 (ptr (T1 + 2 ^ 20)))) (T1 + 2 ^ 20 + 8) (le 8 (ptr (T1 + 2 ^ 21))))
  (T1 + 2 ^ 21 + 16 * 31 + 8) (le 8 (2 ^ 63 + 7 * 2 ^ 59 + 0xC001 * 2 ^ 32))
def cpc : Cmd := cmd 0x1A 0 [(16, 1), (18, 0x80), (24, 0), (32, 5 * 2 ^ 29), (40, 100), (48, 0x1000), (56, 0xFFFF)]
def c5 : XEntry := { xent with svaPage := 5 }
def cpb : Cmd := cmd 0x1A 0 [(16, 1), (18, 0x80), (24, 0), (32, 5 * 2 ^ 29), (40, 100), (48, 0x1001), (56, 0xFFFF)]
def cs4 : State := xl { engine := [(copyEngine, c5)], copies := List.replicate 256 job }
def cs1 : State := on id
def cs2 : State := xl { engine := [(copyEngine, c5)] }
def cs3 : State := xl { engine := [(copyEngine, { c5 with rights := 1 })] }
def cpx : Dev := match (cs1.dev.taken 0 1 cpc).meetNeeds (copyJobOf cpc) [.page 5 true] with | .ok q => q.2 | _ => cs1.dev

theorem witness_TilePredicateAndState :
    (∃ (s : State) (pos : Position) (iss : Issue) (op : VOp) (rop : ROp) (fmt : Fmt) (fb : Fmt) (mode : RMode) (fn : FnOp) (so : SramOp)
      (q : SeqOp) (dst : VReg) (a : VReg) (b : VReg) (c : VReg) (sa : MxScale) (sb : MxScale) (sc : MxScale) (init : Bool) (nan : Bool) (n
      : Nat) (off : Nat) (k : Nat) (dv : Nat) (di : Nat) (slot : Fin 64) (word : Fin 64) (r : Fin 32) (sp : Fin 2) (src : FnSrc) (wa :
      WordAt), ∃ e,
      e ∈ [Instr.vectorArithmetic pos op fmt mode dst a b c sa sb sc iss, .dotAccumulate pos fmt fb mode a b sa sb init iss, .convert pos
        fmt fb mode nan dst a sa sb iss, .crossLaneReduce pos rop fmt a r iss mode, .function pos fn dst src n iss mode, .topK pos fmt
        init off n k dv di iss, .sramAccess pos so iss.cycle iss.ecc iss.pred, .meshSend pos slot r word iss, .meshReceive pos slot wa
        iss.cycle iss.pred, .streamRead pos sp wa iss.cycle iss.pred, .streamWrite pos sp wa iss.cycle iss.pred iss.ecc, .sequencer pos q
        iss] ∧ (s.dev.pos pos).state ≠ 2) ∧
    (∃ (s : State) (pos : Position) (iss : Issue) (op : VOp) (rop : ROp) (fmt : Fmt) (fb : Fmt) (mode : RMode) (fn : FnOp) (so : SramOp)
      (q : SeqOp) (dst : VReg) (a : VReg) (b : VReg) (c : VReg) (sa : MxScale) (sb : MxScale) (sc : MxScale) (init : Bool) (nan : Bool) (n
      : Nat) (off : Nat) (k : Nat) (dv : Nat) (di : Nat) (slot : Fin 64) (word : Fin 64) (r : Fin 32) (sp : Fin 2) (src : FnSrc) (wa :
      WordAt), ∃ e, ∃ p,
      e ∈ [Instr.vectorArithmetic pos op fmt mode dst a b c sa sb sc iss, .dotAccumulate pos fmt fb mode a b sa sb init iss, .convert pos
        fmt fb mode nan dst a sa sb iss, .crossLaneReduce pos rop fmt a r iss mode, .function pos fn dst src n iss mode, .topK pos fmt
        init off n k dv di iss, .sramAccess pos so iss.cycle iss.ecc iss.pred, .meshSend pos slot r word iss, .meshReceive pos slot wa
        iss.cycle iss.pred, .streamRead pos sp wa iss.cycle iss.pred, .streamWrite pos sp wa iss.cycle iss.pred iss.ecc, .sequencer pos q
        iss] ∧ (s.dev.pos pos).state = 2 ∧ iss.pred = some p ∧ (s.dev.pos pos).preds.contains p = false) :=
  ⟨⟨posn { runP with state := 3 }, 3, { pred := some 4 }, .add, .sum, .fp32, .fp32, .rne, .exp, .load 0 0 64, .fence .acquire .tile, vr 0,
    vr 1, vr 2, vr 3, none, none, none, true, false, 1, 0, 1, 0, 0, 0, 0, 0, 0, .reg (vr 0), .reg 0 0,
    Instr.sequencer 3 (.fence .acquire .tile) { pred := some 4 }, by decide +kernel⟩,
   ⟨posn { runP with preds := [5] }, 3, { pred := some 4 }, .add, .sum, .fp32, .fp32, .rne, .exp, .load 0 0 64, .fence .acquire .tile,
     vr 0, vr 1, vr 2, vr 3, none, none, none, true, false, 1, 0, 1, 0, 0, 0, 0, 0, 0, .reg (vr 0), .reg 0 0,
     Instr.sequencer 3 (.fence .acquire .tile) { pred := some 4 }, 4, by decide +kernel⟩⟩

theorem witness_VectorArithmeticLanes :
    (∃ (s : State) (pos : Position) (iss : Issue) (mode : RMode),
      s.dev.performs pos iss ∧ mode ≠ .rne) ∧
    (∃ (s : State) (pos : Position) (op : VOp) (dst : VReg) (a : VReg) (b : VReg) (c : VReg) (iss : Issue), ∃ fmt,
      s.dev.performs pos iss ∧ fmt ∈ [Fmt.int32, .uint32, .int8, .uint8] ∧
      let n := (laneForm fmt).1
      let w := (laneForm fmt).2.1
      operandOk dst w n = true ∧ operandOk a (fmtBits fmt) n = true ∧ ((vopUses op).1 = true → operandOk b (fmtBits fmt) n = true) ∧
        ((vopUses op).2 = true → operandOk c (fmtBits fmt) n = true)) ∧
    (∃ (s : State) (pos : Position) (op : VOp) (dst : VReg) (a : VReg) (b : VReg) (c : VReg) (iss : Issue), ∃ e,
      s.dev.performs pos iss ∧ e ∈ [(Fmt.fp32, fmtFp32), (.bf16, fmtBf16), (.fp16, fmtFp16)] ∧
      let n := (laneForm e.1).1
      let w := (laneForm e.1).2.1
      operandOk dst w n = true ∧ operandOk a w n = true ∧ ((vopUses op).1 = true → operandOk b w n = true) ∧ ((vopUses op).2 = true →
        operandOk c w n = true)) :=
  ⟨⟨posn runP, 3, {}, .rtz, by (simp only [Dev.performs]; decide +kernel)⟩,
   ⟨posn runP, 3, .shl, vr 4, vr 0, vr 0, vr 0, {}, Fmt.uint8, by (simp only [Dev.performs]; decide +kernel)⟩,
   ⟨posn runP, 3, .mul, vr 4, vr 0, vr 0, vr 0, {}, (Fmt.bf16, fmtBf16), by (simp only [Dev.performs]; decide +kernel)⟩⟩

theorem witness_ElementsReadBack :
    ∃ (x : PosSt) (f : Fmt) (v : Nat),
      Memory.wf x.vregs = true ∧
      let n := fmtBits f
      v < 2 ^ n :=
  ⟨runP, .e2m1, 15, by decide +kernel⟩

theorem witness_DotConvertFunction :
    (∃ (s : State) (pos : Position) (a : VReg) (b : VReg) (iss : Issue), ∃ fa, ∃ fb,
      s.dev.performs pos iss ∧ fa ∈ [Fmt.int8, .uint8] ∧ fb ∈ [Fmt.int8, .uint8] ∧ operandOk a 8 2048 = true ∧ operandOk b 8 2048 = true)
        ∧
    (∃ (s : State) (pos : Position) (a : VReg) (b : VReg) (iss : Issue),
      s.dev.performs pos iss ∧ operandOk a 32 256 = true ∧ operandOk b 32 256 = true) ∧
    (∃ (s : State) (pos : Position) (dst : VReg) (a : VReg) (iss : Issue) (mode : RMode), ∃ src, ∃ to',
      s.dev.performs pos iss ∧ src ∈ [Fmt.int8, .uint8, .int32, .uint32] ∧ to' ∈ [Fmt.int8, .uint8, .int32, .uint32] ∧ mode ≠ .sr ∧
        operandOk dst (fmtBits to') 1024 = true ∧ operandOk a (fmtBits src) 1024 = true) ∧
    (∃ (s : State) (pos : Position) (dst : VReg) (a : VReg) (iss : Issue) (n : Nat),
      s.dev.performs pos iss ∧ operandOk dst 32 n = true ∧ operandOk a 32 n = true) ∧
    (∃ (s : State) (pos : Position) (dst : VReg) (iss : Issue) (off : Nat) (n : Nat),
      s.dev.performs pos iss ∧
      let x := s.dev.pos pos
      s.dev.performsLocal pos iss ∧ operandOk dst 32 n = true ∧ x.inRange off (4 * n) = true ∧ x.bankUses = [] ∧ iss.ecc = []) :=
  ⟨⟨posn runP, 3, vr 0, vr 0, {}, Fmt.int8, Fmt.uint8, by (simp only [Dev.performs]; decide +kernel)⟩,
   ⟨posn runP, 3, vr 0, vr 0, {}, by (simp only [Dev.performs]; decide +kernel)⟩,
   ⟨posn runP, 3, vr 4, vr 0, {}, .rtz, Fmt.int32, Fmt.int8, by (simp only [Dev.performs]; decide +kernel)⟩,
   ⟨posn runP, 3, vr 4, vr 0, {}, 4, by (simp only [Dev.performs]; decide +kernel)⟩,
   ⟨posn { runP with sram := ones 200 }, 3, vr 4, {}, 64, 4, by (simp only [Dev.performs, Dev.performsLocal]; decide +kernel)⟩⟩

theorem witness_CrossLaneSumAndTopK :
    (∃ (s : State) (pos : Position) (a : VReg) (iss : Issue), ∃ fmt,
      s.dev.performs pos iss ∧ fmt ∈ [Fmt.int8, .uint8, .int32, .uint32] ∧ operandOk a (fmtBits fmt) 1024 = true) ∧
    (∃ (s : State) (pos : Position) (a : VReg) (iss : Issue), ∃ fmt,
      s.dev.performs pos iss ∧ fmt ∈ [Fmt.fp32, .bf16, .fp16, .e4m3, .e5m2, .e3m2, .e2m3, .e2m1] ∧ operandOk a (fmtBits fmt) 1024 = true)
        ∧
    (∃ (s : State) (pos : Position) (a : VReg) (iss : Issue) (fmt : Fmt) (mode : RMode),
      s.dev.performs pos iss ∧ (operandOk a (fmtBits fmt) 1024 = false ∨ mode ≠ .rne)) ∧
    (∃ (es : List (FVal × Nat)),
      (es.map (·.2)).Pairwise (· < ·)) ∧
    (∃ (a : FVal),
      a.isNan = true) ∧
    (∃ (a : FVal) (b : FVal),
      a.isNan = false ∧ b.isNan = true) ∧
    (∃ (x : Bool) (y : Bool) (m : Nat) (n : Nat) (e : Int) (g : Int) (lo : Int),
      lo ≤ e ∧ lo ≤ g ∧
      let v (s : Bool) (m : Nat) (e : Int) : Int := (if s then -1 else 1) * ((m * 2 ^ (e - lo).toNat : Nat) : Int)
      v y n g < v x m e) :=
  ⟨⟨posn runP, 3, vr 0, {}, Fmt.int8, by (simp only [Dev.performs]; decide +kernel)⟩,
   ⟨posn runP, 3, vr 0, {}, Fmt.bf16, by (simp only [Dev.performs]; decide +kernel)⟩,
   ⟨posn runP, 3, vr 0, {}, Fmt.fp32, .sr, by (simp only [Dev.performs]; decide +kernel)⟩,
   ⟨[(.nan false, 0), (.fin false 1 0, 1), (.fin false 1 1, 2), (.fin false 2 0, 3)], by decide +kernel⟩,
   ⟨.nan true, by decide +kernel⟩,
   ⟨.fin true 3 2, .nan false, by decide +kernel⟩,
   ⟨true, true, 1, 5, 1, 0, -1, by decide +kernel⟩⟩

theorem witness_TileMemory :
    (∃ (s : State) (pos : Position) (iss : Issue) (r : Fin 32) (off : Nat) (len : Nat),
      s.dev.performsLocal pos iss ∧
      let x := s.dev.pos pos
      off % 64 = 0 ∧ 1 ≤ len ∧ len ≤ 2048 ∧ x.inRange off len = true ∧ x.bankUses = [] ∧ r.val * 2048 + len ≤ 65536 ∧ (iss.ecc = [] ∨
        iss.ecc = [(off, .corrected)])) ∧
    (∃ (s : State) (pos : Position) (iss : Issue) (r : Fin 32) (off : Nat) (len : Nat),
      s.dev.performsLocal pos iss ∧
      let x := s.dev.pos pos
      off % 64 = 0 ∧ 1 ≤ len ∧ len ≤ 2048 ∧ x.inRange off len = true ∧ x.bankUses = [] ∧ r.val * 2048 + len ≤ 65536 ∧ iss.ecc = [(off,
        .uncorrectable)]) ∧
    (∃ (s : State) (pos : Position) (iss : Issue) (r : Fin 32) (off : Nat) (len : Nat),
      s.dev.performsLocal pos iss ∧
      let x := s.dev.pos pos
      off % 64 = 0 ∧ 1 ≤ len ∧ len ≤ 2048 ∧ x.inRange off len = true ∧ x.bankUses = [] ∧ r.val * 2048 + len ≤ 65536) ∧
    (∃ (s : State) (pos : Position) (iss : Issue) (r : Fin 32) (off : Nat) (len : Nat),
      s.dev.performsLocal pos iss ∧
      let x := s.dev.pos pos
      1 ≤ len ∧ len ≤ 2048 ∧ r.val * 2048 + len ≤ 65536 ∧ x.inRange off len = false) ∧
    (∃ (s : State) (pos : Position) (iss : Issue) (r : Fin 32) (off : Nat) (len : Nat) (b : Nat) (u : Undo), ∃ op,
      s.dev.performsLocal pos iss ∧
      let x := s.dev.pos pos
      off % 64 = 0 ∧ 1 ≤ len ∧ len ≤ 64 ∧ r.val * 2048 + len ≤ 65536 ∧ x.inRange off len = true ∧ b = off / 64 % 32 ∧ x.bankUses =
        [⟨iss.cycle, iss.cycle + 1, [b], u⟩] ∧ op ∈ [SramOp.load r off len, .store r off len]) ∧
    (∃ (s : State) (pos : Position) (iss : Issue) (r : Fin 32) (idx : Fin 32) (n : Nat), ∃ i, ∃ op,
      s.dev.performsLocal pos iss ∧
      let x := s.dev.pos pos
      1 ≤ n ∧ r.val * 2048 + 64 * n ≤ 65536 ∧ idx.val * 2048 + 4 * n ≤ 65536 ∧
      let at' (i : Nat) : Nat := unle (memReads x.vregs (idx.val * 2048 + 4 * i) 4)
      i < n ∧ (∀ j, j < i → at' j % 64 = 0 ∧ x.inRange (at' j) 64 = true) ∧ (at' i % 64 ≠ 0 ∨ x.inRange (at' i) 64 = false) ∧ op ∈
        [SramOp.gather r idx n, .scatter r idx n]) ∧
    (∃ (s : State) (pos : Position) (iss : Issue) (r : Fin 32) (idx : Fin 32) (n : Nat),
      s.dev.performsLocal pos iss ∧
      let x := s.dev.pos pos
      1 ≤ n ∧ r.val * 2048 + 64 * n ≤ 65536 ∧ idx.val * 2048 + 4 * n ≤ 65536 ∧
      let at' (i : Nat) : Nat := unle (memReads x.vregs (idx.val * 2048 + 4 * i) 4)
      (∀ i, i < n → at' i % 64 = 0 ∧ x.inRange (at' i) 64 = true) ∧ x.bankUses = [] ∧ iss.ecc = []) ∧
    (∃ (s : State) (pos : Position) (iss : Issue) (off : Nat) (n : Nat) (k : Nat) (dv : Nat) (di : Nat), ∃ fmt,
      s.dev.performsLocal pos iss ∧
      let x := s.dev.pos pos
      fmt ∈ [Fmt.fp32, .bf16] ∧
      let w := if fmt = .fp32 then 4 else 2
      1 ≤ n ∧ n ≤ 65536 ∧ 1 ≤ k ∧ k ≤ 64 ∧ x.inRange off (w * n) = true ∧ x.inRange dv (w * k) = true ∧ x.inRange di (4 * k) = true ∧
        x.bankUses = [] ∧ iss.ecc = []) ∧
    (∃ (s : State) (pos : Position) (iss : Issue) (op : SramOp),
      s.dev.performs pos iss ∧ s.dev.localHeld pos (readsSram op) (!readsSram op) = true) :=
  ⟨⟨posn { runP with sram := ones 200 }, 3, { cycle := 73, ecc := [(64, .corrected)] }, 31, 64, 2048,
    by (simp only [Dev.performsLocal, Dev.performs]; decide +kernel)⟩,
   ⟨posn { runP with sram := ones 200 }, 3, { cycle := 73, ecc := [(64, .uncorrectable)] }, 31, 64, 2048,
     by (simp only [Dev.performsLocal, Dev.performs]; decide +kernel)⟩,
   ⟨posn { runP with sram := ones 200 }, 3, { cycle := 73 }, 31, 64, 2048,
     by (simp only [Dev.performsLocal, Dev.performs]; decide +kernel)⟩,
   ⟨posn { runP with sram := ones 200 }, 3, { cycle := 73 }, 31, 8128, 65,
     by (simp only [Dev.performsLocal, Dev.performs]; decide +kernel)⟩,
   ⟨posn { runP with sram := ones 200, bankUses := [⟨73, 74, [1], {}⟩] }, 3, { cycle := 73 }, 31, 64, 64, 1, {}, SramOp.load 31 64 64,
     by (simp only [Dev.performsLocal, Dev.performs]; decide +kernel)⟩,
   ⟨posn { runP with sram := ones 200, vregs := (List.range 4).map fun i => (⟨2052 + i, 2⟩ : Host.Cell) }, 3, { cycle := 73 }, 0, 1, 2, 1,
     SramOp.gather 0 1 2, by (simp only [Dev.performsLocal, Dev.performs]; decide +kernel)⟩,
   ⟨posn { runP with sram := ones 200, vregs := ones 70 ++ [(⟨2052, 64⟩ : Host.Cell)] }, 3, { cycle := 73 }, 0, 1, 2,
     by (simp only [Dev.performsLocal, Dev.performs]; decide +kernel)⟩,
   ⟨posn { runP with sram := ones 200 }, 3, { cycle := 73 }, 0, 3, 5, 512, 1024, Fmt.bf16,
     by (simp only [Dev.performsLocal, Dev.performs]; decide +kernel)⟩,
   ⟨on fun d => { d with tiles := { d.tiles with positions := [(3, runP)], pipes := [(1, { pipe1 with queues := [{ outQ 3 [] with stream := 7 }] })] }, req := { d.req with fences := [{ kind := .seqCst, scope := .node, streams := [7], waitsAll := [5] }] } },
     3, { cycle := 73 }, SramOp.load 31 64 64, by (simp only [Dev.performs]; decide +kernel)⟩⟩

theorem witness_TileWords :
    (∃ (s : State) (pos : Position) (slot : Fin 64) (iss : Issue) (e : Route),
      let x := s.dev.pos pos
      s.dev.performs pos iss ∧ x.routeAt 0 slot = some e ∧ e.pipe = x.pipe) ∧
    (∃ (s : State) (pos : Position) (input : Fin 5) (nb : Nat) (slot : Fin 64) (pipe : Pipe),
      neighbour pos input = some nb ∧ (s.dev.pipe pipe).loaded = true ∧ s.dev.neverLeft pipe slot (hopSlots pos nb) = true) ∧
    (∃ (s : State) (pos : Position) (input : Fin 5) (nb : Nat) (slot : Fin 64) (pipe : Pipe) (e : Route),
      let x := s.dev.pos pos
      neighbour pos input = some nb ∧ (s.dev.pipe pipe).loaded = false ∨ s.dev.neverLeft pipe slot (hopSlots pos nb) = false ∧ x.routeAt
        input slot = some e ∧ e.pipe = pipe.val) ∧
    (∃ (s : State) (pos : Position) (slot : Fin 64) (iss : Issue), ∃ w,
      let x := s.dev.pos pos
      s.dev.performs pos iss ∧
      let it (w : BufWord) : Bool := w.output = 0 && w.slot = slot.val && w.pipe = x.pipe && w.left = 0
      x.words.find? it = some w) ∧
    (∃ (s : State) (pos : Position) (slot : Fin 64) (iss : Issue),
      let x := s.dev.pos pos
      s.dev.performs pos iss ∧
      let it (w : BufWord) : Bool := w.output = 0 && w.slot = slot.val && w.pipe = x.pipe && w.left = 0
      x.words.find? it = none ∧ (x.routes.any fun e => e.output = 0 && e.leaves = slot.val && e.pipe = x.pipe) = true) ∧
    (∃ (s : State) (pos : Position) (sp : Fin 2) (iss : Issue) (q : StreamQ) (w : BitVec 256) (ws : List (BitVec 256)),
      let x := s.dev.pos pos
      s.dev.performs pos iss ∧ (s.dev.pipe x.pipe).queueAt pos sp false = some q ∧ q.words = w :: ws) ∧
    (∃ (s : State) (pos : Position) (sp : Fin 2) (off : Nat) (iss : Issue) (q : StreamQ) (w : BitVec 256) (ws : List (BitVec 256)),
      let x := s.dev.pos pos
      s.dev.performsLocal pos iss ∧ (s.dev.pipe x.pipe).queueAt pos sp false = some q ∧ q.words = w :: ws ∧ q.mode ≠ 0 ∧ off % 32 = 0 ∧
        x.inRange off 32 = true ∧ x.bankUses = []) ∧
    (∃ (s : State) (pos : Position) (sp : Fin 2) (iss : Issue) (q : StreamQ),
      let x := s.dev.pos pos
      s.dev.performs pos iss ∧ (s.dev.pipe x.pipe).queueAt pos sp true = some q ∧ q.words.length < 2048 ∧ (¬ (q.mode = 3 ∧ q.due = 0))) ∧
    (∃ (s : State) (pos : Position) (sp : Fin 2) (iss : Issue) (q : StreamQ),
      let x := s.dev.pos pos
      s.dev.performs pos iss ∧ (s.dev.pipe x.pipe).queueAt pos sp true = some q ∧ q.words.length < 2048 ∧ q.mode = 3 ∧ q.due = 0) ∧
    (∃ (s : State) (pos : Position) (sp : Fin 2) (iss : Issue) (q : StreamQ),
      let x := s.dev.pos pos
      s.dev.performs pos iss ∧ (s.dev.pipe x.pipe).queueAt pos sp false = some q ∧ q.words = []) :=
  ⟨⟨posn { runP with routes := [⟨0, 1, 63, 2, 1⟩] }, 3, 63, {}, ⟨0, 1, 63, 2, 1⟩, by (simp only [Dev.performs]; decide +kernel)⟩,
   ⟨on fun d => { d with tiles := { d.tiles with pipes := [(1, { pipe1 with gateHeld := true })], positions := [(3, { runP with routes := [⟨1, 0, 63, 2, 1⟩] }), (4, { runP with words := [⟨2, 62, 0, 1, 77⟩] })] } },
     3, 1, 4, 63, 1, by decide +kernel⟩,
   ⟨on fun d => { d with tiles := { d.tiles with pipes := [(1, { pipe1 with heldBefore := true, gateHeld := false })], positions := [(3, { runP with routes := [⟨1, 0, 63, 2, 1⟩] }), (4, { runP with words := [⟨2, 62, 0, 1, 77⟩] })] } },
     3, 1, 4, 63, 1, ⟨1, 0, 63, 2, 1⟩, by decide +kernel⟩,
   ⟨posn { runP with words := [⟨0, 63, 0, 1, 77⟩] }, 3, 63, {}, ⟨0, 63, 0, 1, 77⟩, by (simp only [Dev.performs]; decide +kernel)⟩,
   ⟨posn { runP with routes := [⟨1, 0, 61, 2, 1⟩] }, 3, 63, {}, by (simp only [Dev.performs]; decide +kernel)⟩,
   ⟨pipes { pipe1 with queues := [inQ [5, 6]] }, 3, 0, {}, inQ [5, 6], 5, [6], by (simp only [Dev.performs]; decide +kernel)⟩,
   ⟨pipes { pipe1 with queues := [{ inQ [5, 6] with mode := 1 }] }, 3, 0, 32, {}, { inQ [5, 6] with mode := 1 }, 5, [6],
     by (simp only [Dev.performsLocal, Dev.performs]; decide +kernel)⟩,
   ⟨pipes { pipe1 with queues := [{ outQ 3 [5, 6] with due := 1 }] }, 3, 0, {}, { outQ 3 [5, 6] with due := 1 },
     by (simp only [Dev.performs]; decide +kernel)⟩,
   ⟨pipes { pipe1 with queues := [outQ 3 [5, 6]] }, 3, 0, {}, outQ 3 [5, 6], by (simp only [Dev.performs]; decide +kernel)⟩,
   ⟨pipes pipe1, 3, 0, {}, inQ [], by (simp only [Dev.performs]; decide +kernel)⟩⟩

theorem witness_SequencerAndHardware :
    (∃ (s : State) (pos : Position) (iss : Issue),
      s.dev.performs pos iss) ∧
    (∃ (s : State) (pos : Position) (iss : Issue) (count : Nat) (len : Nat),
      let x := s.dev.pos pos
      s.dev.performs pos iss ∧ x.loops = [] ∧ 0 < len ∧ 0 < count) ∧
    (∃ (s : State) (pos : Position) (iss : Issue),
      let x := s.dev.pos pos
      s.dev.performs pos iss ∧ 8 ≤ x.loops.length) ∧
    (∃ (s : State) (pos : Position),
      let x := s.dev.pos pos
      isPassThrough pos = false ∧ x.state = 0) ∧
    (∃ (s : State) (pos : Position),
      let x := s.dev.pos pos
      isPassThrough pos = false ∧ (x.state = 1 ∨ x.state = 2 ∨ x.state = 3)) :=
  ⟨⟨posn runP, 3, {}, by (simp only [Dev.performs]; decide +kernel)⟩,
   ⟨posn runP, 3, {}, 1, 1, by (simp only [Dev.performs]; decide +kernel)⟩,
   ⟨posn { runP with loops := List.replicate 8 (0, 1, 1) }, 3, {}, by (simp only [Dev.performs]; decide +kernel)⟩,
   ⟨posn { runP with state := 0 }, 3, by decide +kernel⟩,
   ⟨posn { runP with state := 1 }, 3, by decide +kernel⟩⟩

theorem witness_EntryWindow :
    (∃ (s : State) (tp : TilePort) (f : Frame),
      let p := entryPipe f.offset.toNat
      let ch := entryChannel f.offset.toNat
      let x := s.dev.pipe p
      let bs := f.payload
      s.dev.entryHears tp f ∧ f.op = 0x02 ∧ entryCtl f.offset.toNat = true ∧ num bs 0 2 = 0 ∧ num bs 2 2 = 0 ∧ num bs 14 2 = 0 ∧ num bs 8
        6 % 64 = 0 ∧ x.batchOn ch = none) ∧
    (∃ (s : State) (tp : TilePort) (f : Frame) (b : Batch) (n : Nat),
      let p := entryPipe f.offset.toNat
      let ch := entryChannel f.offset.toNat
      let x := s.dev.pipe p
      s.dev.entryHears tp f ∧ (f.op = 0x02 ∨ f.op = 0x03) ∧ entryCtl f.offset.toNat = false ∧ x.batchOn ch = some b ∧ b.running = true ∧
        batchPosition (entryByte f.offset.toNat) b.taken = some n ∧ n + f.length.toNat ≤ 32 * b.words ∧ n + f.length.toNat ≤ b.taken +
        65536 ∧ b.channel = ch) ∧
    (∃ (s : State) (tp : TilePort) (f : Frame),
      s.dev.entryHears tp f ∧ f.op = 0x06) ∧
    (∃ (s : State) (tp : TilePort) (f : Frame), ∃ st, ∃ e,
      (s.dev.tileDie (tp.val / 2)).up = true ∧ f.hchkOk = true ∧ f.checkOk = true ∧ f.conf = false ∧ s.dev.tornDown f.slice.toNat = false
        ∧ s.dev.entryFault f = some st ∧ isPosted f.opn = false ∧ e ∈ [Instr.batchDescriptor, Instr.entryData, Instr.entryFlush]) :=
  ⟨⟨pipes pipe1, 0, entryF 0x800001280000 0x02 .o 32 (zeros 4 ++ le 4 8 ++ le 6 64 ++ zeros 18),
    by (simp only [Dev.entryHears]; decide +kernel)⟩,
   ⟨pipes { pipe1 with batches := [batch1] }, 0, entryF 0x800001200000 0x03 .g 64 (List.replicate 64 1), batch1, 0,
     by (simp only [Dev.entryHears]; decide +kernel)⟩,
   ⟨pipes pipe1, 0, entryF 0x800001200000 0x06 .o 0 [], by (simp only [Dev.entryHears]; decide +kernel)⟩,
   ⟨pipes pipe1, 0, entryF 0x800001200000 0x01 .o 64 [], 0x09, Instr.entryData,
     by (refine ⟨?_, ?_, ?_, ?_, ?_, ?_, ?_, by simp⟩ <;> decide +kernel)⟩⟩

theorem witness_FetchesAndWrites :
    (∃ (s : State) (pos : Position) (sp : Fin 2) (q : StreamQ) (w : BitVec 256) (ws : List (BitVec 256)), ∃ r,
      let p := (s.dev.pos pos).pipe
      let x := s.dev.pipe p
      x.queueAt pos sp true = some q ∧ q.words = w :: ws ∧ x.state = 2 ∧ x.halted = false ∧ q.mode = 2 ∧ s.dev.fenceTakes q.stream false =
        true ∧ x.request w 1 = .ok r) ∧
    (∃ (s : State) (pos : Position) (sp : Fin 2) (q : StreamQ) (w : BitVec 256) (ws : List (BitVec 256)), ∃ st,
      let p := (s.dev.pos pos).pipe
      let x := s.dev.pipe p
      x.queueAt pos sp true = some q ∧ q.words = w :: ws ∧ x.state = 2 ∧ x.halted = false ∧ q.mode = 2 ∧ s.dev.fenceTakes q.stream false =
        true ∧ x.request w 1 = .error st) ∧
    (∃ (s : State) (pos : Position) (sp : Fin 2) (q : StreamQ) (w : BitVec 256) (ws : List (BitVec 256)), ∃ r,
      let p := (s.dev.pos pos).pipe
      let x := s.dev.pipe p
      x.queueAt pos sp true = some q ∧ q.words = w :: ws ∧ x.state = 2 ∧ x.halted = false ∧ q.mode = 3 ∧ q.write = none ∧ x.stopping =
        false ∧ s.dev.req.fences = [] ∧ x.request w 2 = .ok r) ∧
    (∃ (s : State) (p : Pipe) (ch : Fin 16) (b : Batch) (e : Nat),
      (s.dev.pipe p).batchOn ch = some b ∧ b.ending = some e ∧ b.running = true ∧ s.dev.writesLeft p e = false) :=
  ⟨⟨pipes { pipe1 with queues := [outQ 2 [reqW 0 4096 0]] }, 3, 0, outQ 2 [reqW 0 4096 0], reqW 0 4096 0, [], ⟨0, 4096, 0, none⟩,
    by (refine ⟨?_, ?_, ?_, ?_, ?_, ?_, rfl⟩ <;> decide +kernel)⟩,
   ⟨pipes { pipe1 with queues := [outQ 2 [reqW 0 31 0]] }, 3, 0, outQ 2 [reqW 0 31 0], reqW 0 31 0, [], 0x09,
     by (refine ⟨?_, ?_, ?_, ?_, ?_, ?_, rfl⟩ <;> decide +kernel)⟩,
   ⟨pipes { pipe1 with queues := [outQ 3 [reqW 0 64 0, 1, 2]] }, 3, 0, outQ 3 [reqW 0 64 0, 1, 2], reqW 0 64 0, [1, 2], ⟨0, 64, 0, none⟩,
     by (refine ⟨?_, ?_, ?_, ?_, ?_, ?_, ?_, ?_, rfl⟩ <;> decide +kernel)⟩,
   ⟨pipes { pipe1 with batches := [{ batch1 with ending := some 0 }] }, 1, 2, { batch1 with ending := some 0 }, 0, by decide +kernel⟩⟩

theorem witness_GateAndBoundary :
    (∃ (s : State) (p : Pipe),
      (s.dev.pipe p).active = true ∧ (s.dev.pipe p).stopping = false ∧ s.dev.test.perturbs = []) ∧
    (∃ (s : State),
      s.dev.tiles.pipes = [] ∧ (∀ e ∈ s.dev.tiles.positions, e.2.words = [])) :=
  ⟨⟨pipes pipe1, 1, by decide +kernel⟩,
   ⟨posn { runP with words := [] }, by decide +kernel⟩⟩

theorem witness_PipelineTurns :
    (∃ (d : Dev) (p : Nat),
      let x := d.pipe p
      x.active = true ∧ x.halted = false ∧ x.stopping = false ∧ x.positions = []) ∧
    (∃ (d : Dev) (p : Nat), ∃ pos,
      let x := d.pipe p
      x.active = true ∧ x.halted = false ∧ x.stopping = false ∧ x.positions = [pos] ∧ (d.pos pos).pipe = p ∧ (d.pos pos).state = 2) ∧
    (∃ (d : Dev) (p : Nat),
      let x := d.pipe p
      x.halted = false ∧ x.stopping = true) ∧
    (∃ (d : Dev) (p : Nat),
      let x := d.pipe p
      x.active = false ∧ x.stopping = false) :=
  ⟨⟨(pipes { pipe1 with positions := [] }).dev, 1, by decide +kernel⟩,
   ⟨(pipes { pipe1 with gateNext := false }).dev, 1, 3, by decide +kernel⟩,
   ⟨(pipes { pipe1 with stopping := true }).dev, 1, by decide +kernel⟩,
   ⟨(pipes { pipe1 with state := 4 }).dev, 1, by decide +kernel⟩⟩

theorem witness_PipelinesEnd :
    (∃ (s : State) (p : Pipe) (b : Batch),
      (s.dev.pipe p).gateHeld = true ∧ (s.dev.pipe p).powerNext = false ∧ (s.dev.pipe p).batches = [b] ∧ b.running = true) ∧
    (∃ (s : State) (p : Pipe),
      (s.dev.pipe p).state = 3 ∧ s.dev.host.handover = false) ∧
    (∃ (s : State),
      s.dev.host.handover = true) ∧
    (∃ (s : State) (p : Pipe),
      (s.dev.pipe p).state = 3 ∧ s.dev.host.handover = false ∧ (s.dev.pipe p).stopping = false ∧ (s.dev.pipe p).batches = [] ∧ (s.dev.pipe
        p).queues = [] ∧ s.dev.pipeBusy p = false) ∧
    (∃ (s : State) (p : Pipe),
      (s.dev.pipe p).state ≠ 4 ∧ (s.dev.pipe p).halted = true ∧ s.dev.pipeBusy p = false ∧ (s.dev.pipe p).dropping = false) ∧
    (∃ (s : State) (p : Pipe),
      (s.dev.pipe p).state ≠ 4 ∧ (s.dev.pipe p).halted = true ∧ s.dev.pipeBusy p = false ∧ (s.dev.pipe p).dropping = true) ∧
    (∃ (s : State) (l : LoadedLast),
      s.dev.tiles.loading = some l ∧ s.dev.tornDown l.slice.toNat = false ∧ s.dev.disabled l.slice.toNat 1 = false ∧ s.dev.positionsFree
        l.bytes = true) ∧
    (∃ (s : State) (p : Pipe) (id : Nat),
      (s.dev.pipe p).starting = some id ∧ ((s.dev.pipe p).stopping = true ∨ (s.dev.pipe p).state ≠ 1)) ∧
    (∃ (s : State) (p : Pipe) (id : Nat),
      (s.dev.pipe p).starting = some id ∧ (s.dev.pipe p).stopping = false ∧ (s.dev.pipe p).state = 1 ∧ ((s.dev.pipe p).windows.all fun w
        => (windowPages w).all fun g => (tfind w.pages g).isSome) = true) ∧
    (∃ (d : Dev) (p : Nat) (cause : Nat),
      d.test.perturbs = [] ∧ (d.pipe p).active = true ∨ ((d.pipe p).state = 1 ∧ cause = pcPosition) ∧ (d.pipe p).stopping = false) ∧
    (∃ (d : Dev) (p : Nat) (cause : Nat),
      d.test.perturbs = [] ∧ (d.pipe p).active = false ∧ ((d.pipe p).state ≠ 1 ∨ cause ≠ pcPosition) ∨ (d.pipe p).stopping = true) :=
  ⟨⟨pipes { pipe1 with batches := [batch1] }, 1, batch1, by decide +kernel⟩,
   ⟨pipes { pipe1 with state := 3 }, 1, by decide +kernel⟩,
   ⟨on fun d => { d with host := { d.host with handover := true }, tiles := { d.tiles with pipes := [(1, { pipe1 with state := 3, queues := [] })] } },
     by decide +kernel⟩,
   ⟨pipes { pipe1 with state := 3, queues := [] }, 1, by decide +kernel⟩,
   ⟨pipes { pipe1 with halted := true, stopping := true }, 1, by decide +kernel⟩,
   ⟨pipes { pipe1 with halted := true, stopping := true, dropping := true }, 1, by decide +kernel⟩,
   ⟨on fun d => { d with tiles := { d.tiles with loading := some ⟨1, [], 0, 0⟩ } }, ⟨1, [], 0, 0⟩, by decide +kernel⟩,
   ⟨pipes { pipe1 with state := 4, starting := some 0 }, 1, 0, by decide +kernel⟩,
   ⟨pipes { pipe1 with state := 1, starting := some 0 }, 1, 0, by decide +kernel⟩,
   ⟨(pipes pipe1).dev, 1, 3, by decide +kernel⟩,
   ⟨(pipes { pipe1 with stopping := true }).dev, 1, 3, by decide +kernel⟩⟩

theorem witness_TranslationWalksAndBuffers :
    (∃ (d : Dev) (slice : Nat),
      let l1 := (d.slice slice).l1Table.toNat
      l1 = 0) ∧
    (∃ (d : Dev) (slice : Nat) (page : Nat) (e1 : Nat × Nat),
      let l1 := (d.slice slice).l1Table.toNat
      l1 ≠ 0 ∧ d.pool.xWords (l1 + 16 * (page / 2 ^ 16)) = .ok e1 ∧ e1.2.testBit 63 = false) ∧
    (∃ (d : Dev) (slice : Nat) (page : Nat) (e1 : Nat × Nat),
      let l1 := (d.slice slice).l1Table.toNat
      let l2 := field e1.2 0 48
      l1 ≠ 0 ∧ d.pool.xWords (l1 + 16 * (page / 2 ^ 16)) = .ok e1 ∧ e1.2.testBit 63 = true ∧ (e1.1 ≠ 0 ∨ e1.2.testBit 62 = true ∨
        e1.2.testBit 58 = false ∨ field e1.2 48 10 ≠ 0 ∨ l2 % 32768 ≠ 0 ∨ d.pool.inTables l2 32768 = false)) ∧
    (∃ (d : Dev) (slice : Nat) (page : Nat) (e1 : Nat × Nat) (e2 : Nat × Nat),
      let l1 := (d.slice slice).l1Table.toNat
      let l2 := field e1.2 0 48
      l1 ≠ 0 ∧ d.pool.xWords (l1 + 16 * (page / 2 ^ 16)) = .ok e1 ∧ e1.1 = 0 ∧ e1.2.testBit 63 = true ∧ e1.2.testBit 62 = false ∧
        e1.2.testBit 58 = true ∧ field e1.2 48 10 = 0 ∧ l2 % 32768 = 0 ∧ d.pool.inTables l2 32768 = true ∧ d.pool.xWords (l2 + 16 * (page
        / 32 % 2048)) = .ok e2 ∧ e2.2.testBit 63 = false) ∧
    (∃ (d : Dev) (slice : Nat) (page : Nat) (e1 : Nat × Nat) (e2 : Nat × Nat),
      let l1 := (d.slice slice).l1Table.toNat
      let l2 := field e1.2 0 48
      l1 ≠ 0 ∧ d.pool.xWords (l1 + 16 * (page / 2 ^ 16)) = .ok e1 ∧ e1.1 = 0 ∧ e1.2.testBit 63 = true ∧ e1.2.testBit 62 = false ∧
        e1.2.testBit 58 = true ∧ field e1.2 48 10 = 0 ∧ l2 % 32768 = 0 ∧ d.pool.inTables l2 32768 = true ∧ d.pool.xWords (l2 + 16 * (page
        / 32 % 2048)) = .ok e2 ∧ e2.2.testBit 63 = true ∧ e2.2.testBit 58 = false ∧ (e2.2.testBit 62 = false ∨ field e2.2 48 10 ≠ 0 ∨
        field e2.2 19 13 ≠ 0 ∨ field e2.2 32 16 = 0xFFFF ∨ field e2.2 0 19 % 32 ≠ 0)) ∧
    (∃ (d : Dev) (slice : Nat) (page : Nat) (e1 : Nat × Nat) (e2 : Nat × Nat),
      let l1 := (d.slice slice).l1Table.toNat
      let l2 := field e1.2 0 48
      l1 ≠ 0 ∧ d.pool.xWords (l1 + 16 * (page / 2 ^ 16)) = .ok e1 ∧ e1.1 = 0 ∧ e1.2.testBit 63 = true ∧ e1.2.testBit 62 = false ∧
        e1.2.testBit 58 = true ∧ field e1.2 48 10 = 0 ∧ l2 % 32768 = 0 ∧ d.pool.inTables l2 32768 = true ∧ d.pool.xWords (l2 + 16 * (page
        / 32 % 2048)) = .ok e2 ∧ e2.2.testBit 63 = true ∧ e2.2.testBit 62 = true ∧ e2.2.testBit 58 = false ∧ field e2.2 48 10 = 0 ∧ field
        e2.2 19 13 = 0 ∧ field e2.2 32 16 ≠ 0xFFFF ∧ field e2.2 0 19 % 32 = 0) ∧
    (∃ (d : Dev) (slice : Nat) (page : Nat) (e1 : Nat × Nat) (e2 : Nat × Nat),
      let l1 := (d.slice slice).l1Table.toNat
      let l2 := field e1.2 0 48
      let l3 := field e2.2 0 48
      l1 ≠ 0 ∧ d.pool.xWords (l1 + 16 * (page / 2 ^ 16)) = .ok e1 ∧ e1.1 = 0 ∧ e1.2.testBit 63 = true ∧ e1.2.testBit 62 = false ∧
        e1.2.testBit 58 = true ∧ field e1.2 48 10 = 0 ∧ l2 % 32768 = 0 ∧ d.pool.inTables l2 32768 = true ∧ d.pool.xWords (l2 + 16 * (page
        / 32 % 2048)) = .ok e2 ∧ e2.2.testBit 63 = true ∧ e2.2.testBit 58 = true ∧ (e2.1 ≠ 0 ∨ e2.2.testBit 62 = true ∨ field e2.2 48 10 ≠
        0 ∨ l3 % 512 ≠ 0 ∨ d.pool.inTables l3 512 = false)) ∧
    (∃ (d : Dev) (slice : Nat) (page : Nat) (e1 : Nat × Nat) (e2 : Nat × Nat) (e3 : Nat × Nat),
      let l1 := (d.slice slice).l1Table.toNat
      let l2 := field e1.2 0 48
      let l3 := field e2.2 0 48
      l1 ≠ 0 ∧ d.pool.xWords (l1 + 16 * (page / 2 ^ 16)) = .ok e1 ∧ e1.1 = 0 ∧ e1.2.testBit 63 = true ∧ e1.2.testBit 62 = false ∧
        e1.2.testBit 58 = true ∧ field e1.2 48 10 = 0 ∧ l2 % 32768 = 0 ∧ d.pool.inTables l2 32768 = true ∧ d.pool.xWords (l2 + 16 * (page
        / 32 % 2048)) = .ok e2 ∧ e2.1 = 0 ∧ e2.2.testBit 63 = true ∧ e2.2.testBit 62 = false ∧ e2.2.testBit 58 = true ∧ field e2.2 48 10 =
        0 ∧ l3 % 512 = 0 ∧ d.pool.inTables l3 512 = true ∧ d.pool.xWords (l3 + 16 * (page % 32)) = .ok e3 ∧ e3.2.testBit 63 = false) ∧
    (∃ (d : Dev) (slice : Nat) (page : Nat) (e1 : Nat × Nat) (e2 : Nat × Nat) (e3 : Nat × Nat),
      let l1 := (d.slice slice).l1Table.toNat
      let l2 := field e1.2 0 48
      let l3 := field e2.2 0 48
      l1 ≠ 0 ∧ d.pool.xWords (l1 + 16 * (page / 2 ^ 16)) = .ok e1 ∧ e1.1 = 0 ∧ e1.2.testBit 63 = true ∧ e1.2.testBit 62 = false ∧
        e1.2.testBit 58 = true ∧ field e1.2 48 10 = 0 ∧ l2 % 32768 = 0 ∧ d.pool.inTables l2 32768 = true ∧ d.pool.xWords (l2 + 16 * (page
        / 32 % 2048)) = .ok e2 ∧ e2.1 = 0 ∧ e2.2.testBit 63 = true ∧ e2.2.testBit 62 = false ∧ e2.2.testBit 58 = true ∧ field e2.2 48 10 =
        0 ∧ l3 % 512 = 0 ∧ d.pool.inTables l3 512 = true ∧ d.pool.xWords (l3 + 16 * (page % 32)) = .ok e3 ∧ e3.2.testBit 63 = true ∧
        (e3.2.testBit 62 = true ∨ e3.2.testBit 58 = true ∨ field e3.2 48 10 ≠ 0 ∨ field e3.2 19 13 ≠ 0 ∨ field e3.2 32 16 = 0xFFFF)) ∧
    (∃ (d : Dev) (slice : Nat) (page : Nat) (e1 : Nat × Nat) (e2 : Nat × Nat) (e3 : Nat × Nat),
      let l1 := (d.slice slice).l1Table.toNat
      let l2 := field e1.2 0 48
      let l3 := field e2.2 0 48
      l1 ≠ 0 ∧ d.pool.xWords (l1 + 16 * (page / 2 ^ 16)) = .ok e1 ∧ e1.1 = 0 ∧ e1.2.testBit 63 = true ∧ e1.2.testBit 62 = false ∧
        e1.2.testBit 58 = true ∧ field e1.2 48 10 = 0 ∧ l2 % 32768 = 0 ∧ d.pool.inTables l2 32768 = true ∧ d.pool.xWords (l2 + 16 * (page
        / 32 % 2048)) = .ok e2 ∧ e2.1 = 0 ∧ e2.2.testBit 63 = true ∧ e2.2.testBit 62 = false ∧ e2.2.testBit 58 = true ∧ field e2.2 48 10 =
        0 ∧ l3 % 512 = 0 ∧ d.pool.inTables l3 512 = true ∧ d.pool.xWords (l3 + 16 * (page % 32)) = .ok e3 ∧ e3.2.testBit 63 = true ∧
        e3.2.testBit 62 = false ∧ e3.2.testBit 58 = false ∧ field e3.2 48 10 = 0 ∧ field e3.2 19 13 = 0 ∧ field e3.2 32 16 ≠ 0xFFFF) ∧
    (∃ (d : Dev) (e : Nat) (slice : Nat) (page : Nat) (x : XEntry),
      (d.xlate.engine.all fun y => !(y.1 = e && y.2.covers slice page)) = true ∧ x.covers slice page = true) :=
  ⟨⟨(tbl 0 []).dev, 1, by decide +kernel⟩,
   ⟨(tbl (BitVec.ofNat 48 T1) []).dev, 1, 31, (0, 0), by decide +kernel⟩,
   ⟨(tbl (BitVec.ofNat 48 T1) (memWrites [] (T1 + 8) (le 8 (2 ^ 63)))).dev, 1, 31, (0, 2 ^ 63), by decide +kernel⟩,
   ⟨(tbl (BitVec.ofNat 48 T1) (ent2 0)).dev, 1, 31, (0, ptr (T1 + 2 ^ 20)), (0, 0), by decide +kernel⟩,
   ⟨(tbl (BitVec.ofNat 48 T1) (ent2 (2 ^ 63))).dev, 1, 31, (0, ptr (T1 + 2 ^ 20)), (0, 2 ^ 63), by decide +kernel⟩,
   ⟨(tbl (BitVec.ofNat 48 T1) big2).dev, 1, 31, (0, ptr (T1 + 2 ^ 20)), (0, 2 ^ 63 + 2 ^ 62 + 7 * 2 ^ 59 + 0xC001 * 2 ^ 32),
     by decide +kernel⟩,
   ⟨(tbl (BitVec.ofNat 48 T1) (ent2 (2 ^ 63 + 2 ^ 58 + 1))).dev, 1, 31, (0, ptr (T1 + 2 ^ 20)), (0, 2 ^ 63 + 2 ^ 58 + 1),
     by decide +kernel⟩,
   ⟨(tbl (BitVec.ofNat 48 T1) (ent3 0)).dev, 1, 31, (0, ptr (T1 + 2 ^ 20)), (0, ptr (T1 + 2 ^ 21)), (0, 0), by decide +kernel⟩,
   ⟨(tbl (BitVec.ofNat 48 T1) (ent3 (2 ^ 63 + 2 ^ 62))).dev, 1, 31, (0, ptr (T1 + 2 ^ 20)), (0, ptr (T1 + 2 ^ 21)), (0, 2 ^ 63 + 2 ^ 62),
     by decide +kernel⟩,
   ⟨(tbl (BitVec.ofNat 48 T1) small3).dev, 1, 31, (0, ptr (T1 + 2 ^ 20)), (0, ptr (T1 + 2 ^ 21)), (0,
     2 ^ 63 + 7 * 2 ^ 59 + 0xC001 * 2 ^ 32), by decide +kernel⟩,
   ⟨(on id).dev, 0, 1, 31, { xent with svaPage := 31 }, by decide +kernel⟩⟩

theorem witness_CopyAndCheckJobs :
    (∃ (s : State) (w : Walk) (x : XEntry),
      s.dev.xlate.walks = [w] ∧ s.dev.walk w.slice.toNat w.svaPage = .ok x ∧ s.dev.tiles.pipes = [] ∧ s.dev.xlate.translating = []) ∧
    (∃ (s : State) (w : Walk) (st : Nat),
      s.dev.xlate.walks = [w] ∧ s.dev.walk w.slice.toNat w.svaPage = .error st) ∧
    (∃ (s : State) (j : CopyJob),
      s.dev.xlate.running = some j ∧ j.status = none ∧ j.moved = j.written ∧ j.moved < j.length ∧ s.dev.xlate.pendingInv = [] ∧
        s.dev.copyNeeds j = []) ∧
    (∃ (s : State) (j : CopyJob),
      s.dev.xlate.running = some j ∧ j.status = none ∧ j.moved = j.length ∧ s.dev.copyBusy j = false ∧ s.dev.xlate.pendingInv = [] ∧
        s.dev.xlate.atsEnable = false ∧ j.noRecord = false ∧ j.record.toNat % 16 = 0 ∧ s.dev.xlate.copies = [] ∧ 16 ≤
        s.dev.host.maxPayload ∧ s.dev.prot.revoking = []) ∧
    (∃ (s : State) (r : AtsReq) (a : AtsAnswer) (t : BitVec 52),
      s.dev.xlate.atsReqs = [r] ∧ a.transl = some t ∧ s.dev.xlate.translating = [] ∧ s.dev.xlate.running = none) ∧
    (∃ (s : State),
      s.dev.xlate.translating = [] ∧ s.dev.xlate.copies = [] ∧ s.dev.xlate.running = none) ∧
    (∃ (s : State),
      s.dev.xlate.translating = [] ∧ s.dev.xlate.copies = [] ∧ s.dev.xlate.running = none) ∧
    (∃ (s : State) (r : RingNo) (c : Cmd),
      let fm : Form := { op := 0x0810, roles := [1], cls := some 0x19, hi := 63, used := [(16, 20), (24, 48)] }
      let i := c.inst.toNat
      let b := c.u 16 1
      let sl := c.u 18 2
      let off := c.u 24 8
      let len := c.u 32 8
      s.dev.hears r c fm ∧ 1 ≤ sl ∧ sl < 1024 ∧ s.dev.tornDown sl = false ∧ field b 6 2 ≠ 3 ∧ field b 2 3 = 0 ∧ c.u 17 1 = i % 16 ∧ c.u 17
        1 < 8 ∧ off < 2 ^ 48 ∧ 1 ≤ len ∧ len ≤ 3298534883328 ∧ (s.dev.checkCtx i).state ≠ 1 ∧ s.dev.isConf sl = false ∧ (∀ e ∈
        s.dev.prot.regions, e.2.valid = true → e.2.enc = 1 → off + len ≤ e.2.base.toNat * pageSize ∨ (e.2.base.toNat + e.2.length.toNat) *
        pageSize ≤ off)) ∧
    (∃ (s : State) (r : RingNo) (c : Cmd), ∃ st, ∃ b,
      let d := s.dev.taken r 1 c
      let fm : Form := { op := 0x0820, roles := [1], cls := some 0x1A, used := [(16, 19), (24, 58)] }
      let j := copyJobOf c
      s.dev.hears r c fm ∧ s.dev.sliceEnded (c.u 16 2) 2 = none ∧ copyFormFault c = none ∧ s.dev.sliceLive (c.u 16 2) = true ∧
        s.dev.isConf (c.u 16 2) = false ∧ d.meetNeeds j (d.copyNeeds j) = .error (st, b)) ∧
    (∃ (s : State) (r : RingNo) (c : Cmd), ∃ j', ∃ x, ∃ b,
      let d := s.dev.taken r 1 c
      let fm : Form := { op := 0x0820, roles := [1], cls := some 0x1A, used := [(16, 19), (24, 58)] }
      let j := copyJobOf c
      s.dev.hears r c fm ∧ s.dev.sliceEnded (c.u 16 2) 2 = none ∧ copyFormFault c = none ∧ s.dev.sliceLive (c.u 16 2) = true ∧
        s.dev.isConf (c.u 16 2) = false ∧ d.meetNeeds j (d.copyNeeds j) = .ok (j', x) ∧ x.copyNeeds j' = [] ∧ copyRangeFault c = some b) ∧
    (∃ (s : State) (r : RingNo) (c : Cmd), ∃ j', ∃ x,
      let d := s.dev.taken r 1 c
      let fm : Form := { op := 0x0820, roles := [1], cls := some 0x1A, used := [(16, 19), (24, 58)] }
      let j := copyJobOf c
      s.dev.hears r c fm ∧ s.dev.sliceEnded (c.u 16 2) 2 = none ∧ copyFormFault c = none ∧ s.dev.sliceLive (c.u 16 2) = true ∧
        s.dev.isConf (c.u 16 2) = false ∧ d.meetNeeds j (d.copyNeeds j) = .ok (j', x) ∧ x.copyNeeds j' = [] ∧ copyRangeFault c = none ∧
        256 ≤ x.xlate.copies.length) ∧
    (∃ (s : State) (r : RingNo) (c : Cmd), ∃ j', ∃ x,
      let d := s.dev.taken r 1 c
      let fm : Form := { op := 0x0820, roles := [1], cls := some 0x1A, used := [(16, 19), (24, 58)] }
      let j := copyJobOf c
      s.dev.hears r c fm ∧ s.dev.sliceEnded (c.u 16 2) 2 = none ∧ copyFormFault c = none ∧ s.dev.sliceLive (c.u 16 2) = true ∧
        s.dev.isConf (c.u 16 2) = false ∧ d.meetNeeds j (d.copyNeeds j) = .ok (j', x) ∧ x.copyNeeds j' = [] ∧ copyRangeFault c = none ∧
        x.xlate.copies.length < 256) ∧
    (∃ (s : State) (r : RingNo) (c : Cmd), ∃ j', ∃ x,
      let d := s.dev.taken r 1 c
      let fm : Form := { op := 0x0820, roles := [1], cls := some 0x1A, used := [(16, 19), (24, 58)] }
      let j := copyJobOf c
      s.dev.hears r c fm ∧ s.dev.sliceEnded (c.u 16 2) 2 = none ∧ copyFormFault c = none ∧ s.dev.sliceLive (c.u 16 2) = true ∧
        s.dev.isConf (c.u 16 2) = false ∧ d.meetNeeds j (d.copyNeeds j) = .ok (j', x) ∧ x.copyNeeds j' ≠ []) ∧
    (∃ (s : State) (r : RingNo) (c : Cmd),
      let d := s.dev.taken r 1 c
      let fm : Form := { op := 0x0820, roles := [1], cls := some 0x1A, used := [(16, 19), (24, 58)] }
      let j := copyJobOf c
      s.dev.hears r c fm ∧ s.dev.sliceEnded (c.u 16 2) 2 = none ∧ copyFormFault c = none ∧ s.dev.sliceLive (c.u 16 2) = true ∧
        s.dev.isConf (c.u 16 2) = false ∧ d.copyNeeds j = [] ∧ copyRangeFault c = none ∧ s.dev.xlate.copies.length < 256) :=
  ⟨⟨on fun d => { d with prot := { d.prot with slices := [(1, { state := 1, l1Table := BitVec.ofNat 48 T1 })] }, pool := { d.pool with mem := big2 }, xlate := { walks := [⟨0, 5, 1, 31⟩] } },
    ⟨0, 5, 1, 31⟩, (match (tbl (BitVec.ofNat 48 T1) big2).dev.walk 1 31 with | .ok x => x | _ => xent), by decide +kernel⟩,
   ⟨xl { walks := [⟨0, 5, 1, 31⟩] }, ⟨0, 5, 1, 31⟩, 0x03, by decide +kernel⟩,
   ⟨xl { running := some job }, job, by decide +kernel⟩,
   ⟨xl { running := some { job with moved := 100, written := 100 } }, { job with moved := 100, written := 100 }, by decide +kernel⟩,
   ⟨xl { atsEnable := true, atsReqs := [⟨0, 3⟩] }, ⟨0, 3⟩, ⟨3, some 9, true, true⟩, 9, by decide +kernel⟩,
   ⟨xl { atc := [⟨3, 9, true, true⟩, ⟨4, 9, true, true⟩] }, by decide +kernel⟩,
   ⟨xl { atc := [⟨3, 9, true, true⟩] }, by decide +kernel⟩,
   ⟨on id, 0, cmd 0x19 0 [(18, 1), (24, 0), (32, 64), (40, 7)],
     by (simp only [Dev.hears, Dev.ringReady, Sys2Proof.Machine.Cmd.fits]; decide +kernel)⟩,
   ⟨cs3, 0, cpc, 2, 32, by (simp only [Dev.hears, Dev.ringReady, Sys2Proof.Machine.Cmd.fits]; decide +kernel)⟩,
   ⟨cs2, 0, cpb, { copyJobOf cpb with dstPages := [c5] }, (cs2.dev.taken 0 1 cpb), 48,
     by (simp only [Dev.hears, Dev.ringReady, Sys2Proof.Machine.Cmd.fits]; decide +kernel)⟩,
   ⟨cs4, 0, cpc, { copyJobOf cpc with dstPages := [c5] }, (cs4.dev.taken 0 1 cpc),
     by (simp only [Dev.hears, Dev.ringReady, Sys2Proof.Machine.Cmd.fits]; decide +kernel)⟩,
   ⟨cs2, 0, cpc, { copyJobOf cpc with dstPages := [c5] }, (cs2.dev.taken 0 1 cpc),
     by (simp only [Dev.hears, Dev.ringReady, Sys2Proof.Machine.Cmd.fits]; decide +kernel)⟩,
   ⟨cs1, 0, cpc, copyJobOf cpc, cpx, by (simp only [Dev.hears, Dev.ringReady, Sys2Proof.Machine.Cmd.fits]; decide +kernel)⟩,
   ⟨cs2, 0, cmd 0x1A 0 [(16, 1), (18, 0xC0), (24, 0), (32, 5 * 2 ^ 29), (40, 100), (48, 0x1000), (56, 0xFFFF)],
     by (simp only [Dev.hears, Dev.ringReady, Sys2Proof.Machine.Cmd.fits]; decide +kernel)⟩⟩

end W3

namespace W4

def ring0 (g : Ring) : State := on fun d => { d with host := { d.host with rings := [(0, g)] } }
def win1 : Window := { key := 7, node := 0xC001, slice := 1, enable := true, stream := some 1 }
def wins (x : Window) : State := on fun d => { d with host := { d.host with windows := [(0, x)] }, req := { d.req with streams := [{ stream := 1, ep := 8, inp := 176, cls := .o, slice := 1 }] } }
def mgmtF (op : BitVec 8) (n : Nat) (tag : BitVec 32) : Frame := Frame.sealAll { dst := 0xC001, src := 0xC002, tag := tag, op := op, cls := .m, length := BitVec.ofNat 12 n, payload := List.replicate n 0 }
def grp : Group := { key := 5, launchSeq := 4, state := 1, slice := 1, depth := 8, elements := 100, dtype := 0, rate := 16, torusRate := 1, xSet := 2, ySet := 1, zSet := 1, timeout := 1000, members := [⟨1, 0, 9, 64⟩, ⟨2, 0, 9, 64⟩] }
def mem3 : Tbl NodeEntry := [(1, { valid := true, rack := 128, edgePort := 10 }), (2, { valid := true, rack := 128, edgePort := 11 })]
def grpNum (g : Group) : Nat :=
  unle (le 8 g.key.toNat ++ zeros 6 ++ le 2 g.slice.toNat ++ [0, 0] ++ le 2 2 ++ zeros 2 ++ le 2 g.depth ++ le 4 g.elements ++ le 2 g.rate ++ le 2 g.torusRate ++ le 4 g.timeout ++
    le 2 g.xSet.toNat ++ le 2 g.ySet.toNat ++ [1] ++ zeros 23 ++ (le 6 0 ++ le 2 1 ++ le 8 9 ++ le 6 64 ++ zeros 10) ++ (le 6 0 ++ le 2 2 ++ le 8 9 ++ le 6 64 ++ zeros 10))
def withG (l : Tbl Group) : State := on fun d => { d with relay := { d.relay with groups := l }, rt := { d.rt with nodes := mem3 }, ports := [(10, { role := 0x40, slice := 1 }), (11, { role := 0x40, slice := 1 })] }
def up7e : PortSt := { lstate := 7, txLanes := 0xFF, rxLanes := 0xFF, role := 0x40 }
def det (x : Detour) : State := on fun d => { d with ports := [(0, { up7 with role := 0x80 })], rt := { d.rt with detours := [x] ++ d.rt.detours.drop 1 } }
def lastBytes : List Byte :=
  let stage := ([3, 0] : List Byte) ++ le 2 1 ++ le 4 16 ++ le 4 0 ++ le 4 65536 ++ zeros 48 ++ List.replicate 16 1
  let body := ([1, 3] : List Byte) ++ zeros 2 ++ le 4 128 ++ le 4 80 ++ le 4 (crc32c stage) ++ zeros 48 ++ stage ++ zeros 48
  let head := le 4 0x5453414C ++ le 2 1 ++ [1, 0] ++ le 4 256 ++ le 2 1 ++ [1, 0] ++ le 8 5 ++ le 4 (crc32c body) ++ zeros 32
  head ++ le 4 (crc32c head) ++ body
def keyCmd : Cmd :=
  refCmd 0x09 0 [(16, 1)] 192 (le 4 1 ++ le 4 1 ++ le 8 Config.serial.toNat ++ (zeros 108 ++ le 4 48 ++ zeros 64))
theorem key_serial : num (refBytes keyCmd) 8 8 = Config.serial.toNat := by
  have h : refLen keyCmd = 192 := by decide +kernel
  rw [refBytes, h]; exact serial_read _ _
def pl (x : PipeSt) : State := on fun d => { d with tiles := { d.tiles with pipes := [(1, x)] } }
def conf1 : Tbl SliceSt := [(1, { state := 1, conf := true })]
def key1 : KeySlot := { slice := 1, state := 1, releaseId := 3 }
def T1 : Nat := 6015 * 2 ^ 29 + 2 ^ 25
def pert (x : Perturb) (p : PortSt) : State := on fun d => { d with test := { d.test with perturbs := [(2, x)] }, ports := [(0, p)] }
def drl (x : Drill) : State := on fun d => { d with test := { d.test with drills := [(2, x)] }, ports := [(0, up7)] }
def refusedStart : State := on fun d => { d with
  tiles := { d.tiles with pipes := [(1, { state := 1, slice := 1, windows := [⟨0, 2 ^ 29, 0, 7, 1, 1, []⟩] })] },
  xlate := { engine := [((({ state := 1, slice := 1 } : PipeSt)).unit, { slice := 1, svaPage := 0, big := false, node := 0xC001, frame := 3, key := 7, rights := 1 })] } }

theorem witness_HostRegistersAndWindows :
    (∃ (data : List Byte),
      data.length ≤ 8) ∧
    (∃ (s : State) (r : RingNo) (w : BitVec 32),
      (s.dev.ring r).enable = false ∧ w.toNat.testBit 31 = true) ∧
    (∃ (s : State) (r : RingNo) (w : BitVec 32),
      (s.dev.ring r).enable = true ∧ w.toNat.testBit 31 = false) ∧
    (∃ (s : State) (r : RingNo),
      (s.dev.ring r).unsignalled ≠ 0 ∧ (s.dev.ring r).coalTime ≠ 0) ∧
    (∃ (s : State) (w : RingNo) (a : BitVec 32) (st : Nat) (data : List Byte),
      let x := s.dev.window w
      let off := x.base.toNat + a.toNat
      x.enable = true ∧ s.dev.windowStream w = some st ∧ data ≠ [] ∧ off % 2048 + data.length ≤ 2048) ∧
    (∃ (s : State) (w : RingNo) (a : BitVec 32) (st : Nat) (n : Nat),
      let x := s.dev.window w
      let off := x.base.toNat + a.toNat
      x.enable = true ∧ s.dev.windowStream w = some st ∧ s.dev.host.reads = [] ∧ 0 < n ∧ off % 2048 + n ≤ 2048) ∧
    (∃ (s : State) (w : RingNo),
      let x := s.dev.window w
      x.enable = false) ∧
    (∃ (s : State),
      s.dev.xlate.translating = []) :=
  ⟨⟨[1], by decide +kernel⟩,
   ⟨ring0 {}, 0, 0x80010006, by decide +kernel⟩,
   ⟨ring0 { enable := true }, 0, 0, by decide +kernel⟩,
   ⟨ring0 { unsignalled := 1, coalTime := 5, vector := 3 }, 0, by decide +kernel⟩,
   ⟨wins win1, 0, 0, 1, List.replicate 64 2, by decide +kernel⟩,
   ⟨wins win1, 0, 64, 1, 64, by decide +kernel⟩,
   ⟨wins { win1 with enable := false }, 0, by decide +kernel⟩,
   ⟨wins win1, by decide +kernel⟩⟩

theorem witness_ManagementFrames :
    (∃ (s : State) (f : Frame),
      f.hchkOk = true ∧ f.checkOk = true ∧ f.conf = false ∧ s.dev.tornDown f.slice.toNat = false ∧ f.payload.length = 64 ∧ (num f.payload
        2 2).testBit 1 = false ∧ (s.dev.host.fabric.filter fun x => x.src = f.src).length < 16) ∧
    (∃ (s : State) (f : Frame), ∃ dir,
      f.hchkOk = true ∧ f.checkOk = true ∧ f.conf = false ∧ s.dev.tornDown f.slice.toNat = false ∧ s.dev.probedDir f = some dir ∧
        (s.dev.detour dir).state = 1) ∧
    (∃ (s : State) (f : Frame),
      f.hchkOk = true ∧ f.checkOk = true ∧ f.conf = false ∧ s.dev.tornDown f.slice.toNat = false ∧ s.dev.probedDir f = none) ∧
    (∃ (s : State) (f : Frame),
      f.hchkOk = true ∧ f.checkOk = true ∧ f.conf = false ∧ s.dev.tornDown f.slice.toNat = false ∧ f.payload.length = 64 ∧
        s.dev.faults.held < 4095) :=
  ⟨⟨on id, mgmtF 0x48 64 1, by decide +kernel⟩,
   ⟨on fun d => { d with rt := { d.rt with detours := ([{ side := 2, state := 1, probeTag := some 4 }] : List Detour) ++ d.rt.detours.drop 1 } },
     mgmtF 0x49 64 4, 0, by decide +kernel⟩,
   ⟨on id, mgmtF 0x49 64 4, by decide +kernel⟩,
   ⟨on id, mgmtF 0x4A 64 4, by decide +kernel⟩⟩

theorem witness_GetsAnswer :
    (∃ (s : State) (r : RingNo) (c : Cmd),
      let fm : Form := { op := 0x0000, roles := [1, 2, 3], get := true }
      s.dev.hears r c fm) ∧
    (∃ e, ∃ (s : State) (r : RingNo) (c : Cmd),
      (e ∈ ([(0x0100, [0x01, 0x3A], .identityGet), (0x0200, [0x02, 0x03, 0x04], .portGet), (0x0300, [0x05, 0x06], .routingGet), (0x0400,
        [0x07, 0x08], .regionGet), (0x0500, [0x09], .sliceGet), (0x0600, [0x0B], .groupGet), (0x0700, [0x10, 0x11, 0x12], .tileGet),
        (0x0800, [0x18, 0x19, 0x1A], .poolGet), (0x0900, [0x20], .powerGet), (0x0A00, [0x28, 0x29], .firmwareGet), (0x0B00, [0x30, 0x31],
        .perturbationGet), (0x0C00, [0x38, 0x39], .faultGet)] : List (Nat × List Nat × (Cmd → Instr)))) ∧
      let fm : Form := { op := e.1, roles := if c.cls = 0x01 then [0, 1, 2, 3] else [1, 2, 3], used := [(16, 64)], ref := 2, out := true, get := true }
      let img := s.dev.image s.fuses c.cls.toNat c.inst.toNat
      let off := c.u 16 4
      let len := c.u 20 4
      s.dev.hears r c fm ∧ e.2.1.contains c.cls.toNat = true ∧ instanceOk c.cls.toNat c.inst.toNat = true ∧ off % 8 = 0 ∧ len % 8 = 0 ∧
        len ≠ 0 ∧ img.length < off + len) ∧
    (∃ e, ∃ (s : State) (r : RingNo) (c : Cmd),
      (e ∈ ([(0x0100, [0x01, 0x3A], .identityGet), (0x0200, [0x02, 0x03, 0x04], .portGet), (0x0300, [0x05, 0x06], .routingGet), (0x0400,
        [0x07, 0x08], .regionGet), (0x0500, [0x09], .sliceGet), (0x0600, [0x0B], .groupGet), (0x0700, [0x10, 0x11, 0x12], .tileGet),
        (0x0800, [0x18, 0x19, 0x1A], .poolGet), (0x0900, [0x20], .powerGet), (0x0A00, [0x28, 0x29], .firmwareGet), (0x0B00, [0x30, 0x31],
        .perturbationGet), (0x0C00, [0x38, 0x39], .faultGet)] : List (Nat × List Nat × (Cmd → Instr)))) ∧
      let fm : Form := { op := e.1, roles := if c.cls = 0x01 then [0, 1, 2, 3] else [1, 2, 3], used := [(16, 64)], ref := 2, out := true, get := true }
      let img := s.dev.image s.fuses c.cls.toNat c.inst.toNat
      let off := c.u 16 4
      let len := c.u 20 4
      s.dev.hears r c fm ∧ e.2.1.contains c.cls.toNat = true ∧ instanceOk c.cls.toNat c.inst.toNat = true ∧ off % 8 = 0 ∧ len % 8 = 0 ∧
        len ≠ 0 ∧ off + len ≤ img.length ∧ len ≤ 48) ∧
    (∃ e, ∃ (s : State) (r : RingNo) (c : Cmd),
      (e ∈ ([(0x0100, [0x01, 0x3A], .identityGet), (0x0200, [0x02, 0x03, 0x04], .portGet), (0x0300, [0x05, 0x06], .routingGet), (0x0400,
        [0x07, 0x08], .regionGet), (0x0500, [0x09], .sliceGet), (0x0600, [0x0B], .groupGet), (0x0700, [0x10, 0x11, 0x12], .tileGet),
        (0x0800, [0x18, 0x19, 0x1A], .poolGet), (0x0900, [0x20], .powerGet), (0x0A00, [0x28, 0x29], .firmwareGet), (0x0B00, [0x30, 0x31],
        .perturbationGet), (0x0C00, [0x38, 0x39], .faultGet)] : List (Nat × List Nat × (Cmd → Instr)))) ∧
      let fm : Form := { op := e.1, roles := if c.cls = 0x01 then [0, 1, 2, 3] else [1, 2, 3], used := [(16, 64)], ref := 2, out := true, get := true }
      let img := s.dev.image s.fuses c.cls.toNat c.inst.toNat
      let off := c.u 16 4
      let len := c.u 20 4
      s.dev.hears r c fm ∧ e.2.1.contains c.cls.toNat = true ∧ instanceOk c.cls.toNat c.inst.toNat = true ∧ off % 8 = 0 ∧ len % 8 = 0 ∧
        len ≠ 0 ∧ off + len ≤ img.length ∧ 48 < len ∧ c.ref.isSome = true ∧ refLen c = len) :=
  ⟨⟨on id, 0, cmd 0 0 [], by (simp only [Dev.hears, Dev.ringReady, Sys2Proof.Machine.Cmd.fits]; decide +kernel)⟩,
   ⟨(0x0100, [0x01, 0x3A], Instr.identityGet), on id, 0, cmd 0x01 0 [(16, 0x100000), (20, 8)],
     by (simp only [Dev.hears, Dev.ringReady, Sys2Proof.Machine.Cmd.fits]; refine ⟨by simp, ?_⟩; decide +kernel)⟩,
   ⟨(0x0500, [0x09], Instr.sliceGet), on id, 0, cmd 0x09 1 [(16, 0), (20, 16)],
     by (simp only [Dev.hears, Dev.ringReady, Sys2Proof.Machine.Cmd.fits]; refine ⟨by simp, ?_⟩; decide +kernel)⟩,
   ⟨(0x0100, [0x01, 0x3A], Instr.identityGet), on id, 0, refCmd 0x01 0 [(16, 0), (20, 64)] 64 [],
     by (simp only [Dev.hears, Dev.ringReady, Sys2Proof.Machine.Cmd.fits]; refine ⟨by simp, ?_⟩; decide +kernel)⟩⟩

theorem witness_SetsWrite :
    (∃ (s : State) (r : RingNo) (c : Cmd),
      c.ref = none ∧ instanceOk c.cls.toNat c.inst.toNat = true ∧
      let form (op : Nat) (roles : List Nat) : Form := { op := op, roles := roles, used := [(16, 64)], ref := 2 }
      let spans (off len : Nat) : Prop := c.u 16 4 = off ∧ c.u 20 4 = len ∧ strayFrom c (24 + len) = none
      s.dev.hears r c (form 0x0901 [1]) ∧ c.cls = 0x20 ∧ spans 16 8 ∧ 1500 ≤ c.u 24 4 ∧ c.u 24 4 ≤ 4000) ∧
    (∃ (s : State) (r : RingNo) (c : Cmd),
      c.ref = none ∧ instanceOk c.cls.toNat c.inst.toNat = true ∧
      let i := c.inst.toNat
      let form (op : Nat) (roles : List Nat) : Form := { op := op, roles := roles, used := [(16, 64)], ref := 2 }
      let spans (off len : Nat) : Prop := c.u 16 4 = off ∧ c.u 20 4 = len ∧ strayFrom c (24 + len) = none
      s.dev.hears r c (form 0x0801 [1]) ∧ c.cls = 0x19 ∧ spans 8 8 ∧ (s.dev.checkCtx i).state ≠ 1) ∧
    (∃ (s : State) (r : RingNo) (c : Cmd),
      c.ref = none ∧ instanceOk c.cls.toNat c.inst.toNat = true ∧
      let i := c.inst.toNat
      let form (op : Nat) (roles : List Nat) : Form := { op := op, roles := roles, used := [(16, 64)], ref := 2 }
      let spans (off len : Nat) : Prop := c.u 16 4 = off ∧ c.u 20 4 = len ∧ strayFrom c (24 + len) = none
      s.dev.hears r c (form 0x0701 [1]) ∧ c.cls = 0x12 ∧ spans 8 8 ∧ (s.dev.pipe i).state = 1 ∧ 10 ≤ (s.dev.pipe i).stallUs ∧ (s.dev.pipe
        i).stallUs ≤ 100000 ∧ s.dev.isConf (s.dev.pipe i).slice.toNat = false) ∧
    (∃ (s : State) (r : RingNo) (c : Cmd),
      c.ref = none ∧ instanceOk c.cls.toNat c.inst.toNat = true ∧
      let i := c.inst.toNat
      let form (op : Nat) (roles : List Nat) : Form := { op := op, roles := roles, used := [(16, 64)], ref := 2 }
      let spans (off len : Nat) : Prop := c.u 16 4 = off ∧ c.u 20 4 = len ∧ strayFrom c (24 + len) = none
      s.dev.hears r c (form 0x0301 [1]) ∧ c.cls = 0x06 ∧ spans 0 8 ∧
      let v := c.u 24 8
      field v 62 2 = 2 ∧ field v 51 11 = 0 ∧ field v 32 8 = 0xFF ∧ inDomain s.dev.rt (field v 40 11) = true ∧ field v 40 11 ≠ s.dev.rack ∧
        (tget s.dev.rt.nodes i {}).valid = false ∧ s.dev.nodeBusy i = false) ∧
    (∃ (s : State) (r : RingNo) (c : Cmd),
      c.ref = none ∧ instanceOk c.cls.toNat c.inst.toNat = true ∧
      let i := c.inst.toNat
      let form (op : Nat) (roles : List Nat) : Form := { op := op, roles := roles, used := [(16, 64)], ref := 2 }
      let spans (off len : Nat) : Prop := c.u 16 4 = off ∧ c.u 20 4 = len ∧ strayFrom c (24 + len) = none
      s.dev.hears r c (form 0x0401 [1]) ∧ c.cls = 0x07 ∧ spans 0 16 ∧
      let v := c.u 32 8
      field v 59 4 = 0 ∧ field v 32 12 = 0 ∧ (s.dev.region i).valid = false ∧ s.dev.isConf (field v 46 10) = false ∧
      let x : Region := { key := BitVec.ofNat 64 (c.u 24 8), valid := v.testBit 63, a := v.testBit 58, w := v.testBit 57, r := v.testBit 56,
                          slice := BitVec.ofNat 10 (field v 46 10), enc := BitVec.ofNat 2 (field v 44 2), length := BitVec.ofNat 13 (field v 19 13),
                          base := BitVec.ofNat 19 (field v 0 19), refusals := 0 }
      field v 44 2 ≤ 1 ∧ (x.valid = true → s.dev.regionFault i x = none)) ∧
    (∃ (s : State) (r : RingNo) (c : Cmd),
      c.ref = none ∧ instanceOk c.cls.toNat c.inst.toNat = true ∧
      let i := c.inst.toNat
      let form (op : Nat) (roles : List Nat) : Form := { op := op, roles := roles, used := [(16, 64)], ref := 2 }
      let spans (off len : Nat) : Prop := c.u 16 4 = off ∧ c.u 20 4 = len ∧ strayFrom c (24 + len) = none
      s.dev.hears r c (form 0x0201 [1, 2]) ∧ c.cls = 0x02 ∧ 144 ≤ i ∧ spans 56 8 ∧ c.u 28 4 = 0 ∧ 4096 ≤ c.u 24 4 ∧ c.u 24 4 ≤ 262144 ∧
        512 ≤ (s.dev.port i).markDepth ∧ (s.dev.port i).markDepth ≤ 262144) ∧
    (∃ (s : State) (r : RingNo) (c : Cmd),
      c.ref = none ∧ instanceOk c.cls.toNat c.inst.toNat = true ∧
      let form (op : Nat) (roles : List Nat) : Form := { op := op, roles := roles, used := [(16, 64)], ref := 2 }
      let spans (off len : Nat) : Prop := c.u 16 4 = off ∧ c.u 20 4 = len ∧ strayFrom c (24 + len) = none
      s.dev.hears r c (form 0x0A01 [1, 2]) ∧ c.cls = 0x28 ∧ spans 0 8) ∧
    (∃ (s : State) (r : RingNo) (c : Cmd),
      c.ref = none ∧ instanceOk c.cls.toNat c.inst.toNat = true ∧
      let i := c.inst.toNat
      let form (op : Nat) (roles : List Nat) : Form := { op := op, roles := roles, used := [(16, 64)], ref := 2 }
      let spans (off len : Nat) : Prop := c.u 16 4 = off ∧ c.u 20 4 = len ∧ strayFrom c (24 + len) = none
      s.dev.hears r c (form 0x0B01 [1]) ∧ c.cls = 0x31 ∧ spans 0 16 ∧ (s.dev.drill i).state = 0 ∧ c.u 24 1 ≤ 4 ∧ c.u 26 2 = 0 ∧ 60 ≤ c.u
        32 4 ∧ c.u 32 4 ≤ 2592000 ∧ 2 * c.u 36 4 ≤ c.u 32 4) ∧
    (∃ (s : State) (r : RingNo) (c : Cmd),
      c.ref = none ∧ instanceOk c.cls.toNat c.inst.toNat = true ∧
      let form (op : Nat) (roles : List Nat) : Form := { op := op, roles := roles, used := [(16, 64)], ref := 2 }
      let spans (off len : Nat) : Prop := c.u 16 4 = off ∧ c.u 20 4 = len ∧ strayFrom c (24 + len) = none
      s.dev.hears r c (form 0x0C01 [1]) ∧ c.cls = 0x38 ∧ spans 208 16 ∧ s.dev.faults.replayState ≠ 1 ∧ (s.dev.faults.logEnable = true →
        s.dev.pool.logPages ≠ 0)) ∧
    (∃ (s : State) (r : RingNo) (c : Cmd),
      c.ref = none ∧ instanceOk c.cls.toNat c.inst.toNat = true ∧
      let i := c.inst.toNat
      let form (op : Nat) (roles : List Nat) : Form := { op := op, roles := roles, used := [(16, 64)], ref := 2 }
      let spans (off len : Nat) : Prop := c.u 16 4 = off ∧ c.u 20 4 = len ∧ strayFrom c (24 + len) = none
      s.dev.hears r c (form 0x0601 [1]) ∧ c.cls = 0x0B ∧ spans 0 8 ∧ (s.dev.group i).state = 1 ∧ s.dev.isConf (s.dev.group i).slice.toNat
        = false ∧ (s.dev.group i).reduce < 4 ∧ (s.dev.group i).transport < 4 ∧
      let g := { s.dev.group i with key := BitVec.ofNat 64 (c.u 24 8) }
      s.dev.groupFault i g = none) :=
  ⟨⟨on id, 0, cmd 0x20 0 [(16, 16), (20, 8), (24, 1500)],
    by (simp only [Dev.hears, Dev.ringReady, Sys2Proof.Machine.Cmd.fits]; decide +kernel)⟩,
   ⟨on id, 0, cmd 0x19 3 [(16, 8), (20, 8), (24, 99)],
     by (simp only [Dev.hears, Dev.ringReady, Sys2Proof.Machine.Cmd.fits]; decide +kernel)⟩,
   ⟨pl { state := 1, slice := 1, stallUs := 10 }, 0, cmd 0x12 1 [(16, 8), (20, 8), (24, 99)],
     by (simp only [Dev.hears, Dev.ringReady, Sys2Proof.Machine.Cmd.fits]; decide +kernel)⟩,
   ⟨on id, 0, cmd 0x06 9 [(16, 0), (20, 8), (24, 2 * 2 ^ 62 + 0xFF * 2 ^ 32 + 256 * 2 ^ 40)],
     by (simp only [Dev.hears, Dev.ringReady, Sys2Proof.Machine.Cmd.fits]; decide +kernel)⟩,
   ⟨on id, 0, cmd 0x07 9 [(16, 0), (20, 16), (24, 99), (32, 2 ^ 63 + 7 * 2 ^ 56 + 1 * 2 ^ 46 + 1 * 2 ^ 19 + 100)],
     by (simp only [Dev.hears, Dev.ringReady, Sys2Proof.Machine.Cmd.fits]; decide +kernel)⟩,
   ⟨on id, 0, cmd 0x02 144 [(16, 56), (20, 8), (24, 4096)],
     by (simp only [Dev.hears, Dev.ringReady, Sys2Proof.Machine.Cmd.fits]; decide +kernel)⟩,
   ⟨on id, 0, cmd 0x28 0 [(16, 0), (20, 8)], by (simp only [Dev.hears, Dev.ringReady, Sys2Proof.Machine.Cmd.fits]; decide +kernel)⟩,
   ⟨on id, 0, cmd 0x31 2 [(16, 0), (20, 16), (24, 1), (28, 0x02000000), (32, 60), (36, 30)],
     by (simp only [Dev.hears, Dev.ringReady, Sys2Proof.Machine.Cmd.fits]; decide +kernel)⟩,
   ⟨on id, 0, cmd 0x38 0 [(16, 208), (20, 16), (24, 1), (32, 2)],
     by (simp only [Dev.hears, Dev.ringReady, Sys2Proof.Machine.Cmd.fits]; decide +kernel)⟩,
   ⟨withG [(0, grp)], 0, cmd 0x0B 0 [(16, 0), (20, 8), (24, 6)],
     by (simp only [Dev.hears, Dev.ringReady, Sys2Proof.Machine.Cmd.fits]; decide +kernel)⟩⟩

theorem witness_LinkAndDetourCommands :
    (∃ (s : State) (r : RingNo) (c : Cmd),
      let p := c.inst.toNat
      let fm : Form := { op := 0x0211, roles := [1, 2], cls := some 0x02, used := [(16, 17)], hi := 176 }
      s.dev.hears r c fm ∧ c.u 16 1 ≤ 3 ∧ 144 ≤ p) ∧
    (∃ (s : State) (r : RingNo) (c : Cmd),
      let p := c.inst.toNat
      let x := s.dev.port p
      let fm : Form := { op := 0x0211, roles := [1, 2], cls := some 0x02, used := [(16, 17)], hi := 176 }
      s.dev.hears r c fm ∧ c.u 16 1 ≤ 3 ∧ p < 144 ∧ x.lstate ≠ 7) ∧
    (∃ (s : State) (r : RingNo) (c : Cmd),
      let p := c.inst.toNat
      let x := s.dev.port p
      let fm : Form := { op := 0x0211, roles := [1, 2], cls := some 0x02, used := [(16, 17)], hi := 176 }
      s.dev.hears r c fm ∧ c.u 16 1 ≤ 3 ∧ p < 144 ∧ x.lstate = 7) ∧
    (∃ (s : State) (r : RingNo) (c : Cmd),
      let p := c.inst.toNat
      let x := s.dev.port p
      let fm : Form := { op := 0x0212, roles := [1, 2], cls := some 0x02, hi := 176 }
      s.dev.hears r c fm ∧ p < 144 ∧ (x.kind = 1 ∨ x.kind = 2) ∧ x.hold ∉ [3, 4, 5] ∧ x.lstate ≠ 9 ∧ x.lstate = 7) ∧
    (∃ (s : State) (r : RingNo) (c : Cmd),
      let p := c.inst.toNat
      let x := s.dev.port p
      let fm : Form := { op := 0x0212, roles := [1, 2], cls := some 0x02, hi := 176 }
      s.dev.hears r c fm ∧ p < 144 ∧ (x.kind = 1 ∨ x.kind = 2) ∧ x.hold ∉ [3, 4, 5] ∧ x.lstate ≠ 9 ∧ 1 ≤ x.lstate ∧ x.lstate ≤ 6) ∧
    (∃ (s : State) (r : RingNo) (c : Cmd),
      let p := c.inst.toNat
      let x := s.dev.port p
      let fm : Form := { op := 0x0212, roles := [1, 2], cls := some 0x02, hi := 176 }
      s.dev.hears r c fm ∧ p < 144 ∧ (x.kind = 1 ∨ x.kind = 2) ∧ x.hold ∉ [3, 4, 5] ∧ x.lstate ≠ 9 ∧ (x.lstate = 0 ∨ 8 ≤ x.lstate)) ∧
    (∃ (s : State) (r : RingNo) (c : Cmd) (e : Envelope),
      let p := c.inst.toNat
      let x := s.dev.port p
      let fm : Form := { op := 0x0210, roles := [2], cls := some 0x02, hi := 176 }
      s.dev.hearsSigned r c e fm ∧ p < 144 ∧ (x.kind = 1 ∨ x.kind = 2) ∧ x.hold ∉ [3, 5]) ∧
    (∃ (s : State) (r : RingNo) (c : Cmd) (e : Envelope),
      let p := c.inst.toNat
      let x := s.dev.port p
      let fm : Form := { op := 0x0B20, roles := [2], cls := some 0x02, used := [(16, 17)], hi := 176 }
      s.dev.hearsSigned r c e fm ∧ p < 144 ∧ (x.kind = 1 ∨ x.kind = 2) ∧ x.hold ∉ [3, 5] ∧ 1 ≤ c.u 16 1 ∧ c.u 16 1 ≤ 7 ∧ s.dev.active 9
        (obj 0x02 p) = [] ∧ s.dev.active 10 (obj 0x02 p) = []) ∧
    (∃ (s : State) (r : RingNo) (c : Cmd),
      let dir := c.u 16 1
      let fm : Form := { op := 0x0310, roles := [1], cls := some 0x05, used := [(16, 17)] }
      s.dev.hears r c fm ∧ dir ≤ 5 ∧ (s.dev.detour dir).state = 2 ∧ (s.dev.detour dir).released = true) ∧
    (∃ (s : State) (r : RingNo) (c : Cmd),
      let dir := c.u 16 1
      let fm : Form := { op := 0x0310, roles := [1], cls := some 0x05, used := [(16, 17)] }
      s.dev.hears r c fm ∧ dir ≤ 5 ∧ (s.dev.detour dir).state = 2 ∧ (s.dev.detour dir).released = false) ∧
    (∃ (s : State) (r : RingNo) (c : Cmd),
      let dir := c.u 16 1
      let fm : Form := { op := 0x0311, roles := [1], cls := some 0x05, used := [(16, 17)] }
      s.dev.hears r c fm ∧ dir ≤ 5 ∧ (s.dev.bundle dir).any s.dev.inService = true ∧ (s.dev.detour dir).state = 0) ∧
    (∃ (s : State) (r : RingNo) (c : Cmd),
      let dir := c.u 16 1
      let fm : Form := { op := 0x0311, roles := [1], cls := some 0x05, used := [(16, 17)] }
      s.dev.hears r c fm ∧ dir ≤ 5 ∧ (s.dev.bundle dir).any s.dev.inService = true ∧ (s.dev.detour dir).state ≠ 0) ∧
    (∃ (s : State) (r : RingNo) (c : Cmd),
      let p := c.inst.toNat
      let x := s.dev.port p
      let fm : Form := { op := 0x0512, roles := [1], cls := some 0x02, used := [(16, 18)], hi := 176 }
      s.dev.hears r c fm ∧ p < 144 ∧ x.kind = 1 ∧ 1 ≤ c.u 16 2 ∧ c.u 16 2 ≤ 1023 ∧ s.dev.endpointActive p = false ∧ x.slice.toNat = c.u 16
        2 ∧ x.assignSent = true) ∧
    (∃ (s : State) (r : RingNo) (c : Cmd),
      let p := c.inst.toNat
      let x := s.dev.port p
      let fm : Form := { op := 0x0512, roles := [1], cls := some 0x02, used := [(16, 18)], hi := 176 }
      s.dev.hears r c fm ∧ p < 144 ∧ x.kind = 1 ∧ 1 ≤ c.u 16 2 ∧ c.u 16 2 ≤ 1023 ∧ s.dev.endpointActive p = false ∧ x.slice.toNat ≠ c.u 16
        2) :=
  ⟨⟨port up7, 0, cmd 0x02 144 [(16, 3)], by (simp only [Dev.hears, Dev.ringReady, Sys2Proof.Machine.Cmd.fits]; decide +kernel)⟩,
   ⟨port { up7 with lstate := 6 }, 0, cmd 0x02 0 [(16, 3)],
     by (simp only [Dev.hears, Dev.ringReady, Sys2Proof.Machine.Cmd.fits]; decide +kernel)⟩,
   ⟨port up7, 0, cmd 0x02 0 [(16, 3)], by (simp only [Dev.hears, Dev.ringReady, Sys2Proof.Machine.Cmd.fits]; decide +kernel)⟩,
   ⟨port up7, 0, cmd 0x02 0 [], by (simp only [Dev.hears, Dev.ringReady, Sys2Proof.Machine.Cmd.fits]; decide +kernel)⟩,
   ⟨port { up7 with lstate := 6 }, 0, cmd 0x02 0 [],
     by (simp only [Dev.hears, Dev.ringReady, Sys2Proof.Machine.Cmd.fits]; decide +kernel)⟩,
   ⟨port { up7 with lstate := 8 }, 0, cmd 0x02 0 [],
     by (simp only [Dev.hears, Dev.ringReady, Sys2Proof.Machine.Cmd.fits]; decide +kernel)⟩,
   ⟨port up7, 0, sgn 2 (cmd 0x02 0 []), env1 2,
     by (simp only [Dev.hearsSigned, Dev.ringReady, Sys2Proof.Machine.Cmd.fits]; refine ⟨⟨?_, rfl, ?_⟩, ?_⟩ <;> decide +kernel)⟩,
   ⟨port up7, 0, sgn 2 (cmd 0x02 0 [(16, 7)]), env1 2,
     by (simp only [Dev.hearsSigned, Dev.ringReady, Sys2Proof.Machine.Cmd.fits]; refine ⟨⟨?_, rfl, ?_⟩, ?_⟩ <;> decide +kernel)⟩,
   ⟨det { side := 2, state := 2, released := true }, 0, cmd 0x05 0 [(16, 0)],
     by (simp only [Dev.hears, Dev.ringReady, Sys2Proof.Machine.Cmd.fits]; decide +kernel)⟩,
   ⟨det { side := 2, state := 2 }, 0, cmd 0x05 0 [(16, 0)],
     by (simp only [Dev.hears, Dev.ringReady, Sys2Proof.Machine.Cmd.fits]; decide +kernel)⟩,
   ⟨det { side := 2 }, 0, cmd 0x05 0 [(16, 0)], by (simp only [Dev.hears, Dev.ringReady, Sys2Proof.Machine.Cmd.fits]; decide +kernel)⟩,
   ⟨det { side := 2, state := 3 }, 0, cmd 0x05 0 [(16, 0)],
     by (simp only [Dev.hears, Dev.ringReady, Sys2Proof.Machine.Cmd.fits]; decide +kernel)⟩,
   ⟨port { up7e with slice := 1023, assignSent := true }, 0, cmd 0x02 0 [(16, 1023)],
     by (simp only [Dev.hears, Dev.ringReady, Sys2Proof.Machine.Cmd.fits]; decide +kernel)⟩,
   ⟨port { up7e with slice := 1023, assignSent := true }, 0, cmd 0x02 0 [(16, 1)],
     by (simp only [Dev.hears, Dev.ringReady, Sys2Proof.Machine.Cmd.fits]; decide +kernel)⟩⟩

theorem witness_SliceCommands :
    (∃ (s : State) (r : RingNo) (c : Cmd),
      let i := c.inst.toNat
      let a := c.u 24 8
      let fm : Form := { op := 0x0510, roles := [1], cls := some 0x09, used := [(16, 17), (24, 32)], hi := 1023 }
      s.dev.hears r c fm ∧ i ≠ 0 ∧ (s.dev.slice i).state = 0 ∧ c.u 16 1 ≤ 1 ∧ (c.u 16 1 = 1 → s.dev.sec.debugUnlocked = false ∧
        s.dev.fw.fwState ≠ 1) ∧ (a = 0 ∨ (a % 65536 = 0 ∧ s.dev.pool.inTables a 65536 = true))) ∧
    (∃ (s : State) (r : RingNo) (c : Cmd),
      let i := c.inst.toNat
      let d := s.dev.taken r 1 c
      let fm : Form := { op := 0x0511, roles := [1], cls := some 0x09, hi := 1023 }
      s.dev.hears r c fm ∧ i ≠ 0 ∧ (s.dev.slice i).state = 1 ∧ (d.teardown i).sliceReply s.dev.host.nextWait i 8 = none) ∧
    (∃ (s : State) (r : RingNo) (c : Cmd), ∃ x,
      let i := c.inst.toNat
      let d := s.dev.taken r 1 c
      let fm : Form := { op := 0x0511, roles := [1], cls := some 0x09, hi := 1023 }
      s.dev.hears r c fm ∧ i ≠ 0 ∧ (s.dev.slice i).state = 1 ∧ (d.teardown i).sliceReply s.dev.host.nextWait i 8 = some x) ∧
    (∃ (s : State) (r : RingNo) (c : Cmd),
      let i := c.inst.toNat
      let fm : Form := { op := 0x0511, roles := [1], cls := some 0x09, hi := 1023 }
      s.dev.hears r c fm ∧ i ≠ 0 ∧ (s.dev.slice i).state = 1) ∧
    (∃ (s : State) (r : RingNo) (c : Cmd),
      let i := c.inst.toNat
      let fm : Form := { op := 0x0513, roles := [1], cls := some 0x09, used := [(16, 17)], hi := 1023 }
      s.dev.hears r c fm ∧ i ≠ 0 ∧ (s.dev.slice i).state = 1 ∧ c.u 16 1 ≤ 3 ∧ s.dev.disabled i (c.u 16 1) = true) ∧
    (∃ (s : State) (r : RingNo) (c : Cmd),
      let i := c.inst.toNat
      let fm : Form := { op := 0x0513, roles := [1], cls := some 0x09, used := [(16, 17)], hi := 1023 }
      s.dev.hears r c fm ∧ i ≠ 0 ∧ (s.dev.slice i).state = 1 ∧ c.u 16 1 ≤ 3 ∧ s.dev.disabled i (c.u 16 1) = false) ∧
    (∃ (s : State) (sl : BitVec 10) (fn : Fin 4) (w : WaitReply),
      w.effect = true ∧ w.opcode = 0x0513 ∧ w.object = obj 0x09 sl.toNat ∧ field w.params.toNat 0 8 = fn.val ∧ w.floor = false ∧
        s.dev.host.waiting = [w] ∧ s.dev.host.handover = false ∧ fn.val = 3 ∧ (∀ v ∈ s.dev.prot.revoking, v.reply ≠ w.id)) ∧
    (∃ (s : State),
      s.dev.host.waiting = []) ∧
    (∃ (s : State) (r : RingNo) (c : Cmd),
      let a := c.u 24 8
      let fm : Form := { op := 0x0520, roles := [1], cls := some 0x09, used := [(24, 40)], hi := 1023 }
      s.dev.hears r c fm ∧ a % pageSize = 0 ∧ a < 2 ^ 57 ∧ c.u 32 8 % pageSize = 0) ∧
    (∃ (s : State) (r : RingNo) (c : Cmd),
      let a := c.u 24 8
      let n := c.u 32 4
      s.dev.pool.inTables a n = true ∧ s.dev.pool.isMappedOut (pageOf a) = false ∧ s.dev.pool.isMappedOut (pageOf (a + n - 1)) = false ∧ a
        % 16 = 0 ∧ n % 16 = 0 ∧ n ≠ 0 ∧ n ≤ 2 ^ 24 ∧ refLen c = n ∧ s.dev.pool.state ≠ 0 ∧ (∀ l ∈ linesOf a n, s.dev.dieLost l = false ∧
        s.dev.pool.isMappedOut (pageOfLine l) = false ∧ (s.dev.pool.lineMeta l).poison = false) ∧
      let fm : Form := { op := 0x0521, roles := [1], cls := some 0x09, used := [(24, 36)], hi := 1023, ref := 1 }
      s.dev.hears r c fm) ∧
    (∃ (s : State) (r : RingNo) (c : Cmd),
      let i := c.inst.toNat
      let a := c.u 24 8
      let n := c.u 32 4
      s.dev.pool.inTables a n = true ∧ s.dev.pool.isMappedOut (pageOf a) = false ∧ s.dev.pool.isMappedOut (pageOf (a + n - 1)) = false ∧ a
        % 16 = 0 ∧ n % 16 = 0 ∧ n ≠ 0 ∧ n ≤ 2 ^ 24 ∧ refLen c = n ∧ s.dev.pool.state ≠ 0 ∧ (∀ l ∈ linesOf a n, s.dev.dieLost l = false ∧
        s.dev.pool.isMappedOut (pageOfLine l) = false ∧ (s.dev.pool.lineMeta l).poison = false) ∧
      let fm : Form := { op := 0x0522, roles := [1], cls := some 0x09, used := [(24, 36)], hi := 1023, ref := 1, out := true }
      s.dev.hears r c fm ∧ s.dev.confTables = [] ∧ s.dev.isConf i = false) ∧
    (∃ (s : State) (k : Fin 65536) (id : Nat) (l : List (Nat × Nat)),
      s.dev.prot.revoking = [⟨k.val, id, l, none, 0⟩] ∧ (∀ o ∈ l, s.dev.hop o.1 o.2 = none)) ∧
    (∃ (s : State) (k : Fin 65536) (id : Nat) (l : List (Nat × Nat)),
      s.dev.prot.revoking = [⟨k.val, id, l, none, 0⟩] ∧ (∃ o ∈ l, (s.dev.hop o.1 o.2).isSome = true)) :=
  ⟨⟨on id, 0, cmd 0x09 2 [(16, 1)], by (simp only [Dev.hears, Dev.ringReady, Sys2Proof.Machine.Cmd.fits]; decide +kernel)⟩,
   ⟨on id, 0, cmd 0x09 1 [], by (simp only [Dev.hears, Dev.ringReady, Sys2Proof.Machine.Cmd.fits]; decide +kernel)⟩,
   ⟨xl { running := some job, atsEnable := true, atc := [⟨0, 0, true, true⟩] }, 0, cmd 0x09 1 [],
     ((((xl { running := some job, atsEnable := true, atc := [⟨0, 0, true, true⟩] }).dev.taken 0 1 (cmd 0x09 1 [])).teardown 1).sliceReply 0 1 8).getD {},
     by (simp only [Dev.hears, Dev.ringReady, Sys2Proof.Machine.Cmd.fits]; decide +kernel)⟩,
   ⟨on id, 0, cmd 0x09 1 [], by (simp only [Dev.hears, Dev.ringReady, Sys2Proof.Machine.Cmd.fits]; decide +kernel)⟩,
   ⟨on fun d => { d with prot := { d.prot with slices := [(1, { state := 1, disabled := 8 })] } }, 0, cmd 0x09 1 [(16, 3)],
     by (simp only [Dev.hears, Dev.ringReady, Sys2Proof.Machine.Cmd.fits]; decide +kernel)⟩,
   ⟨on id, 0, cmd 0x09 1 [(16, 3)], by (simp only [Dev.hears, Dev.ringReady, Sys2Proof.Machine.Cmd.fits]; decide +kernel)⟩,
   ⟨on fun d => { d with host := { d.host with nextWait := 5, waiting := [{ id := 4, via := .ring 0, opcode := 0x0513, seq := 1, noIrq := false, object := obj 0x09 1, effect := true, params := 3 }] } },
     1, 3, { id := 4, via := .ring 0, opcode := 0x0513, seq := 1, noIrq := false, object := obj 0x09 1, effect := true, params := 3 },
     by decide +kernel⟩,
   ⟨on id, by decide +kernel⟩,
   ⟨on id, 0, cmd 0x09 1 [(24, 2 ^ 29), (32, 2 ^ 29)],
     by (simp only [Dev.hears, Dev.ringReady, Sys2Proof.Machine.Cmd.fits]; decide +kernel)⟩,
   ⟨on id, 0, refCmd 0x09 1 [(24, T1), (32, 16)] 16 (List.replicate 16 3),
     by (simp only [Dev.hears, Dev.ringReady, Sys2Proof.Machine.Cmd.fits]; decide +kernel)⟩,
   ⟨on id, 0, refCmd 0x09 1 [(24, T1), (32, 16)] 16 [],
     by (simp only [Dev.hears, Dev.ringReady, Sys2Proof.Machine.Cmd.fits]; decide +kernel)⟩,
   ⟨on fun d => { d with prot := { d.prot with revoking := [⟨3, 0, [(0, 9)], none, 0⟩] } }, 3, 0, [(0, 9)], by decide +kernel⟩,
   ⟨on fun d => { d with prot := { d.prot with revoking := [⟨3, 0, [(0, 9)], none, 0⟩] }, homes := [(0, { up := true, ops := [{ id := 9, pp := 0, f := {} }] })] },
     3, 0, [(0, 9)], by decide +kernel⟩⟩

theorem witness_GroupCommands :
    (∃ (s : State) (r : RingNo) (c : Cmd),
      let i := c.inst.toNat
      let g := s.dev.group i
      let form (op : Nat) (used : List (Nat × Nat)) (ref : Nat) : Form := { op := op, roles := [1], cls := some 0x0B, used := used, hi := 4095, ref := ref }
      let fm := form 0x0610 [] 1
      let v := unle (refBytes c)
      let n := field v 144 16
      let x := groupOfNum { state := 1 } v n
      s.dev.hears r c fm ∧ refLen c = 64 + 32 * n ∧ v &&& fieldBits (fieldsOf 0x0B (refLen c)) (fun _ => true) = v ∧ g.state = 0 ∧
        s.dev.isConf x.slice.toNat = false ∧ s.dev.groupFault i x = none) ∧
    (∃ (s : State) (r : RingNo) (c : Cmd),
      let i := c.inst.toNat
      let g := s.dev.group i
      let form (op : Nat) (used : List (Nat × Nat)) (ref : Nat) : Form := { op := op, roles := [1], cls := some 0x0B, used := used, hi := 4095, ref := ref }
      let fm := form 0x0611 [] 0
      s.dev.hears r c fm ∧ g.state = 0) ∧
    (∃ (s : State) (r : RingNo) (c : Cmd),
      let i := c.inst.toNat
      let g := s.dev.group i
      let form (op : Nat) (used : List (Nat × Nat)) (ref : Nat) : Form := { op := op, roles := [1], cls := some 0x0B, used := used, hi := 4095, ref := ref }
      let fm := form 0x0611 [] 0
      s.dev.hears r c fm ∧ (g.state = 2 ∨ g.state = 3)) ∧
    (∃ (s : State) (r : RingNo) (c : Cmd),
      let i := c.inst.toNat
      let g := s.dev.group i
      let form (op : Nat) (used : List (Nat × Nat)) (ref : Nat) : Form := { op := op, roles := [1], cls := some 0x0B, used := used, hi := 4095, ref := ref }
      let fm := form 0x0611 [] 0
      s.dev.hears r c fm ∧ g.state ∉ [0, 2, 3]) ∧
    (∃ (s : State) (r : RingNo) (c : Cmd),
      let i := c.inst.toNat
      let g := s.dev.group i
      let form (op : Nat) (used : List (Nat × Nat)) (ref : Nat) : Form := { op := op, roles := [1], cls := some 0x0B, used := used, hi := 4095, ref := ref }
      let fm := form 0x0612 [(16, 20)] 0
      s.dev.hears r c fm ∧ g.state = 0) ∧
    (∃ (s : State) (r : RingNo) (c : Cmd),
      let i := c.inst.toNat
      let g := s.dev.group i
      let form (op : Nat) (used : List (Nat × Nat)) (ref : Nat) : Form := { op := op, roles := [1], cls := some 0x0B, used := used, hi := 4095, ref := ref }
      let fm := form 0x0612 [(16, 20)] 0
      let q := BitVec.ofNat 16 (c.u 16 2)
      s.dev.hears r c fm ∧ s.dev.disabled g.slice.toNat 0 = false ∧ g.state ∈ [1, 4, 5] ∧ q = g.launchSeq + 1) ∧
    (∃ (s : State) (r : RingNo) (c : Cmd),
      let i := c.inst.toNat
      let g := s.dev.group i
      let form (op : Nat) (used : List (Nat × Nat)) (ref : Nat) : Form := { op := op, roles := [1], cls := some 0x0B, used := used, hi := 4095, ref := ref }
      let fm := form 0x0612 [(16, 20)] 0
      let q := BitVec.ofNat 16 (c.u 16 2)
      s.dev.hears r c fm ∧ s.dev.disabled g.slice.toNat 0 = false ∧ g.state ∈ [2, 3] ∧ q = g.launchSeq + 1 ∧ g.queued = none) ∧
    (∃ (s : State) (r : RingNo) (c : Cmd),
      let i := c.inst.toNat
      let g := s.dev.group i
      let form (op : Nat) (used : List (Nat × Nat)) (ref : Nat) : Form := { op := op, roles := [1], cls := some 0x0B, used := used, hi := 4095, ref := ref }
      let fm := form 0x0612 [(16, 20)] 0
      let q := BitVec.ofNat 16 (c.u 16 2)
      s.dev.hears r c fm ∧ s.dev.disabled g.slice.toNat 0 = false ∧ g.state ∈ [2, 3] ∧ q = g.launchSeq + 1 ∧ g.queued.isSome = true) ∧
    (∃ (s : State) (r : RingNo) (c : Cmd),
      let i := c.inst.toNat
      let g := s.dev.group i
      let form (op : Nat) (used : List (Nat × Nat)) (ref : Nat) : Form := { op := op, roles := [1], cls := some 0x0B, used := used, hi := 4095, ref := ref }
      let fm := form 0x0612 [(16, 20)] 0
      let q := BitVec.ofNat 16 (c.u 16 2)
      let root := c.u 18 2
      s.dev.hears r c fm ∧ s.dev.disabled g.slice.toNat 0 = false ∧ g.state ≠ 0 ∧ q = g.launchSeq ∧ g.launches ≠ 0 ∧ (g.coll ≠ 3 ∨ root =
        (s.dev.launch i).root)) ∧
    (∃ (s : State) (r : RingNo) (c : Cmd),
      let i := c.inst.toNat
      let g := s.dev.group i
      let form (op : Nat) (used : List (Nat × Nat)) (ref : Nat) : Form := { op := op, roles := [1], cls := some 0x0B, used := used, hi := 4095, ref := ref }
      let fm := form 0x0612 [(16, 20)] 0
      let q := BitVec.ofNat 16 (c.u 16 2)
      s.dev.hears r c fm ∧ s.dev.disabled g.slice.toNat 0 = false ∧ g.state ≠ 0 ∧ q ≠ g.launchSeq + 1 ∧ q ≠ g.launchSeq) ∧
    (∃ (s : State) (r : RingNo) (c : Cmd),
      let i := c.inst.toNat
      let g := s.dev.group i
      let form (op : Nat) (used : List (Nat × Nat)) (ref : Nat) : Form := { op := op, roles := [1], cls := some 0x0B, used := used, hi := 4095, ref := ref }
      let fm := form 0x0612 [(16, 20)] 0
      s.dev.hears r c fm ∧ g.state ≠ 0 ∧ s.dev.disabled g.slice.toNat 0 = true) ∧
    (∃ (s : State) (r : RingNo) (c : Cmd),
      let i := c.inst.toNat
      let g := s.dev.group i
      let form (op : Nat) (used : List (Nat × Nat)) (ref : Nat) : Form := { op := op, roles := [1], cls := some 0x0B, used := used, hi := 4095, ref := ref }
      let fm := form 0x0613 [] 0
      s.dev.hears r c fm ∧ (g.state = 2 ∨ g.state = 3)) ∧
    (∃ (s : State) (r : RingNo) (c : Cmd),
      let i := c.inst.toNat
      let g := s.dev.group i
      let form (op : Nat) (used : List (Nat × Nat)) (ref : Nat) : Form := { op := op, roles := [1], cls := some 0x0B, used := used, hi := 4095, ref := ref }
      let fm := form 0x0613 [] 0
      s.dev.hears r c fm ∧ g.state ∉ [2, 3]) ∧
    (∃ (s : State) (r : RingNo) (c : Cmd),
      let i := c.inst.toNat
      let g := s.dev.group i
      let form (op : Nat) (used : List (Nat × Nat)) (ref : Nat) : Form := { op := op, roles := [1], cls := some 0x0B, used := used, hi := 4095, ref := ref }
      let fm := form 0x0614 [] 0
      s.dev.hears r c fm ∧ (g.state = 2 ∨ g.state = 3)) ∧
    (∃ (s : State) (r : RingNo) (c : Cmd),
      let i := c.inst.toNat
      let g := s.dev.group i
      let form (op : Nat) (used : List (Nat × Nat)) (ref : Nat) : Form := { op := op, roles := [1], cls := some 0x0B, used := used, hi := 4095, ref := ref }
      let fm := form 0x0614 [] 0
      s.dev.hears r c fm ∧ g.state = 0) ∧
    (∃ (s : State) (r : RingNo) (c : Cmd),
      let i := c.inst.toNat
      let g := s.dev.group i
      let form (op : Nat) (used : List (Nat × Nat)) (ref : Nat) : Form := { op := op, roles := [1], cls := some 0x0B, used := used, hi := 4095, ref := ref }
      let fm := form 0x0614 [] 0
      s.dev.hears r c fm ∧ g.state ∉ [0, 2, 3]) :=
  ⟨⟨withG [], 0, refCmd 0x0B 0 [] 128 (le 128 (grpNum grp)),
    by (simp only [Dev.hears, Dev.ringReady, Sys2Proof.Machine.Cmd.fits]; decide +kernel)⟩,
   ⟨withG [], 0, cmd 0x0B 0 [], by (simp only [Dev.hears, Dev.ringReady, Sys2Proof.Machine.Cmd.fits]; decide +kernel)⟩,
   ⟨withG [(0, { grp with state := 3, launch := some {} })], 0, cmd 0x0B 0 [],
     by (simp only [Dev.hears, Dev.ringReady, Sys2Proof.Machine.Cmd.fits]; decide +kernel)⟩,
   ⟨withG [(0, { grp with state := 4 })], 0, cmd 0x0B 0 [],
     by (simp only [Dev.hears, Dev.ringReady, Sys2Proof.Machine.Cmd.fits]; decide +kernel)⟩,
   ⟨withG [], 0, cmd 0x0B 0 [(16, 5), (18, 0)], by (simp only [Dev.hears, Dev.ringReady, Sys2Proof.Machine.Cmd.fits]; decide +kernel)⟩,
   ⟨withG [(0, { grp with state := 4 })], 0, cmd 0x0B 0 [(16, 5), (18, 0)],
     by (simp only [Dev.hears, Dev.ringReady, Sys2Proof.Machine.Cmd.fits]; decide +kernel)⟩,
   ⟨withG [(0, { grp with state := 3, launch := some {} })], 0, cmd 0x0B 0 [(16, 5), (18, 0)],
     by (simp only [Dev.hears, Dev.ringReady, Sys2Proof.Machine.Cmd.fits]; decide +kernel)⟩,
   ⟨withG [(0, { grp with state := 3, launch := some {}, queued := some (5, 0) })], 0, cmd 0x0B 0 [(16, 5), (18, 0)],
     by (simp only [Dev.hears, Dev.ringReady, Sys2Proof.Machine.Cmd.fits]; decide +kernel)⟩,
   ⟨withG [(0, { grp with launches := 1 })], 0, cmd 0x0B 0 [(16, 4), (18, 0)],
     by (simp only [Dev.hears, Dev.ringReady, Sys2Proof.Machine.Cmd.fits]; decide +kernel)⟩,
   ⟨withG [(0, { grp with state := 4 })], 0, cmd 0x0B 0 [(16, 6), (18, 0)],
     by (simp only [Dev.hears, Dev.ringReady, Sys2Proof.Machine.Cmd.fits]; decide +kernel)⟩,
   ⟨on fun d => { d with relay := { d.relay with groups := [(0, grp)] }, prot := { d.prot with slices := [(1, { state := 1, disabled := 1 })] } },
     0, cmd 0x0B 0 [(16, 5), (18, 0)], by (simp only [Dev.hears, Dev.ringReady, Sys2Proof.Machine.Cmd.fits]; decide +kernel)⟩,
   ⟨withG [(0, { grp with state := 3, launch := some {} })], 0, cmd 0x0B 0 [],
     by (simp only [Dev.hears, Dev.ringReady, Sys2Proof.Machine.Cmd.fits]; decide +kernel)⟩,
   ⟨withG [(0, { grp with state := 4 })], 0, cmd 0x0B 0 [],
     by (simp only [Dev.hears, Dev.ringReady, Sys2Proof.Machine.Cmd.fits]; decide +kernel)⟩,
   ⟨withG [(0, { grp with state := 3, launch := some {} })], 0, cmd 0x0B 0 [],
     by (simp only [Dev.hears, Dev.ringReady, Sys2Proof.Machine.Cmd.fits]; decide +kernel)⟩,
   ⟨withG [], 0, cmd 0x0B 0 [], by (simp only [Dev.hears, Dev.ringReady, Sys2Proof.Machine.Cmd.fits]; decide +kernel)⟩,
   ⟨withG [(0, { grp with state := 4 })], 0, cmd 0x0B 0 [],
     by (simp only [Dev.hears, Dev.ringReady, Sys2Proof.Machine.Cmd.fits]; decide +kernel)⟩⟩

set_option maxRecDepth 20000 in
theorem witness_PipelineCommands :
    (∃ (s : State) (r : RingNo) (c : Cmd),
      let fm : Form := { op := 0x0710, roles := [1], cls := some 0x12, used := [(16, 19), (24, 40)] }
      let sl := c.u 16 2
      let h := padTo 64 c.host.bytes
      let bs := padTo (lastTotal h) c.host.bytes
      s.dev.hears r c fm ∧ sl < 1024 ∧ c.u 18 1 = 0 ∧ c.u 32 8 = 0 ∧ s.dev.xlate.atsEnable = false ∧ s.dev.sliceEnded sl 1 = none ∧
        s.dev.sliceLive sl = true ∧ s.dev.isConf sl = false ∧ c.host.translates = true ∧ lastHeaderOk h = true ∧ s.dev.lastFault bs =
        none) ∧
    (∃ (s : State) (r : RingNo) (c : Cmd), ∃ y,
      let i := c.inst.toNat
      let x := s.dev.pipe i
      let d := s.dev.taken r 1 c
      let fm := pipeForm 0x0711
      s.dev.hears r c fm ∧ x.state = 1 ∧ x.stopping = false ∧ s.dev.disabled x.slice.toNat 1 = false ∧ d.startLookups i (x.windows.flatMap
        windowPages).eraseDups = .ok y) ∧
    (∃ (s : State) (r : RingNo) (c : Cmd), ∃ w,
      let i := c.inst.toNat
      let x := s.dev.pipe i
      let d := s.dev.taken r 1 c
      let fm := pipeForm 0x0711
      s.dev.hears r c fm ∧ x.state = 1 ∧ x.stopping = false ∧ s.dev.disabled x.slice.toNat 1 = false ∧ d.startLookups i (x.windows.flatMap
        windowPages).eraseDups = .error w) ∧
    (∃ (s : State) (r : RingNo) (c : Cmd),
      let i := c.inst.toNat
      let x := s.dev.pipe i
      let fm := pipeForm 0x0711
      s.dev.hears r c fm ∧ x.state = 1 ∧ x.stopping = false ∧ s.dev.disabled x.slice.toNat 1 = false ∧ x.windows = []) ∧
    (∃ (s : State) (r : RingNo) (c : Cmd),
      let i := c.inst.toNat
      let x := s.dev.pipe i
      let fm := pipeForm 0x0712
      s.dev.hears r c fm ∧ x.state = 2 ∧ x.stopping = false) ∧
    (∃ (s : State) (r : RingNo) (c : Cmd),
      let i := c.inst.toNat
      let x := s.dev.pipe i
      let fm := pipeForm 0x0712
      s.dev.hears r c fm ∧ x.state ≠ 2) ∧
    (∃ (s : State) (r : RingNo) (c : Cmd),
      let i := c.inst.toNat
      let x := s.dev.pipe i
      let fm := pipeForm 0x0713
      s.dev.hears r c fm ∧ x.active = true) ∧
    (∃ (s : State) (r : RingNo) (c : Cmd),
      let i := c.inst.toNat
      let x := s.dev.pipe i
      let fm := pipeForm 0x0713
      s.dev.hears r c fm ∧ x.active = false) ∧
    (∃ (s : State) (r : RingNo) (c : Cmd),
      let i := c.inst.toNat
      let x := s.dev.pipe i
      let fm := pipeForm 0x0714
      s.dev.hears r c fm ∧ (x.state = 1 ∨ x.state = 4)) ∧
    (∃ (s : State) (r : RingNo) (c : Cmd),
      let i := c.inst.toNat
      let fm : Form := { op := 0x0720, roles := [1], cls := some 0x10, hi := 199, used := [(16, 17), (24, 36)], ref := 1, out := true }
      let y := s.dev.pos i
      let area := c.u 16 1
      let off := c.u 24 8
      let len := c.u 32 4
      s.dev.hears r c fm ∧ area ≤ 2 ∧ off + len ≤ (if area = 0 then 2 ^ 24 else if area = 1 then 65536 else 262144) ∧ refLen c = len ∧
        isPassThrough i = false ∧ (y.state = 1 ∨ y.state = 4 ∨ y.state = 5) ∧ s.dev.isConf y.slice.toNat = false) ∧
    (∃ (s : State) (r : RingNo) (c : Cmd), ∃ k,
      let i := c.inst.toNat
      let fm : Form := { op := 0x0720, roles := [1], cls := some 0x10, hi := 199, used := [(16, 17), (24, 36)], ref := 1, out := true }
      let y := s.dev.pos i
      let area := c.u 16 1
      let off := c.u 24 8
      let len := c.u 32 4
      s.dev.hears r c fm ∧ area ≤ 2 ∧ off + len ≤ (if area = 0 then 2 ^ 24 else if area = 1 then 65536 else 262144) ∧ refLen c = len ∧
        isPassThrough i = false ∧ (y.state = 1 ∨ y.state = 4 ∨ y.state = 5) ∧ s.dev.isConf y.slice.toNat = true ∧ s.dev.slotOf
        y.slice.toNat = some k) :=
  ⟨⟨on id, 0, { cmd 0x12 0 [(16, 1), (24, 0x8000)] with host := { bytes := lastBytes } },
    by (simp only [Dev.hears, Dev.ringReady, Sys2Proof.Machine.Cmd.fits]; decide +kernel)⟩,
   ⟨pl { state := 1, slice := 1 }, 0, cmd 0x12 1 [], ((pl { state := 1, slice := 1 }).dev.taken 0 1 (cmd 0x12 1 [])),
     by (simp only [Dev.hears, Dev.ringReady, Sys2Proof.Machine.Cmd.fits]; decide +kernel)⟩,
   ⟨refusedStart, 0, cmd 0x12 1 [], 0, by (simp only [Dev.hears, Dev.ringReady, Sys2Proof.Machine.Cmd.fits]; decide +kernel)⟩,
   ⟨pl { state := 1, slice := 1 }, 0, cmd 0x12 1 [],
     by (simp only [Dev.hears, Dev.ringReady, Sys2Proof.Machine.Cmd.fits]; decide +kernel)⟩,
   ⟨pl { state := 2, slice := 1 }, 0, cmd 0x12 1 [],
     by (simp only [Dev.hears, Dev.ringReady, Sys2Proof.Machine.Cmd.fits]; decide +kernel)⟩,
   ⟨pl { state := 1, slice := 1 }, 0, cmd 0x12 1 [],
     by (simp only [Dev.hears, Dev.ringReady, Sys2Proof.Machine.Cmd.fits]; decide +kernel)⟩,
   ⟨pl { state := 2, slice := 1 }, 0, cmd 0x12 1 [],
     by (simp only [Dev.hears, Dev.ringReady, Sys2Proof.Machine.Cmd.fits]; decide +kernel)⟩,
   ⟨pl { state := 1, slice := 1 }, 0, cmd 0x12 1 [],
     by (simp only [Dev.hears, Dev.ringReady, Sys2Proof.Machine.Cmd.fits]; decide +kernel)⟩,
   ⟨pl { state := 1, slice := 1 }, 0, cmd 0x12 1 [],
     by (simp only [Dev.hears, Dev.ringReady, Sys2Proof.Machine.Cmd.fits]; decide +kernel)⟩,
   ⟨on fun d => { d with tiles := { d.tiles with positions := [(3, { state := 4, slice := 1 })] } }, 0,
     refCmd 0x10 3 [(16, 2), (24, 262144 - 64), (32, 64)] 64 [],
     by (simp only [Dev.hears, Dev.ringReady, Sys2Proof.Machine.Cmd.fits]; decide +kernel)⟩,
   ⟨on fun d => { d with prot := { d.prot with slices := conf1, keySlots := [(0, key1)] }, tiles := { d.tiles with positions := [(3, { state := 5, slice := 1 })] } },
     0, refCmd 0x10 3 [(16, 1), (24, 0), (32, 64)] 64 [], key1,
     by (simp only [Dev.hears, Dev.ringReady, Sys2Proof.Machine.Cmd.fits]; decide +kernel)⟩⟩

theorem witness_KeyCommands :
    (∃ (s : State) (r : RingNo) (c : Cmd),
      let fm : Form := { op := 0x0110, roles := [1], cls := some 0x01, used := [(16, 64)], ref := 1, out := true }
      s.dev.hears r c fm ∧ refLen c < 8192) ∧
    (∃ (s : State) (r : RingNo) (c : Cmd),
      let fm : Form := { op := 0x0110, roles := [1], cls := some 0x01, used := [(16, 64)], ref := 1, out := true }
      s.dev.hears r c fm ∧ 8192 ≤ refLen c) ∧
    (∃ (s : State) (r : RingNo) (c : Cmd),
      let sl := c.u 16 2
      let fm : Form := { op := 0x0111, roles := [1], cls := some 0x09, used := [(16, 18)], hi := 1023, ref := 1, out := true }
      s.dev.hears r c fm ∧ s.dev.confAndActive sl = true ∧ s.dev.sec.debugUnlocked = false ∧ 8192 ≤ refLen c) ∧
    (∃ (s : State) (r : RingNo) (c : Cmd),
      let sl := c.u 16 2
      let fm : Form := { op := 0x0112, roles := [1], cls := some 0x09, used := [(16, 18)], hi := 1023, ref := 1 }
      s.dev.hears r c fm ∧ s.dev.confAndActive sl = true ∧ s.dev.slotOf sl = none ∧ s.dev.sec.debugUnlocked = false ∧ s.dev.openOf sl =
        none) ∧
    (∃ (s : State) (r : RingNo) (c : Cmd), ∃ o,
      let sl := c.u 16 2
      let fm : Form := { op := 0x0112, roles := [1], cls := some 0x09, used := [(16, 18)], hi := 1023, ref := 1 }
      let m := refBytes c
      let n := num m 124 4
      s.dev.hears r c fm ∧ s.dev.confAndActive sl = true ∧ s.dev.slotOf sl = none ∧ s.dev.sec.debugUnlocked = false ∧ s.dev.openOf sl =
        some o ∧ num m 0 4 = sl ∧ num m 4 4 = o.releaseId.toNat ∧ num m 8 8 = Config.serial.toNat ∧ refLen c = 128 + n + 16 ∧ 48 ≤ n) ∧
    (∃ (s : State) (r : RingNo) (c : Cmd),
      let sl := c.u 16 2
      let fm : Form := { op := 0x0410, roles := [1], cls := some 0x08, used := [(16, 18)], hi := 63, ref := 1 }
      let b := refBytes c
      let i := c.inst.toNat
      s.dev.hears r c fm ∧ num b 0 2 = sl ∧ s.dev.confAndActive sl = true ∧ (∃ x, s.dev.releaseOf sl = some x ∧ x.releaseId.toNat = num b
        4 4) ∧ (tget s.dev.prot.keySlots i {}).state ≠ 1 ∧ s.dev.slotOf sl = none ∧ refLen c = 64) ∧
    (∃ (s : State) (r : RingNo) (c : Cmd),
      let fm : Form := { op := 0x0411, roles := [1], cls := some 0x08, hi := 63 }
      s.dev.hears r c fm) :=
  ⟨⟨on fun d => { d with prot := { d.prot with slices := conf1 } }, 0, refCmd 0x01 0 [(16, 5)] 8191 [],
    by (simp only [Dev.hears, Dev.ringReady, Sys2Proof.Machine.Cmd.fits]; decide +kernel)⟩,
   ⟨on fun d => { d with prot := { d.prot with slices := conf1 } }, 0, refCmd 0x01 0 [(16, 5)] 8192 [],
     by (simp only [Dev.hears, Dev.ringReady, Sys2Proof.Machine.Cmd.fits]; decide +kernel)⟩,
   ⟨on fun d => { d with prot := { d.prot with slices := conf1 } }, 0, refCmd 0x09 0 [(16, 1)] 8192 [],
     by (simp only [Dev.hears, Dev.ringReady, Sys2Proof.Machine.Cmd.fits]; decide +kernel)⟩,
   ⟨on fun d => { d with prot := { d.prot with slices := conf1 } }, 0, refCmd 0x09 0 [(16, 1)] 128 [],
     by (simp only [Dev.hears, Dev.ringReady, Sys2Proof.Machine.Cmd.fits]; decide +kernel)⟩,
   ⟨on fun d => { d with prot := { d.prot with slices := conf1, opens := [⟨1, 1, 0⟩] } }, 0, keyCmd, ⟨1, 1, 0⟩,
     by (simp only [Dev.hears, Dev.ringReady, Sys2Proof.Machine.Cmd.fits]; refine ⟨?_, ?_, ?_, ?_, ?_, ?_, ?_, key_serial, ?_, ?_⟩ <;> decide +kernel)⟩,
   ⟨on fun d => { d with prot := { d.prot with slices := conf1, releases := [{ slice := 1, releaseId := 3, nodes := [], lasts := [] }] } },
     0, refCmd 0x08 0 [(16, 1)] 64 (le 4 1 ++ le 4 3 ++ zeros 56),
     by (simp only [Dev.hears, Dev.ringReady, Sys2Proof.Machine.Cmd.fits]; decide +kernel)⟩,
   ⟨on fun d => { d with prot := { d.prot with slices := conf1 } }, 0, cmd 0x08 0 [],
     by (simp only [Dev.hears, Dev.ringReady, Sys2Proof.Machine.Cmd.fits]; decide +kernel)⟩⟩

theorem witness_CredentialCommands :
    (∃ (s : State) (r : RingNo) (c : Cmd),
      let b := refBytes c
      let i := c.inst.toNat
      let fm : Form := { op := 0x0120, roles := [2], cls := some 0x3A, hi := 31, ref := 1 }
      s.dev.ringReady r 0x0120 c 1 ∧ c.env = none ∧ Sys2Proof.Machine.Cmd.fits c fm 2 ∧ ((s.dev.taken r 1 c).refPages fm c).1.isSome =
        true ∧ s.dev.sec.bootstrap = true ∧ num b 0 1 = 2 ∧ (∀ k, 1 ≤ k → k < 64 → num b k 1 = 0) ∧ refLen c = 256 ∧ (s.dev.cred i).state
        ≠ 1) ∧
    (∃ (s : State) (r : RingNo) (c : Cmd) (e : Envelope),
      let fm : Form := { op := 0x0121, roles := [2], cls := some 0x3A, hi := 31 }
      s.dev.hearsSigned r c e fm) ∧
    (∃ (s : State) (r : RingNo) (c : Cmd) (e : Envelope),
      let fm : Form := { op := 0x0130, roles := [3], cls := some 0x01, ref := 1 }
      s.dev.hearsSigned r c e fm ∧ s.dev.confActive = false ∧ refLen c = 160) ∧
    (∃ (s : State) (r : RingNo) (c : Cmd) (e : Envelope),
      let fm : Form := { op := 0x0131, roles := [3], cls := some 0x01, ref := 1 }
      s.dev.hearsSigned r c e fm ∧ s.dev.confActive = false ∧ refLen c = 160) :=
  ⟨⟨on id, 0, refCmd 0x3A 0 [] 256 ([2] ++ zeros 63 ++ List.replicate 96 1 ++ zeros 96),
    by (simp only [Dev.ringReady, Sys2Proof.Machine.Cmd.fits]; decide +kernel)⟩,
   ⟨on id, 0, sgn 2 (cmd 0x3A 0 []), env1 2,
     by (simp only [Dev.hearsSigned, Dev.ringReady, Sys2Proof.Machine.Cmd.fits]; refine ⟨?_, rfl, ?_⟩ <;> decide +kernel)⟩,
   ⟨on id, 0, { refCmd 0x01 0 [] 160 [] with env := some (env1 3) }, env1 3,
     by (simp only [Dev.hearsSigned, Dev.ringReady, Sys2Proof.Machine.Cmd.fits]; decide +kernel)⟩,
   ⟨on id, 0, { refCmd 0x01 0 [] 160 [] with env := some (env1 3) }, env1 3,
     by (simp only [Dev.hearsSigned, Dev.ringReady, Sys2Proof.Machine.Cmd.fits]; decide +kernel)⟩⟩

theorem witness_TestCommands :
    (∃ (s : State) (r : RingNo) (c : Cmd) (e : Envelope),
      let fm : Form := { op := 0x0B01, roles := [2], used := [(16, 64)], ref := 2 }
      let k := c.inst.toNat
      let x := { s.dev.perturb k with kind := c.u 24 1, target := BitVec.ofNat 32 (c.u 28 4) }
      s.dev.hearsSigned r c e fm ∧ c.cls = 0x30 ∧ k ≤ 255 ∧ c.ref = none ∧ c.u 16 4 = 0 ∧ c.u 20 4 = 8 ∧ strayFrom c 32 = none ∧ c.u 26 1
        = 1 ∧ (s.dev.perturb k).state ≠ 1 ∧ s.dev.armFault x = none) ∧
    (∃ (s : State) (r : RingNo) (c : Cmd) (e : Envelope),
      let fm : Form := { op := 0x0B01, roles := [2], used := [(16, 64)], ref := 2 }
      let k := c.inst.toNat
      let x := { s.dev.perturb k with kind := c.u 24 1, target := BitVec.ofNat 32 (c.u 28 4) }
      s.dev.hearsSigned r c e fm ∧ c.cls = 0x30 ∧ k ≤ 255 ∧ c.ref = none ∧ c.u 16 4 = 0 ∧ c.u 20 4 = 8 ∧ strayFrom c 32 = none ∧ c.u 26 1
        = 2 ∧ x = s.dev.perturb k ∧ x.kind ≤ 12) ∧
    (∃ (s : State) (i : Fin 256),
      let x := s.dev.perturb i
      x.state ≠ 1) ∧
    (∃ (s : State) (i : Fin 256),
      let x := s.dev.perturb i
      x.state = 1 ∧ x.kind ∉ [4, 9, 10]) ∧
    (∃ (s : State) (i : Fin 256),
      let x := s.dev.perturb i
      x.state = 1 ∧ x.kind = 4) ∧
    (∃ (s : State) (i : Fin 256),
      let x := s.dev.perturb i
      let p := x.target.toNat % 2 ^ 24
      x.state = 1 ∧ (x.kind = 9 ∨ x.kind = 10) ∧ (s.dev.port p).lstate = 10 ∧ (s.dev.port p).testRuns = []) ∧
    (∃ (s : State) (i : Fin 256),
      let x := s.dev.perturb i
      x.state = 1 ∧ x.kind = 3) ∧
    (∃ (s : State) (i : Fin 256),
      let x := s.dev.perturb i
      x.state = 1 ∧ x.kind = 4) ∧
    (∃ (s : State) (i : Fin 256),
      let x := s.dev.perturb i
      (x.state ≠ 1 ∨ x.kind ∉ [3, 4])) ∧
    (∃ (s : State) (p : ExtPort),
      s.dev.active 10 (obj 0x02 p) = []) ∧
    (∃ (s : State) (p : ExtPort), ∃ k, ∃ l,
      s.dev.active 10 (obj 0x02 p) = k :: l ∧ (s.dev.port p).lstate = 10) ∧
    (∃ (s : State) (p : ExtPort),
      (s.dev.host.handover = true ∨ (s.dev.port p).testRuns = [])) ∧
    (∃ (s : State) (p : ExtPort) (errs : List Nat) (bits : Nat), ∃ run, ∃ next, ∃ rest,
      s.dev.host.handover = false ∧ (s.dev.port p).testRuns = run :: next :: rest ∧ (∀ l ∈ runLanes run, errs.getD l 0 * 1000000 ≤ bits))
        ∧
    (∃ (s : State) (p : ExtPort), ∃ run,
      s.dev.host.handover = false ∧ (s.dev.port p).testRuns = [run]) :=
  ⟨⟨pert { duration := 1000 } up7, 0, sgn 2 (cmd 0x30 2 [(16, 0), (20, 8), (24, 9), (26, 1), (28, 0x02000000)]), env1 2,
    by (simp only [Dev.hearsSigned, Dev.ringReady, Sys2Proof.Machine.Cmd.fits]; refine ⟨⟨?_, rfl, ?_⟩, ?_⟩ <;> decide +kernel)⟩,
   ⟨pert { kind := 9, state := 1, duration := 1000, target := obj 2 0 } up7, 0,
     sgn 2 (cmd 0x30 2 [(16, 0), (20, 8), (24, 9), (26, 2), (28, 0x02000000)]), env1 2,
     by (simp only [Dev.hearsSigned, Dev.ringReady, Sys2Proof.Machine.Cmd.fits]; refine ⟨⟨?_, rfl, ?_⟩, ?_⟩ <;> decide +kernel)⟩,
   ⟨on id, 2, by decide +kernel⟩,
   ⟨pert { kind := 1, state := 1 } up7, 2, by decide +kernel⟩,
   ⟨pert { kind := 4, state := 1 } { up7 with starved := 3 }, 2, by decide +kernel⟩,
   ⟨pert { kind := 10, state := 1, target := obj 2 0 } { up7 with lstate := 10, hold := 4 }, 2, by decide +kernel⟩,
   ⟨pert { kind := 3, state := 1 } up7, 2, by decide +kernel⟩,
   ⟨pert { kind := 4, state := 1, vcMask := 5 } up7, 2, by decide +kernel⟩,
   ⟨pert { kind := 5, state := 1 } up7, 2, by decide +kernel⟩,
   ⟨on id, 0, by decide +kernel⟩,
   ⟨pert { kind := 10, state := 1, target := obj 2 0, paramA := 1 } { up7 with lstate := 10 }, 0, 2, [], by decide +kernel⟩,
   ⟨on id, 0, by decide +kernel⟩,
   ⟨port { up7 with lstate := 10, testRuns := [1, 2] }, 0, List.replicate 8 0, 1000000, 1, 2, [], by decide +kernel⟩,
   ⟨port { up7 with lstate := 10, testRuns := [2], retrain := true }, 0, 2, by decide +kernel⟩⟩

theorem witness_DrillsInject :
    (∃ (s : State) (r : RingNo) (c : Cmd),
      let i := c.inst.toNat
      let x := s.dev.drill i
      let fm : Form := { op := 0x0B30, roles := [1], cls := some 0x31, hi := 63 }
      s.dev.hears r c fm ∧ x.kind ≠ 0 ∧ x.suits = true ∧ 60 ≤ x.interval.toNat ∧ (x.kind = 3 → s.dev.isConf (s.dev.pos (x.target.toNat % 2
        ^ 24)).slice.toNat = false)) ∧
    (∃ (s : State) (r : RingNo) (c : Cmd),
      let fm : Form := { op := 0x0B31, roles := [1], cls := some 0x31, hi := 63 }
      s.dev.hears r c fm) ∧
    (∃ (s : State) (i : Fin 64),
      let x := s.dev.drill i
      x.state ≠ 1) ∧
    (∃ (s : State) (i : Fin 64),
      let x := s.dev.drill i
      x.state = 1 ∧ s.dev.skipsDrill = true) ∧
    (∃ (s : State) (i : Fin 64),
      let x := s.dev.drill i
      x.state = 1 ∧ s.dev.skipsDrill = false) ∧
    (∃ (s : State) (p : ExtPort),
      (s.dev.port p).dropDrill = false) ∧
    (∃ (s : State) (p : ExtPort),
      (s.dev.port p).dropDrill = true) :=
  ⟨⟨drl { kind := 1, target := 0x02000000, interval := 60 }, 0, cmd 0x31 2 [],
    by (simp only [Dev.hears, Dev.ringReady, Sys2Proof.Machine.Cmd.fits]; decide +kernel)⟩,
   ⟨drl { kind := 1, target := 0x02000000, interval := 60 }, 0, cmd 0x31 2 [],
     by (simp only [Dev.hears, Dev.ringReady, Sys2Proof.Machine.Cmd.fits]; decide +kernel)⟩,
   ⟨drl { kind := 1, target := 0x02000000, interval := 60 }, 2, by decide +kernel⟩,
   ⟨on fun d => { d with test := { d.test with drills := [(2, { kind := 1, state := 1, target := 0x02000000, interval := 60 })], lastDrill := some 0 } },
     2, by decide +kernel⟩,
   ⟨drl { kind := 1, state := 1, target := 0x02000000, interval := 60 }, 2, by decide +kernel⟩,
   ⟨drl { kind := 1, target := 0x02000000, interval := 60 }, 0, by decide +kernel⟩,
   ⟨on fun d => { d with test := { d.test with drills := [(2, { kind := 1, state := 2, target := 0x02000000, interval := 60 })] }, ports := [(0, { up7 with dropDrill := true, lstate := 0 })] },
     0, by decide +kernel⟩⟩

end W4

namespace W5

def pwr (f : PowerSt → PowerSt) : State := on fun d => { d with power := f d.power }
def img (svn body : Nat) : Image := { header := le 4 0x57465A49 ++ le 2 1 ++ [0xB1] ++ le 1 svn ++ le 4 9 ++ le 4 body ++ le 2 1 ++ le 2 3 ++ le 2 2 ++ zeros 490, body := List.replicate body 0 }
def fws (f : FwSt) : State := on fun d => { d with fw := f }
def blk : CfgBlock := { copy := 0, slot := 255, seq := 4, role := 1, time := 0, values := { maker := 3 }, bytes := [1] }
def cold (p : PowerSt) : State := on fun d => { d with power := p }
def spd (m : SpdmSt) : State := on fun d => { d with host := { d.host with spdm := m } }
def rec3 : AuditRec := { seq := 3, time := 0, kind := 0, role := 1, fabric := false, signed := false, status := 0, opcode := 0, source := 0, object := 0, cred := 0, counter := 0, a := 0, b := 0, chain := 0 }
def frec : FaultRec := { seq := 1, time := 2, cls := 4, code := 0, action := 0 }
def opR : OutOp := { tag := 0x00040001, ep := 12, inp := 176, f := {}, why := .replay, phase := .flying }
def goodHead : List Byte := le 4 0x57465A49 ++ le 2 1 ++ [0xB1] ++ le 1 3 ++ le 4 9 ++ le 4 64 ++ le 2 1 ++ le 2 3 ++ le 2 2 ++ zeros 10
def goodImg : Image :=
  { header := goodHead ++ (le 48 (Config.sha384 (List.replicate 64 0)).toNat ++ zeros 432), body := List.replicate 64 0 }
set_option exponentiation.threshold 400 in
theorem good_ok : goodImg.bodyOk = true := by
  have hl : goodHead.length = 32 := by decide
  have len : ∀ n v, (le n v).length = n := by simp [le, upTo]
  have h1 : cut goodImg.header 32 48 = le 48 (Config.sha384 (List.replicate 64 0)).toNat := by
    simp [goodImg, cut, hl, len]
  have h2 : goodImg.bodyLen = 64 := by
    have : cut goodImg.header 12 4 = cut goodHead 12 4 := by simp [goodImg, cut, List.drop_append, List.take_append, hl]
    rw [Image.bodyLen, num, this]; decide
  have h3 : goodImg.digest = Config.sha384 goodImg.body := by
    rw [Image.digest, num, h1, Sys2Proof.Laws.unle_le]
    have hb : (Config.sha384 (List.replicate 64 0)).toNat < 256 ^ 48 :=
      lt_of_lt_of_eq (BitVec.isLt _) (Nat.pow_mul 2 8 48)
    rw [Nat.mod_eq_of_lt hb, BitVec.ofNat_toNat, BitVec.setWidth_eq]
    rfl
  rw [Image.bodyOk, h2, h3]; simp [goodImg]
def trial : State := on fun d => { d with
  fw := { staging := some (img 3 64), stageState := 3, fwState := 1, served := [0] }, power := { d.power with releaseStep := 3 },
  sw := { d.sw with kamro := [(0, { up := true }), (1, { up := true })] },
  tiles := { d.tiles with dies := (List.range 8).map fun t => (t, { up := true }) } }

theorem witness_PowerThermalAndReference :
    (∃ (s : State) (r : RingNo) (c : Cmd),
      let fm : Form := { op := 0x0910, roles := [1], cls := some 0x20, used := [(16, 21)] }
      s.dev.hears r c fm ∧ c.u 20 1 ≤ 1 ∧ (c.u 16 4 = noCap ∨ (1500 ≤ c.u 16 4 ∧ c.u 16 4 ≤ 4000))) ∧
    (∃ (s : State) (r : RingNo) (c : Cmd),
      let p := s.dev.power
      let fm : Form := { op := 0x0911, roles := [1], cls := some 0x20 }
      s.dev.hears r c fm ∧ p.hbState ≠ 2) ∧
    (∃ (s : State) (r : RingNo) (c : Cmd),
      let p := s.dev.power
      let fm : Form := { op := 0x0911, roles := [1], cls := some 0x20 }
      s.dev.hears r c fm ∧ p.hbState = 2) ∧
    (∃ (s : State) (watt : Nat),
      let p := s.dev.power
      5000 < watt ∧ p.mainOn = true ∧ p.forcedPeak = false) ∧
    (∃ (s : State) (watt : Nat) (mv : Nat) (aux : Nat),
      let p := s.dev.power
      let q := { p with samples := (watt :: p.samples).take 50, peak := max p.peak watt, inputMv := mv, auxMv := aux,
                        goodSamples := if 10 * watt ≤ 9 * p.limit then p.goodSamples + 1 else 0 }
      watt ≤ 5000 ∧ 1000 ≤ q.goodSamples) ∧
    (∃ (s : State) (watt : Nat) (mv : Nat) (aux : Nat),
      let p := s.dev.power
      let q := { p with samples := (watt :: p.samples).take 50, peak := max p.peak watt, inputMv := mv, auxMv := aux,
                        goodSamples := if 10 * watt ≤ 9 * p.limit then p.goodSamples + 1 else 0 }
      watt ≤ 5000 ∧ q.goodSamples < 1000) ∧
    (∃ (s : State),
      let p := s.dev.power
      p.mainOn = true ∧ p.limit < p.average ∧ p.limit < p.samples.headD 0) ∧
    (∃ (s : State),
      let p := s.dev.power
      p.average ≤ p.limit) ∧
    (∃ (s : State),
      let p := s.dev.power
      1000 ≤ p.goodSamples ∧ p.forced = false ∧ p.tempHigh = false ∧ p.dramHigh = false ∧ 0 < p.level) ∧
    (∃ (s : State),
      let p := s.dev.power
      p.goodSamples < 1000) ∧
    (∃ (s : State),
      let p := s.dev.power
      p.mainOn = true ∧ p.forcedPin = false) ∧
    (∃ (s : State),
      let p := s.dev.power
      p.mainOn = true ∧ p.forcedDroop = false) ∧
    (∃ (s : State),
      let p := s.dev.power
      p.forcedPin = true) ∧
    (∃ (s : State),
      let p := s.dev.power
      p.forcedDroop = true) ∧
    (∃ (s : State) (tj : List Int) (cool : Bool),
      let p := s.dev.power
      tj.length = 15 ∧ p.mainOn = true ∧ (hottest tj).1 < 10500 ∧ p.tempHigh = false ∧ cool = false) ∧
    (∃ (s : State) (tj : List Int),
      let p := s.dev.power
      tj.length = 15 ∧ p.mainOn = true ∧ 11000 ≤ (hottest tj).1 ∧ (hottest tj).1 < 11500 ∧ p.tempHigh = false ∧ p.forcedTj = false) ∧
    (∃ (s : State) (tj : List Int),
      let p := s.dev.power
      tj.length = 15 ∧ p.mainOn = true ∧ 11500 ≤ (hottest tj).1) ∧
    (∃ (s : State),
      let p := s.dev.power
      p.mainOn = true ∧ (10500 ≤ (hottest p.tj).1 ∨ p.dramHigh = true)) ∧
    (∃ (s : State),
      let p := s.dev.power
      (hottest p.tj).1 < 10500 ∧ p.dramHigh = false) ∧
    (∃ (s : State) (tc : List Int),
      let p := s.dev.power
      let top := (hottest (tc.take 48)).1
      p.mainOn = true ∧ top < 9500 ∧ p.dramHigh = false) ∧
    (∃ (s : State) (tc : List Int),
      let p := s.dev.power
      let top := (hottest (tc.take 48)).1
      p.mainOn = true ∧ 9500 ≤ top ∧ top < 10500 ∧ p.dramHigh = false) ∧
    (∃ (s : State) (flow : Nat) (inlet : Int),
      let p := s.dev.power
      1500 ≤ flow ∧ inlet ≤ 5000 ∧ p.forcedCool = false) ∧
    (∃ (s : State) (flow : Nat) (inlet : Int) (calm : Bool),
      let p := s.dev.power
      (flow < 1500 ∨ 5000 < inlet) ∧ p.mainOn = false ∧ calm = false ∧ p.coolBad ≤ 1) ∧
    (∃ (s : State) (flow : Nat) (inlet : Int),
      let p := s.dev.power
      (flow < 1500 ∨ 5000 < inlet) ∧ p.mainOn = true ∧ p.coolBad = 0) ∧
    (∃ (s : State) (flow : Nat) (inlet : Int),
      let p := s.dev.power
      (flow < 1500 ∨ 5000 < inlet) ∧ p.coolBad = 1 ∧ p.mainOn = true ∧ p.forcedCool = false) ∧
    (∃ (s : State),
      let p := s.dev.power
      p.hbState = 1) ∧
    (∃ (s : State),
      let p := s.dev.power
      p.hbState ≠ 1) ∧
    (∃ (s : State),
      let p := s.dev.power
      p.mainOn = true) ∧
    (∃ (s : State),
      s.dev.power.refLost = false) ∧
    (∃ (s : State),
      s.dev.power.refLost = true) ∧
    (∃ (s : State),
      s.dev.power.refLost = true ∧ s.dev.power.refHeld = false) ∧
    (∃ (s : State),
      s.dev.power.refLost = true ∧ s.dev.power.refHeld = true) :=
  ⟨⟨on id, 0, cmd 0x20 0 [(16, 4000), (20, 1)], by (simp only [Dev.hears, Dev.ringReady, Sys2Proof.Machine.Cmd.fits]; decide +kernel)⟩,
   ⟨on id, 0, cmd 0x20 0 [], by (simp only [Dev.hears, Dev.ringReady, Sys2Proof.Machine.Cmd.fits]; decide +kernel)⟩,
   ⟨pwr fun p => { p with hbState := 2 }, 0, cmd 0x20 0 [],
     by (simp only [Dev.hears, Dev.ringReady, Sys2Proof.Machine.Cmd.fits]; decide +kernel)⟩,
   ⟨on id, 5001, by decide +kernel⟩,
   ⟨pwr fun p => { p with goodSamples := 999 }, 10, 48000, 12000, by decide +kernel⟩,
   ⟨on id, 5000, 48000, 12000, by decide +kernel⟩,
   ⟨pwr fun p => { p with samples := [4100, 4200] }, by decide +kernel⟩,
   ⟨on id, by decide +kernel⟩,
   ⟨pwr fun p => { p with goodSamples := 1000, level := 1 }, by decide +kernel⟩,
   ⟨on id, by decide +kernel⟩,
   ⟨on id, by decide +kernel⟩,
   ⟨on id, by decide +kernel⟩,
   ⟨pwr fun p => { p with forcedPin := true }, by decide +kernel⟩,
   ⟨pwr fun p => { p with forcedDroop := true }, by decide +kernel⟩,
   ⟨on id, List.replicate 15 10499, false, by decide +kernel⟩,
   ⟨on id, List.replicate 14 0 ++ [11000], by decide +kernel⟩,
   ⟨on id, List.replicate 14 0 ++ [11500], by decide +kernel⟩,
   ⟨pwr fun p => { p with tj := List.replicate 15 10500 }, by decide +kernel⟩,
   ⟨on id, by decide +kernel⟩,
   ⟨on id, List.replicate 48 9499, by decide +kernel⟩,
   ⟨on id, List.replicate 48 9500, by decide +kernel⟩,
   ⟨on id, 1500, 5000, by decide +kernel⟩,
   ⟨pwr fun p => { p with mainOn := false }, 1499, 5000, false, by decide +kernel⟩,
   ⟨on id, 1499, 5000, by decide +kernel⟩,
   ⟨pwr fun p => { p with coolBad := 1 }, 1500, 5001, by decide +kernel⟩,
   ⟨pwr fun p => { p with hbState := 1 }, by decide +kernel⟩,
   ⟨on id, by decide +kernel⟩,
   ⟨on id, by decide +kernel⟩,
   ⟨on id, by decide +kernel⟩,
   ⟨pwr fun p => { p with refLost := true }, by decide +kernel⟩,
   ⟨pwr fun p => { p with refLost := true }, by decide +kernel⟩,
   ⟨pwr fun p => { p with refLost := true, refHeld := true }, by decide +kernel⟩⟩

theorem witness_FirmwareStaging :
    (∃ (s : State) (r : RingNo) (c : Cmd),
      let off := c.u 16 8
      let fm : Form := { op := 0x0A10, roles := [1], cls := some 0x28, used := [(16, 24)], ref := 1 }
      s.dev.hears r c fm ∧ s.dev.fw.erasing = false ∧ s.dev.fw.stageState ∉ [3, 4] ∧ off ≠ 0 ∧ s.dev.fw.stageState ≠ 1) ∧
    (∃ (s : State) (r : RingNo) (c : Cmd),
      let n := refLen c
      let off := c.u 16 8
      let fm : Form := { op := 0x0A10, roles := [1], cls := some 0x28, used := [(16, 24)], ref := 1 }
      s.dev.hears r c fm ∧ s.dev.fw.erasing = false ∧ s.dev.fw.stageState ∉ [3, 4] ∧ off = 0 ∧ n < 512) ∧
    (∃ (s : State) (r : RingNo) (c : Cmd),
      let n := refLen c
      let bs := refBytes c
      let off := c.u 16 8
      let fm : Form := { op := 0x0A10, roles := [1], cls := some 0x28, used := [(16, 24)], ref := 1 }
      s.dev.hears r c fm ∧ s.dev.fw.erasing = false ∧ s.dev.fw.stageState ∉ [3, 4] ∧ off = 0 ∧ 512 < n ∧
      let i : Image := { header := bs.take 512, body := [] }
      n < 512 + i.bodyLen) ∧
    (∃ (s : State) (r : RingNo) (c : Cmd) (i : Image),
      let n := refLen c
      let off := c.u 16 8
      let fm : Form := { op := 0x0A10, roles := [1], cls := some 0x28, used := [(16, 24)], ref := 1 }
      s.dev.hears r c fm ∧ s.dev.fw.erasing = false ∧ s.dev.fw.stageState ∉ [3, 4] ∧ off ≠ 0 ∧ s.dev.fw.stageState = 1 ∧ s.dev.fw.staging
        = some i ∧ 512 ≤ off ∧ off + n ≤ 512 + i.bodyLen ∧ (∀ e ∈ s.dev.fw.written, e.2 ≤ off ∨ off + n ≤ e.1) ∧
      let w := s.dev.fw.written ++ [(off, off + n)]
      let total := (w.map fun e => e.2 - e.1).foldl (· + ·) 0
      total < i.bodyLen) ∧
    (∃ (s : State) (r : RingNo) (c : Cmd) (i : Image),
      let n := refLen c
      let off := c.u 16 8
      let fm : Form := { op := 0x0A10, roles := [1], cls := some 0x28, used := [(16, 24)], ref := 1 }
      s.dev.hears r c fm ∧ s.dev.fw.erasing = false ∧ s.dev.fw.stageState ∉ [3, 4] ∧ off ≠ 0 ∧ s.dev.fw.stageState = 1 ∧ s.dev.fw.staging
        = some i ∧ 512 ≤ off ∧ off + n ≤ 512 + i.bodyLen ∧ (∀ e ∈ s.dev.fw.written, e.2 ≤ off ∨ off + n ≤ e.1) ∧
      let w := s.dev.fw.written ++ [(off, off + n)]
      let total := (w.map fun e => e.2 - e.1).foldl (· + ·) 0
      i.bodyLen ≤ total) ∧
    (∃ (s : State) (r : RingNo) (c : Cmd),
      let fm : Form := { op := 0x0A11, roles := [1], cls := some 0x28 }
      s.dev.hears r c fm ∧ s.dev.slotHeld = true ∧ s.dev.fw.handoverTo = 0) ∧
    (∃ (s : State) (r : RingNo) (c : Cmd), ∃ i,
      let fm : Form := { op := 0x0A11, roles := [1], cls := some 0x28 }
      s.dev.hears r c fm ∧ s.dev.slotHeld = false ∧ s.dev.fw.stageState = 2 ∧ s.dev.fw.fwState ≠ 1 ∧ s.dev.fw.handoverTo = 0 ∧
        s.dev.fw.staging = some i ∧ (∀ j, s.dev.runningImage = some j → j.readBy i = true ∧ i.readBy j = true)) ∧
    (∃ (s : State) (r : RingNo) (c : Cmd),
      let fm : Form := { op := 0x0A12, roles := [1], cls := some 0x28 }
      s.dev.hears r c fm ∧ s.dev.slotHeld = false ∧ s.dev.fw.fwState = 1) ∧
    (∃ (s : State),
      s.dev.fw.fwState = 1 ∧ s.dev.host.handover = false) ∧
    (∃ (s : State),
      s.dev.fw.fwState ≠ 1) ∧
    (∃ (s : State),
      s.dev.fw.erasing = true) ∧
    (∃ (s : State),
      s.dev.fw.erasing = false) :=
  ⟨⟨on id, 0, refCmd 0x28 0 [(16, 512)] 64 [], by (simp only [Dev.hears, Dev.ringReady, Sys2Proof.Machine.Cmd.fits]; decide +kernel)⟩,
   ⟨on id, 0, refCmd 0x28 0 [(16, 0)] 511 [], by (simp only [Dev.hears, Dev.ringReady, Sys2Proof.Machine.Cmd.fits]; decide +kernel)⟩,
   ⟨on id, 0, refCmd 0x28 0 [(16, 0)] 520 (img 3 64).header,
     by (simp only [Dev.hears, Dev.ringReady, Sys2Proof.Machine.Cmd.fits]; decide +kernel)⟩,
   ⟨fws { staging := some { img 3 64 with body := [] }, stageState := 1 }, 0, refCmd 0x28 0 [(16, 512)] 63 [],
     { img 3 64 with body := [] }, by (simp only [Dev.hears, Dev.ringReady, Sys2Proof.Machine.Cmd.fits]; decide +kernel)⟩,
   ⟨fws { staging := some { img 3 64 with body := [] }, stageState := 1 }, 0, refCmd 0x28 0 [(16, 512)] 64 [],
     { img 3 64 with body := [] }, by (simp only [Dev.hears, Dev.ringReady, Sys2Proof.Machine.Cmd.fits]; decide +kernel)⟩,
   ⟨on fun d => { d with prot := { d.prot with keySlots := [(0, { state := 1 })] } }, 0, cmd 0x28 0 [],
     by (simp only [Dev.hears, Dev.ringReady, Sys2Proof.Machine.Cmd.fits]; decide +kernel)⟩,
   ⟨fws { staging := some (img 3 64), stageState := 2 }, 0, cmd 0x28 0 [], img 3 64,
     by (simp only [Dev.hears, Dev.ringReady, Sys2Proof.Machine.Cmd.fits]; decide +kernel)⟩,
   ⟨fws { staging := some (img 3 64), stageState := 3, fwState := 1 }, 0, cmd 0x28 0 [],
     by (simp only [Dev.hears, Dev.ringReady, Sys2Proof.Machine.Cmd.fits]; decide +kernel)⟩,
   ⟨fws { staging := some (img 3 64), stageState := 3, fwState := 1 }, by decide +kernel⟩,
   ⟨on id, by decide +kernel⟩,
   ⟨fws { erasing := true }, by decide +kernel⟩,
   ⟨on id, by decide +kernel⟩⟩

theorem witness_FirmwareAndConfiguration :
    (∃ (s : State),
      s.dev.host.handover = false) ∧
    (∃ (s : State), ∃ i,
      let f := s.dev.fw
      s.dev.host.handover = true ∧ f.handoverTo = 1 ∧ f.staging = some i ∧ i.bodyOk = false) ∧
    (∃ (s : State), ∃ i,
      let f := s.dev.fw
      s.dev.host.handover = true ∧ f.handoverTo = 1 ∧ f.staging = some i ∧ i.bodyOk = true) ∧
    (∃ (s : State),
      let f := s.dev.fw
      s.dev.host.handover = true ∧ f.handoverTo = 2) ∧
    (∃ (s : State), ∃ i,
      let f := s.dev.fw
      f.staging = some i ∧ s.dev.mayConfirm = true) ∧
    (∃ (s : State),
      let f := s.dev.fw
      (f.fwState ≠ 1 ∨ s.dev.mayConfirm = false)) ∧
    (∃ (s : State), ∃ i,
      let f := s.dev.fw
      f.staging = some i ∧ f.stageState = 4 ∧ f.fromStaging = true ∧ f.erasing = false ∧ s.dev.host.handover = false) ∧
    (∃ (s : State) (r : RingNo) (c : Cmd),
      let f := s.dev.fw
      let fm : Form := { op := 0x0A20, roles := [1, 2], cls := some 0x29, hi := 1 }
      s.dev.hears r c fm ∧ f.commit = none) ∧
    (∃ (s : State) (r : RingNo) (c : Cmd),
      let f := s.dev.fw
      let fm : Form := { op := 0x0A20, roles := [1, 2], cls := some 0x29, hi := 1 }
      s.dev.hears r c fm ∧ f.commit ≠ none) ∧
    (∃ (s : State),
      let f := s.dev.fw
      f.commit = none) ∧
    (∃ (s : State), ∃ b,
      let f := s.dev.fw
      f.commit = some b ∧ s.dev.host.handover = false ∧ f.commitWaits = [] ∧ f.commitNext = none ∧ b.bytes.length ≤ 65536) ∧
    (∃ (s : State), ∃ b,
      let f := s.dev.fw
      f.commit = some b ∧ s.dev.host.handover = false ∧ f.commitTries < 2) ∧
    (∃ (s : State),
      let f := s.dev.fw
      f.mappedDirty = true ∧ (∀ t, f.lastMapCommit = some t → t + 10000000000 ≤ s.dev.now)) ∧
    (∃ (s : State),
      let f := s.dev.fw
      f.mappedDirty = false) :=
  ⟨⟨on id, by decide +kernel⟩,
   ⟨on fun d => { d with host := { d.host with handover := true }, fw := { staging := some { img 3 64 with body := [] }, stageState := 2, handoverTo := 1 } },
     { img 3 64 with body := [] }, by decide +kernel⟩,
   ⟨on fun d => { d with host := { d.host with handover := true }, fw := { staging := some goodImg, stageState := 2, handoverTo := 1 } },
     goodImg, by exact ⟨rfl, rfl, rfl, good_ok⟩⟩,
   ⟨on fun d => { d with host := { d.host with handover := true }, fw := { staging := some (img 3 64), stageState := 3, fwState := 1, handoverTo := 2 } },
     by decide +kernel⟩,
   ⟨trial, img 3 64, by decide +kernel⟩,
   ⟨on id, by decide +kernel⟩,
   ⟨fws { staging := some (img 3 64), stageState := 4, fromStaging := true }, img 3 64, by decide +kernel⟩,
   ⟨on id, 0, cmd 0x29 1 [], by (simp only [Dev.hears, Dev.ringReady, Sys2Proof.Machine.Cmd.fits]; decide +kernel)⟩,
   ⟨fws { commit := some blk }, 0, cmd 0x29 1 [], by (simp only [Dev.hears, Dev.ringReady, Sys2Proof.Machine.Cmd.fits]; decide +kernel)⟩,
   ⟨on id, by decide +kernel⟩,
   ⟨fws { commit := some blk }, blk, by decide +kernel⟩,
   ⟨fws { commit := some blk, commitTries := 1 }, blk, by decide +kernel⟩,
   ⟨on fun d => { d with fw := { mappedDirty := true, lastMapCommit := some 0 }, now := 10000000000 }, by decide +kernel⟩,
   ⟨on id, by decide +kernel⟩⟩

theorem witness_StartUpAndDieResets :
    (∃ (s : State), ∃ b,
      s.dev.fw.commit = some b) ∧
    (∃ (s : State),
      let p := s.dev.power
      (s.dev.ident.sampled = true ∨ p.auxOn = false)) ∧
    (∃ (s : State),
      let p := s.dev.power
      s.dev.ident.sampled = false ∧ p.auxOn = true) ∧
    (∃ (s : State),
      let p := s.dev.power
      p.auxOn = true ∧ s.dev.ident.sampled = true ∧ p.mainOn = false ∧ p.shutdown = false ∧ (p.thermalTrip = false ∨ (hottest p.tj).1 ≤
        6000)) ∧
    (∃ (s : State),
      let p := s.dev.power
      p.shutdown = true) ∧
    (∃ (s : State),
      let p := s.dev.power
      p.pllLocked = true ∧ p.releaseStep = 0) ∧
    (∃ (s : State),
      let p := s.dev.power
      p.pllLocked = true ∧ p.releaseStep = 1) ∧
    (∃ (s : State),
      let p := s.dev.power
      p.pllLocked = true ∧ p.releaseStep = 2) ∧
    (∃ (s : State),
      let p := s.dev.power
      p.pllLocked = true ∧ 3 ≤ p.releaseStep) ∧
    (∃ (s : State),
      let p := s.dev.power
      p.pllLocked = false) ∧
    (∃ (s : State) (k : Kamro),
      (s.dev.kamro k).up = false) ∧
    (∃ (s : State) (k : Kamro),
      (s.dev.kamro k).up = true) ∧
    (∃ (s : State),
      s.dev.ident.sampled = false) ∧
    (∃ (s : State),
      s.dev.ident.sampled = true) :=
  ⟨⟨fws { commit := some blk }, blk, by decide +kernel⟩,
   ⟨on id, by decide +kernel⟩,
   ⟨on fun d => { d with ident := {}, power := {} }, by decide +kernel⟩,
   ⟨cold {}, by decide +kernel⟩,
   ⟨cold { shutdown := true }, by decide +kernel⟩,
   ⟨cold { mainOn := true, pllLocked := true }, by decide +kernel⟩,
   ⟨cold { mainOn := true, pllLocked := true, releaseStep := 1 }, by decide +kernel⟩,
   ⟨cold { mainOn := true, pllLocked := true, releaseStep := 2 }, by decide +kernel⟩,
   ⟨on id, by decide +kernel⟩,
   ⟨cold {}, by decide +kernel⟩,
   ⟨on fun d => { d with sw := {} }, 0, by decide +kernel⟩,
   ⟨on fun d => { d with ports := [(0, up7)] }, 0, by decide +kernel⟩,
   ⟨on fun d => { d with ident := {} }, by decide +kernel⟩,
   ⟨on id, by decide +kernel⟩⟩

theorem witness_FaultsAndLogs :
    (∃ (s : State) (r : RingNo) (c : Cmd),
      let fm : Form := { op := 0x0C10, roles := [1], cls := some 0x38, used := [(16, 18)], ref := 1, out := true }
      let n := c.u 16 2
      s.dev.hears r c fm ∧ 1 ≤ n ∧ n ≤ 4096 ∧ refLen c = 64 * n) ∧
    (∃ (s : State) (r : RingNo) (c : Cmd),
      let fm : Form := { op := 0x0C11, roles := [1], cls := some 0x38, used := [(16, 28)] }
      s.dev.hears r c fm ∧ c.u 16 8 < 2 ^ 19 ∧ c.u 24 2 ≤ 2047) ∧
    (∃ (s : State) (r : RingNo) (c : Cmd),
      let fm : Form := { op := 0x0C20, roles := [1, 2], cls := some 0x39, used := [(16, 24)], ref := 1, out := true }
      let held := s.dev.flash.audit ++ s.dev.sec.unwritten
      s.dev.hears r c fm ∧ (∀ x l, held = x :: l → x.seq ≤ c.u 16 8) ∧ (held = [] → s.dev.sec.nextSeq ≤ c.u 16 8)) ∧
    (∃ (s : State) (r : RingNo) (c : Cmd) (mirror : Bool),
      let f := s.dev.faults
      let fm : Form := { op := 0x0C01, roles := [1], used := [(16, 64)], ref := 2 }
      s.dev.hears r c fm ∧ c.cls = 0x38 ∧ c.inst = 0 ∧ c.ref = none ∧ c.u 16 4 = 176 ∧ c.u 20 4 = 8 ∧ strayFrom c 32 = none ∧ c.u 24 1 =
        (if mirror then 2 else 1) ∧ c.u 27 1 = 0 ∧ s.dev.isConf f.newSlice.toNat = false ∧ f.replayState ≠ 1 ∧ f.replayStream = none ∧
        (f.logEnable = true → s.dev.pool.logPages ≠ 0) ∧ (s.dev.replayRing mirror).2.2.1 ≤ f.fromSeq.toNat ∧ f.toSeq.toNat <
        (s.dev.replayRing mirror).2.2.2 ∧ s.dev.node ≠ 0xFFFF) ∧
    (∃ (s : State),
      let f := s.dev.faults
      (∀ o ∈ s.dev.req.ops, o.why ≠ .replay) ∧ f.replayStream = none ∧ f.replayState = 1) ∧
    (∃ (s : State),
      let f := s.dev.faults
      (∀ o ∈ s.dev.req.ops, o.why ≠ .replay) ∧ f.replayStream = none ∧ f.replayState ≠ 1) ∧
    (∃ (s : State),
      (∃ o ∈ s.dev.req.ops, o.why = .replay)) ∧
    (∃ (s : State),
      let f := s.dev.faults
      f.mirrorOk = true ∧ (∀ o ∈ s.dev.req.ops, o.phase ≠ .waiting)) ∧
    (∃ (s : State),
      let f := s.dev.faults
      f.mirrorOk = true) ∧
    (∃ (s : State),
      let f := s.dev.faults
      f.mirrorOk = false) ∧
    (∃ (s : State),
      s.dev.sec.unsealed < 256 ∧ (s.dev.sec.unsealed = 0 ∨ s.dev.now < s.dev.sec.unsealedAt + 60000000000)) ∧
    (∃ (s : State),
      (256 ≤ s.dev.sec.unsealed ∨ (s.dev.sec.unsealed ≠ 0 ∧ s.dev.sec.unsealedAt + 60000000000 ≤ s.dev.now))) ∧
    (∃ (s : State) (r : RingNo) (c : Cmd) (op : BitVec 16),
      s.dev.ringReady r op.toNat c 1 ∧ c.env = none ∧ s.dev.host.recovery = false ∧ assignedCmds.contains op.toNat = false) ∧
    (∃ (s : State) (r : RingNo) (c : Cmd) (op : BitVec 16),
      s.dev.ringReady r op.toNat c 1 ∧ c.env = none ∧ s.dev.host.recovery = false ∧ (op.toNat = 0x0101 ∨ op.toNat = 0x0501)) ∧
    (∃ (p : Port) (g : Frame),
      (p.val < 144 ∨ assignedOps.contains g.opn = true)) ∧
    (∃ (s : State) (p : Port) (g : Frame),
      144 ≤ p.val ∧ assignedOps.contains g.opn = false ∧ g.hchkOk = true ∧ g.checkOk = true ∧ g.conf = false ∧ s.dev.tornDown
        g.slice.toNat = false ∧ isRelay g.opn = true) ∧
    (∃ (s : State) (p : Port) (g : Frame),
      144 ≤ p.val ∧ assignedOps.contains g.opn = false ∧ g.hchkOk = true ∧ g.checkOk = true ∧ g.conf = false ∧ s.dev.tornDown
        g.slice.toNat = false ∧ isRelay g.opn = false ∧ s.dev.functionOff g = false) ∧
    (∃ (s : State) (p : Port) (g : Frame),
      144 ≤ p.val ∧ assignedOps.contains g.opn = false ∧ g.hchkOk = true ∧ g.checkOk = true ∧ g.conf = false ∧ s.dev.tornDown
        g.slice.toNat = false ∧ isRelay g.opn = false ∧ s.dev.functionOff g = true) :=
  ⟨⟨on fun d => { d with faults := { d.faults with queue := [frec] } }, 0, refCmd 0x38 0 [(16, 4096)] 262144 [],
    by (simp only [Dev.hears, Dev.ringReady, Sys2Proof.Machine.Cmd.fits]; decide +kernel)⟩,
   ⟨on id, 0, cmd 0x38 0 [(16, 2 ^ 19 - 1), (24, 2047), (26, 0xC001)],
     by (simp only [Dev.hears, Dev.ringReady, Sys2Proof.Machine.Cmd.fits]; decide +kernel)⟩,
   ⟨on fun d => { d with sec := { d.sec with unwritten := [rec3] } }, 0, refCmd 0x39 0 [(16, 3)] 192 [],
     by (simp only [Dev.hears, Dev.ringReady, Sys2Proof.Machine.Cmd.fits]; refine ⟨by decide +kernel, fun x l h => ?_, fun h => absurd h (by decide +kernel)⟩; obtain ⟨rfl, rfl⟩ := List.cons.inj (show [rec3] = x :: l from h); decide +kernel)⟩,
   ⟨on fun d => { d with faults := { d.faults with headSeq := 5, newSlice := 1, deadNode := 0xC002 } }, 0,
     cmd 0x38 0 [(16, 176), (20, 8), (24, 1), (28, 0xC002), (30, 0xC003)], false,
     by (simp only [Dev.hears, Dev.ringReady, Sys2Proof.Machine.Cmd.fits]; decide +kernel)⟩,
   ⟨on fun d => { d with faults := { d.faults with replayState := 1 } }, by decide +kernel⟩,
   ⟨on id, by decide +kernel⟩,
   ⟨on fun d => { d with req := { d.req with ops := [opR] } }, by decide +kernel⟩,
   ⟨on fun d => { d with faults := { d.faults with mirrorOk := true, headSeq := 3 } }, by decide +kernel⟩,
   ⟨on fun d => { d with faults := { d.faults with mirrorOk := true, headSeq := 3 }, req := { d.req with ops := [opR, { opR with why := .mirror 3 }] } },
     by decide +kernel⟩,
   ⟨on id, by decide +kernel⟩,
   ⟨on id, by decide +kernel⟩,
   ⟨on fun d => { d with sec := { d.sec with unsealed := 256 } }, by decide +kernel⟩,
   ⟨on id, 0, cmd 0 0 [], 0x0999, by (simp only [Dev.ringReady]; decide +kernel)⟩,
   ⟨on id, 0, cmd 0 0 [], 0x0101, by (simp only [Dev.ringReady]; decide +kernel)⟩,
   ⟨144, { op := 0x01 }, by decide +kernel⟩,
   ⟨on id, 144, Frame.sealAll { op := 0x6F }, by decide +kernel⟩,
   ⟨on id, 144, Frame.sealAll { op := 0x70 }, by decide +kernel⟩,
   ⟨on fun d => { d with prot := { d.prot with slices := [(2, { state := 1, disabled := 8 })] } }, 144,
     Frame.sealAll { op := 0x70, slice := 2 }, by decide +kernel⟩⟩

theorem witness_MailboxAnswers :
    (∃ (s : State) (q : SpdmReq), ∃ i,
      let d := s.dev
      d.spdmUp = false ∧ i ∈ ([.getVersion q, .getCapabilities q, .negotiateAlgorithms q, .getDigests q, .getCertificate q, .challenge q,
        .getMeasurements q] : List Instr)) ∧
    (∃ (s : State) (q : SpdmReq), ∃ i,
      let d := s.dev
      d.spdmUp = true ∧ q.version ≠ 0x13 ∧ i ∈ ([.getCapabilities q, .negotiateAlgorithms q, .getDigests q, .getCertificate q, .challenge
        q, .getMeasurements q] : List Instr)) ∧
    (∃ (s : State) (q : SpdmReq), ∃ i,
      let d := s.dev
      let m := d.host.spdm
      d.spdmUp = true ∧ q.version = 0x13 ∧ m.stage < 3 ∧ i ∈ ([.getDigests q, .getCertificate q, .challenge q, .getMeasurements q] : List
        Instr)) ∧
    (∃ (s : State) (q : SpdmReq),
      let d := s.dev
      d.spdmUp = true ∧ q.version = 0x10) ∧
    (∃ (s : State) (q : SpdmReq),
      let d := s.dev
      let m := d.host.spdm
      d.spdmUp = true ∧ q.version = 0x13 ∧ m.stage = 1) ∧
    (∃ (s : State) (q : SpdmReq),
      let d := s.dev
      let m := d.host.spdm
      d.spdmUp = true ∧ q.version = 0x13 ∧ m.stage = 2 ∧ num q.body 4 4 / 0x80 % 2 = 1 ∧ num q.body 8 4 / 2 % 2 = 1) ∧
    (∃ (s : State) (q : SpdmReq),
      let d := s.dev
      let m := d.host.spdm
      d.spdmUp = true ∧ q.version = 0x13 ∧ 3 ≤ m.stage) ∧
    (∃ (s : State) (q : SpdmReq),
      let d := s.dev
      let m := d.host.spdm
      d.spdmUp = true ∧ q.version = 0x13 ∧ 3 ≤ m.stage ∧ q.param1.toNat % 16 = 0) ∧
    (∃ (s : State) (q : SpdmReq),
      let d := s.dev
      let m := d.host.spdm
      d.spdmUp = true ∧ q.version = 0x13 ∧ 3 ≤ m.stage ∧ q.param1 = 0 ∧ q.param2.toNat ∈ [0, 1, 0xFF]) ∧
    (∃ (s : State) (q : SpdmReq),
      let d := s.dev
      let m := d.host.spdm
      d.spdmUp = true ∧ q.version = 0x13 ∧ 3 ≤ m.stage ∧ q.param1.toNat % 2 = 0 ∧ q.param2 = 0) ∧
    (∃ (s : State) (q : SpdmReq),
      let d := s.dev
      let m := d.host.spdm
      d.spdmUp = true ∧ q.version = 0x13 ∧ 3 ≤ m.stage ∧ q.param1.toNat % 2 = 1 ∧ num q.body 32 1 % 16 = 0 ∧ 1 ≤ q.param2.toNat ∧
        q.param2.toNat ≤ 5) :=
  ⟨⟨on fun d => { d with host := { d.host with fwReady := false } }, {}, Instr.getDigests {}, by decide +kernel⟩,
   ⟨on id, { version := 0x12 }, Instr.getDigests { version := 0x12 }, by decide +kernel⟩,
   ⟨on id, {}, Instr.getDigests {}, by decide +kernel⟩,
   ⟨on id, { version := 0x10 }, by decide +kernel⟩,
   ⟨spd { stage := 1 }, {}, by decide +kernel⟩,
   ⟨spd { stage := 2 }, { body := zeros 4 ++ le 4 0x80 ++ le 4 2 ++ zeros 20 }, by decide +kernel⟩,
   ⟨spd { stage := 3 }, {}, by decide +kernel⟩,
   ⟨spd { stage := 3 }, { body := le 2 0 ++ le 2 64 }, by decide +kernel⟩,
   ⟨spd { stage := 3 }, { param2 := 0xFF, body := zeros 40 }, by decide +kernel⟩,
   ⟨spd { stage := 3 }, { body := zeros 8 }, by decide +kernel⟩,
   ⟨spd { stage := 3 }, { param1 := 1, param2 := 5, body := zeros 41 }, by decide +kernel⟩⟩

theorem witness_StepRunsFrontCommand :
    ∃ (s : State) (c : Instr) (rest : List Instr),
      s.pending = c :: rest :=
  ⟨{ State.reset with pending := [Instr.sweepLap [] [], .roundBoundary] }, Instr.sweepLap [] [], [.roundBoundary], by decide +kernel⟩

theorem witness_IdleAndReset :
    (∃ (s : State),
      s.pending = [] ∧ s.dev.power.auxOn = true) ∧
    (∃ (s : State),
      s.pending = [] ∧ s.dev.power.auxOn = false) :=
  ⟨⟨State.reset, by decide +kernel⟩,
   ⟨cold { auxOn := false }, by decide +kernel⟩⟩

theorem witness_FloorNeverFalls :
    (∃ (fz : Fuses) (i : Image),
      i.svn < fz.svnFloor) ∧
    (∃ (s : State) (r : RingNo) (c : Cmd),
      let fm : Form := { op := 0x0A10, roles := [1], cls := some 0x28, used := [(16, 24)], ref := 1 }
      let i : Image := { header := (refBytes c).take 512, body := [] }
      s.dev.hears r c fm ∧ s.dev.fw.erasing = false ∧ s.dev.fw.stageState ∉ [3, 4] ∧ c.u 16 8 = 0 ∧ 512 ≤ refLen c ∧ i.svn <
        s.fuses.svnFloor) ∧
    (∃ (s : State) (i : Image),
      s.dev.fw.staging = some i ∧ s.dev.mayConfirm = true) ∧
    (∃ (s s' : State),
      step s = .next s' ∧ s'.fuses ≠ s.fuses ∧ (∃ rest, s.pending = .fwConfirm :: rest)) :=
  ⟨⟨{ svnFloor := 4 }, img 3 64, by decide +kernel⟩,
   ⟨{ on id with fuses := { svnFloor := 4 } }, 0, refCmd 0x28 0 [] 512 (img 3 64).header,
     by (simp only [Dev.hears, Dev.ringReady, Sys2Proof.Machine.Cmd.fits]; decide +kernel)⟩,
   ⟨trial, img 3 64, by decide +kernel⟩,
   ⟨{ trial with pending := [.fwConfirm] }, _, by exact ⟨rfl, by decide +kernel, [], rfl⟩⟩⟩

theorem witness_FrameBytesRoundTrip :
    ∃ (f : Frame),
      f.payload.length = f.area ∧ (f.area = 0 → f.fcheck = 0) :=
  ⟨Frame.sealAll { dst := 0xC001, op := 0x02, length := 64, payload := List.replicate 64 255 }, by decide +kernel⟩

theorem witness_MemoryReadsBack :
    (∃ (m : Memory),
      m.wf = true) ∧
    (∃ (a : Nat) (b : Nat) (bs : List Byte),
      (b < a ∨ a + bs.length ≤ b)) ∧
    (∃ (m : Memory) (i : Nat) (bs : List Byte),
      m.wf = true ∧ i < bs.length) :=
  ⟨⟨[(3, 1)], by decide +kernel⟩,
   ⟨2, 5, [0, 0, 7], by decide +kernel⟩,
   ⟨[(3, 1)], 2, [0, 0, 7], by decide +kernel⟩⟩

theorem witness_MemoriesStayCanonical :
    ∃ (s s' : State),
      s.dev.memoriesWf = true ∧ step s = .next s' ∧ s.pending ≠ [] ∧ s.dev.pool.mem ≠ [] :=
  ⟨{ (on fun d => { d with pool := { d.pool with mem := [(5, 7)] } }) with pending := [.streamTableTimeout 0 0] }, _,
    by exact ⟨by decide +kernel, rfl, by decide, by decide⟩⟩

theorem witness_PerturbationsHoldDrills :
    (∃ (s : State) (i : Fin 64),
      (∃ e ∈ s.dev.test.perturbs, e.2.state = 1) ∧ (s.dev.drill i).state = 1) ∧
    (∃ (s : State) (r : RingNo) (c : Cmd),
      (∃ e ∈ s.dev.test.perturbs, e.2.state = 1) ∧
      let fm : Form := { op := 0x0B30, roles := [1], cls := some 0x31, hi := 63 }
      let x := s.dev.drill c.inst.toNat
      s.dev.hears r c fm ∧ x.state = 0 ∧ x.kind ≠ 0 ∧ x.suits = true ∧ 60 ≤ x.interval.toNat ∧ (x.kind = 3 → s.dev.isConf (s.dev.pos
        (x.target.toNat % 2 ^ 24)).slice.toNat = false)) :=
  ⟨⟨on fun d => { d with test := { d.test with perturbs := [(0, { kind := 1, state := 1 })], drills := [(2, { kind := 1, state := 1, target := 0x02000000, interval := 60 })] } },
    2, by decide +kernel⟩,
   ⟨on fun d => { d with test := { d.test with perturbs := [(0, { kind := 1, state := 1 })], drills := [(2, { kind := 1, state := 0, target := 0x02000000, interval := 60 })] } },
     0, cmd 0x31 2 [], by (simp only [Dev.hears, Dev.ringReady, Sys2Proof.Machine.Cmd.fits]; decide +kernel)⟩⟩

theorem witness_FormRefusalChangesNothing :
    ∃ (d : Dev) (r : RingNo) (c : Cmd) (fm : Form) (code : Nat) (det : Nat) (body : Cmd → Nat → Nat → Dev → Answer × Dev),
      d.ringReady r fm.op c 1 ∧ c.env = none ∧ fm.roles.contains 1 = true ∧ (fm.cls.isSome = true → fm.cls = some c.cls.toNat) ∧
      let q := if ((d.taken r 1 c).refPages fm c).1.isSome && (c.ref.map (·.translates)).getD true then c else unreached c
      formFault fm q = some (code, det) ∧
        (match (body q d.host.nextWait 1 (d.heard r fm c)).1 with | .refuse b _ => codeRank code ≤ codeRank b | .denied b _ => codeRank code ≤ codeRank b | _ => True)
        :=
  ⟨base, 0, { cmd 0x09 2 [] with rsv12 := 1 }, { op := 0x0510, roles := [1], cls := some 0x09, used := [(16, 17), (24, 32)], hi := 1023 },
    0x09, 12, fun _ _ _ d => (Answer.refuse 0x03 0, d),
    by (simp only [Dev.ringReady]; refine ⟨?_, ?_, ?_, ?_, ?_, ?_⟩ <;> decide +kernel)⟩

end W5

end Sys2Proof.Tests
end

section
/-!
PROOF. SVN_FLOOR (R403): what each command may do to the fuses, and why an image below the floor is refused.
-/
namespace Sys2Proof.Proofs

open Sys2Proof Sys2Proof.Machine Sys2Proof.Laws

/-! ### Images below the floor (R403, R404) -/

/-- A header whose SVN is below the floor is not accepted. -/
theorem headerOk_of_svn_lt {fz : Fuses} {i : Image} (h : i.svn < fz.svnFloor) : headerOk fz i = false := by
  have hsvn : decide (fz.svnFloor ≤ i.svn) = false := decide_eq_false (Nat.not_le.mpr h)
  simp only [headerOk, hsvn, Bool.and_false, Bool.false_and]

/-- An image whose SVN is below the floor does not verify, whatever its body. -/
theorem imageOk_of_svn_lt {fz : Fuses} {i : Image} (h : i.svn < fz.svnFloor) : imageOk fz i = false := by
  rw [imageOk, headerOk_of_svn_lt h, Bool.false_and]

/-- FW_STAGE of a first part that holds a whole header: one that is not accepted is refused before staging is looked at (R404). -/
theorem fwStageBody_badHeader {fz : Fuses} {c : Cmd} (id role : Nat) (d : Dev) (hoff : c.u 16 8 = 0) (hlen : 512 ≤ refLen c)
    (hbad : headerOk fz { header := (refBytes c).take 512, body := [] } = false) :
    fwStageBody fz c id role d =
      (.denied 0x46 0, d.fault (fwRec d 0x01 (Image.version { header := (refBytes c).take 512, body := [] }))) := by
  simp only [fwStageBody, hoff, if_true, Nat.not_lt.mpr hlen, if_false, hbad, Bool.not_false]

/-- A command whose own rule denies it: what the refusal itself changes stays (R308), and its reply goes. -/
theorem runCmd_denied {d x : Dev} {r : RingNo} {c : Cmd} {fm : Form} {code det : Nat} {body : Cmd → Nat → Nat → Dev → Answer × Dev}
    (h : d.hears r c fm) (hb : body c d.host.nextWait 1 (d.heard r fm c) = (.denied code det, x)) :
    d.runCmd fm c body = x.replies d fm c (.denied code det) := by
  rw [runCmd_judged h, hb]
  rfl

/-! ### What a command does to the fuses -/

/-- FW_CONFIRM and FIELD_RETURN apart, a command acts on the device alone. -/
theorem exec_cases (i : Instr) (s : State) : i = .fwConfirm ∨ (∃ c, i = .fieldReturn c) ∨ ∃ d, Runs i s d := by
  cases i with
  | fwConfirm => exact .inl rfl
  | fieldReturn c => exact .inr (.inl ⟨c, rfl⟩)
  | _ => exact .inr (.inr ⟨_, rfl⟩)

theorem burntFrom_refl (fz : Fuses) : fz.burntFrom fz := ⟨le_rfl, id⟩

theorem svnFloor_le_confirmedFloor (fz : Fuses) (d : Dev) : fz.svnFloor ≤ confirmedFloor fz d := by
  unfold confirmedFloor
  split
  · split
    · exact le_max_left _ _
    · exact le_rfl
  · exact le_rfl

/-- A confirmation that the module allows raises the floor to the image's SVN (R409). -/
theorem confirmedFloor_of_mayConfirm (fz : Fuses) {d : Dev} {i : Image} (hi : d.fw.staging = some i) (hm : d.mayConfirm = true) :
    confirmedFloor fz d = max fz.svnFloor i.svn := by
  simp only [confirmedFloor, hi, hm, if_true]

theorem burnReturn_burntFrom (s : State) : s.burnReturn.fuses.burntFrom s.fuses :=
  ⟨le_rfl, fun h => by simp only [State.burnReturn, h, Bool.true_or]⟩

/-- A command leaves the fuses, or is one of the two that burn them further. -/
theorem exec_fuses {i : Instr} {s s' : State} (h : exec i s = .next s') :
    s'.fuses.burntFrom s.fuses ∧ (s'.fuses ≠ s.fuses → i = .fwConfirm ∨ ∃ c, i = .fieldReturn c) := by
  rcases exec_cases i s with rfl | ⟨c, rfl⟩ | ⟨d, hd⟩
  · obtain rfl := Host.Outcome.next.inj h
    exact ⟨⟨svnFloor_le_confirmedFloor s.fuses s.dev, id⟩, fun _ => .inl rfl⟩
  · obtain rfl := Host.Outcome.next.inj h
    exact ⟨burnReturn_burntFrom (s.onDev (fieldReturnD c)), fun _ => .inr ⟨c, rfl⟩⟩
  · obtain rfl := Host.Outcome.next.inj (h.symm.trans hd)
    exact ⟨burntFrom_refl s.fuses, fun hne => absurd rfl hne⟩

/-- A step leaves the fuses, or runs one of the two commands that burn them further. -/
theorem step_fuses {s s' : State} (h : step s = .next s') :
    s'.fuses.burntFrom s.fuses ∧
      (s'.fuses ≠ s.fuses → (∃ rest, s.pending = .fwConfirm :: rest) ∨ ∃ c rest, s.pending = .fieldReturn c :: rest) := by
  cases hp : s.pending with
  | nil =>
    rw [step, hp] at h
    obtain rfl := Host.Outcome.next.inj h
    exact ⟨burntFrom_refl s.fuses, fun hne => absurd rfl hne⟩
  | cons i rest =>
    rw [step, hp] at h
    obtain ⟨hburnt, hwho⟩ := exec_fuses h
    refine ⟨hburnt, fun hne => ?_⟩
    rcases hwho hne with rfl | ⟨c, rfl⟩
    · exact .inl ⟨rest, rfl⟩
    · exact .inr ⟨c, rest, rfl⟩

/-- Settles O55: an image below the floor fails its header's check, a confirmation takes the greater of floor and SVN, and no other command but
FIELD_RETURN reaches the fuses. -/
theorem floorNeverFalls : Obligations.FloorNeverFalls := by
  unfold Obligations.FloorNeverFalls
  refine ⟨fun fz i h => ⟨headerOk_of_svn_lt h, imageOk_of_svn_lt h⟩, ?stage, ?confirm, fun s s' => step_fuses⟩
  case stage =>
    intro s r c fm i hhears _ _ hoff hlen hsvn
    have hbody := fwStageBody_badHeader s.dev.host.nextWait 1 (s.dev.heard r fm c) hoff hlen (headerOk_of_svn_lt hsvn)
    exact congrArg (fun d => Host.Outcome.next { s with dev := d }) (runCmd_denied hhears hbody)
  case confirm =>
    exact fun s i hi hm => ⟨_, rfl, confirmedFloor_of_mayConfirm s.fuses hi hm⟩

end Sys2Proof.Proofs
end

section
/-!
PROOF. Perturbations and drills (R427): a due drill waits while a perturbation is active, and DRILL_ARM arms all the same.
-/
namespace Sys2Proof.Proofs

open Sys2Proof Sys2Proof.Machine Sys2Proof.Laws

/-! ### Commands without a reference -/

/-- Where the form has no reference, a command's own rule is judged as soon as its entry is taken. -/
theorem heard_of_noRef {fm : Form} (hr : fm.ref = 0) (d : Dev) (r : RingNo) (c : Cmd) : d.heard r fm c = d.taken r 1 c := by
  simp [Dev.heard, Dev.refPages, hr]

/-- The taking of ring entries leaves the tests, the tiles, the slices, and the replies that wait. -/
theorem taken_frame (d : Dev) (r : RingNo) (n : Nat) (c : Cmd) :
    (d.taken r n c).test = d.test ∧ (d.taken r n c).tiles = d.tiles ∧ (d.taken r n c).prot = d.prot ∧
    (d.taken r n c).host.waiting = d.host.waiting ∧ (d.taken r n c).host.handover = d.host.handover := by
  obtain ⟨t, l, f, h⟩ := taken_cached d r n c
  rw [h]
  exact ⟨rfl, rfl, rfl, rfl, rfl⟩

/-- A command is heard only where no handover is under way and no reply waits under its number. -/
theorem hears_host {d : Dev} {r : RingNo} {c : Cmd} {fm : Form} (h : d.hears r c fm) :
    d.host.handover = false ∧ ∀ w ∈ d.host.waiting, w.id ≠ d.host.nextWait := by
  obtain ⟨⟨-, -, -, ⟨htakes, -⟩, -, -, -, -, -, -, hwaiting, -⟩, -⟩ := h
  simp only [Dev.takesCommands, Bool.and_eq_true, Bool.not_eq_true'] at htakes
  exact ⟨htakes.2, hwaiting⟩

/-- A command without a reference whose rule does its work off the host port ends at once with OK. -/
theorem runCmd_done {d x : Dev} {r : RingNo} {c : Cmd} {fm : Form} {body : Cmd → Nat → Nat → Dev → Answer × Dev}
    (h : d.hears r c fm) (hr : fm.ref = 0) (hb : body c d.host.nextWait 1 (d.taken r 1 c) = done x)
    (hx : x.host = (d.taken r 1 c).host) : d.runCmd fm c body = x.answered d fm c 0 0 [] := by
  obtain ⟨hhandover, hwaiting⟩ := hears_host h
  obtain ⟨-, -, -, hw, hh⟩ := taken_frame d r 1 c
  rw [← heard_of_noRef hr] at hb
  exact runCmd_ok h hb (by rwa [hx, hw]) (by rwa [hx, hh])

/-! ### Drills (R378, R380, R427) -/

/-- An active perturbation is by itself a reason to skip a due drill (R427). -/
theorem skipsDrill_of_perturb {d : Dev} (h : ∃ e ∈ d.test.perturbs, e.2.state = 1) : d.skipsDrill = true := by
  have hany : d.test.perturbs.any (fun e => decide (e.2.state = 1)) = true := by simpa using h
  simp only [Dev.skipsDrill, hany, Bool.or_true]

/-- An armed drill that is due and skipped is counted and recorded, and nothing else (R380). -/
theorem drillDueD_skipped {d : Dev} {i : Fin 64} (harmed : (d.drill i).state = 1) (hskips : d.skipsDrill = true) :
    drillDueD i d =
      (d.modDrill i fun x => { x with skipped := satAdd 32 x.skipped 1 }).fault (drillRec i (d.drill i).kind 0) := by
  simp [drillDueD, harmed, hskips]

/-- Two changes that agree on drill `i` as it stands are one. -/
theorem modDrill_congr {d : Dev} {i : Nat} {f g : Drill → Drill} (h : f (d.drill i) = g (d.drill i)) :
    d.modDrill i f = d.modDrill i g := by
  simp only [Dev.drill] at h
  simp only [Dev.modDrill, tmod, h]

/-- What DRILL_ARM asks of a drill (R378): its KIND is set, its TARGET suits it and is of no confidential slice, and its INTERVAL is long
enough. -/
def MayArm (d : Dev) (x : Drill) : Prop :=
  x.kind ≠ 0 ∧ x.suits = true ∧ 60 ≤ x.interval.toNat ∧
  (x.kind = 3 → d.isConf (d.pos (x.target.toNat % 2 ^ 24)).slice.toNat = false)

/-- The taking of ring entries changes nothing that DRILL_ARM asks for. -/
theorem MayArm.taken {d : Dev} {x : Drill} (h : MayArm d x) (r : RingNo) (n : Nat) (c : Cmd) : MayArm (d.taken r n c) x := by
  obtain ⟨-, htiles, hprot, -, -⟩ := taken_frame d r n c
  obtain ⟨hkind, hsuits, hgap, hopen⟩ := h
  have hpos (p : Nat) : (d.taken r n c).pos p = d.pos p := by simp only [Dev.pos, htiles]
  have hslice (i : Nat) : (d.taken r n c).slice i = d.slice i := by simp only [Dev.slice, hprot]
  refine ⟨hkind, hsuits, hgap, fun h3 => ?_⟩
  rw [hpos, Dev.isConf, hslice]
  exact hopen h3

/-- DRILL_ARM refuses no drill that has what it asks for, and arms it if it is disarmed (R378). -/
theorem drillArmBody_done {d : Dev} {c : Cmd} (h : MayArm d (d.drill c.inst.toNat)) (id role : Nat) :
    drillArmBody c id role d = done (d.modDrill c.inst.toNat fun x => if x.state = 0 then { x with state := 1 } else x) := by
  unfold drillArmBody
  generalize d.drill c.inst.toNat = x at h ⊢
  obtain ⟨hkind, hsuits, hgap, hopen⟩ := h
  have hconf : (decide (x.kind = 3) && decide (x.target.toNat / 2 ^ 24 = 0x10) &&
      d.isConf (d.pos (x.target.toNat % 2 ^ 24)).slice.toNat) = false := by
    by_cases h3 : x.kind = 3
    · rw [hopen h3, Bool.and_false]
    · rw [decide_eq_false h3, Bool.false_and, Bool.false_and]
  simp only [firstBad, judged, hconf, hkind, hsuits, Nat.not_lt.mpr hgap, decide_false, Bool.not_true, Bool.or_self, List.find?_cons,
    List.find?_nil, Option.map_none]

/-- DRILL_ARM of a drill in STATE 0, with nothing to refuse, puts it in STATE 1, whatever perturbations are active (R378, R427). -/
theorem runCmd_drillArm {d : Dev} {r : RingNo} {c : Cmd} {fm : Form} (h : d.hears r c fm) (hr : fm.ref = 0)
    (hstate : (d.drill c.inst.toNat).state = 0) (hmay : MayArm d (d.drill c.inst.toNat)) :
    d.runCmd fm c drillArmBody =
      ((d.taken r 1 c).modDrill c.inst.toNat fun y => { y with state := 1 }).answered d fm c 0 0 [] := by
  obtain ⟨htest, -⟩ := taken_frame d r 1 c
  have hdrill : (d.taken r 1 c).drill c.inst.toNat = d.drill c.inst.toNat := by simp only [Dev.drill, htest]
  have harms : (d.taken r 1 c).modDrill c.inst.toNat (fun y => if y.state = 0 then { y with state := 1 } else y) =
      (d.taken r 1 c).modDrill c.inst.toNat fun y => { y with state := 1 } :=
    modDrill_congr (if_pos (by rw [hdrill, hstate]))
  have hbody := drillArmBody_done (d := d.taken r 1 c) (c := c) (by rw [hdrill]; exact hmay.taken r 1 c) d.host.nextWait 1
  rw [harms] at hbody
  exact runCmd_done h hr hbody rfl

/-- Settles O59: an active perturbation is one of the reasons to skip a due drill, and DRILL_ARM does not look at perturbations. -/
theorem perturbationsHoldDrills : Obligations.PerturbationsHoldDrills := by
  unfold Obligations.PerturbationsHoldDrills
  intro s hactive
  refine ⟨?due, ?arm⟩
  case due =>
    intro i harmed
    exact congrArg (fun d => Host.Outcome.next { s with dev := d }) (drillDueD_skipped harmed (skipsDrill_of_perturb hactive))
  case arm =>
    intro r c fm x hhears hstate hkind hsuits hgap hopen
    exact congrArg (fun d => Host.Outcome.next { s with dev := d })
      (runCmd_drillArm hhears rfl hstate ⟨hkind, hsuits, hgap, hopen⟩)

end Sys2Proof.Proofs
end
